-- ==== Sys2Proof/Word.lean ====
section
/-!
DEFINITION. The words of the block (00_scope.md R5): every multi-byte field is little-endian, bit 0 is the least
significant bit. Names for the widths that registers, lines and descriptors use.
-/

namespace Sys2Proof

/-- A register of the register space, a word of a manifest line or of a record. -/
abbrev W64 := BitVec 64
/-- Half a word: handles, ring indices, node IDs. -/
abbrev W32 := BitVec 32
/-- A 64-byte line: manifest lines, descriptors, coherent lines, flits. Byte 0 is bits 7:0. -/
abbrev Line := BitVec 512

end Sys2Proof
end

