-- ==== Sys2Proof/Syntax.lean ====
section
/-!
DEFINITION. The commands of the block and the types of their operands. The opcode table gives its rows no bits
(98_reader.md: n_rows_with_fields 0), so the operands are those the rule of each row names.
-/

namespace Sys2Proof

/-- The answer to a memory request (02 R30, R383): complete, poisoned read data, access error, translation fault.
[log 4 DESIGN CHOICE safe] -/
inductive MemResp where
  | ok | poison | access | translation
  deriving DecidableEq, Repr

/-- A command of a berth, named by the berth's index and the ring index of the command's HEAD line (06 R112, LINE). -/
structure CmdId where
  berth : BitVec 22
  line : W32
  deriving DecidableEq, Repr

/-- The end of a berth's accept group: the berth, and whether the harbour-part write of an entry inserted for the manifest has been
acknowledged (14 R248). -/
structure AcceptEnd where
  berth : BitVec 22
  acked : Bool
  deriving DecidableEq, Repr

/-- A place in the harbour region: its 4 KiB page, and the 32-byte unit of the page (14 R242, R261). -/
structure HarbourAt where
  page : W32
  unit : BitVec 7
  deriving DecidableEq, Repr

/-- What a unit captures: the code of a check, and whether it is a single-bit error that was corrected (05 R87; 17 R303). -/
structure ErrCode where
  code : BitVec 8
  corrected : Bool
  deriving DecidableEq, Repr

/-- A line, and what the harbour port answered to the atomic that went to memory for it (15 R272). -/
structure LineAns where
  line : BitVec 48
  resp : MemResp
  deriving DecidableEq, Repr

/-- A record that the block brings on chip (04 R63): a context record, a berth record, a bollard slot. -/
inductive RecId where
  | ctx (i : BitVec 20) | berth (i : BitVec 22) | bollard (i : BitVec 24)
  deriving DecidableEq, Repr

/-- What R124 distinguishes: a parity error of the control store, of the dispatch table, or the trap word. -/
inductive CsError where
  | store | dispatch | trap
  deriving DecidableEq, Repr

/-- What a stall report is about (12 R217). -/
inductive StallWho where
  | berth (b : BitVec 22) | quay (q : BitVec 6)
  deriving DecidableEq, Repr

/-- One member of a group table (16 R293). -/
structure Member where
  node : W32
  buf : W64
  counter : W32
  cap : W64
  deriving DecidableEq, Repr

/-- A group table as the routine reads it from ARG3 (16 R293): the members in table order and SELF. -/
structure GroupTable where
  members : List Member
  self : BitVec 16
  deriving DecidableEq, Repr

/-- What the read of a FREE_BLOCKS's IN_VA returned (09 R162): the answer and the 32-bit indices. -/
structure FreeRead where
  cmd : CmdId
  r : MemResp
  idx : List W32
  deriving DecidableEq, Repr

/-- What the read of SLOT_VA returned (09 R161): the answer and the 32-bit offsets. -/
structure SlotRead where
  r : MemResp
  off : List W32
  deriving DecidableEq, Repr

/-- A completion packet of an engine (02 R31, 08 R145). -/
structure CplPacket where
  stn : BitVec 10
  tag : W32
  last : Bool
  fault : Bool
  info : W64
  deriving DecidableEq, Repr

/-- The scope of a drain (08 R149): a context (by handle), a berth, a command, or all work. -/
inductive DrainScope where
  | ctx (h : W32) | berth (b : BitVec 22) | cmd (c : CmdId) | all
  deriving DecidableEq, Repr

/-- The identity of a wait-cycle search (11 R196): initiator node, initiator berth handle, search number. -/
structure SearchKey where
  node : W32
  berth : W32
  num : W32
  deriving DecidableEq, Repr

/-- The verdict field of a REPLY (11 R196); in the confirm lap BLOCKED stands for UNCHANGED (R195). -/
inductive QVerdict where
  | blocked | empty | opened | abort
  deriving DecidableEq, Repr

/-- A coherence request is first sent by its agent (15 R270) and later granted by the arbiter (15 R267, R269). -/
inductive ReqPhase where
  | send | grant
  deriving DecidableEq, Repr

/-- The atomics of 02 R30 and 15 R272: the 8-byte word of the line, and the operands. -/
inductive AtmOp where
  | add (w : BitVec 3) (v : W64)
  | cas (w : BitVec 3) (cmp swap : W64)
  deriving DecidableEq, Repr

/-- The messages that reach an agent (rows of the agent table of 15 R270). -/
inductive CohEv where
  | dataC | dataF | dataS | dataD | cmp | snpS | snpX | inv | snpCur | wbAck | push
  deriving DecidableEq, Repr

/-- A message for agent `dst` about line `line`. -/
structure CohMsg where
  dst : BitVec 4
  line : BitVec 48
  ev : CohEv
  deriving DecidableEq, Repr

/-- The source of a trace record waiting for the SRAM (21 R363): a quay, a pilot, or the unit that wrote a marker. -/
inductive TraceSrc where
  | quay (q : BitVec 6) | pilot (p : BitVec 3) | marker
  deriving DecidableEq, Repr

/-- The answers a node gives to an ENUM token (16 R279). -/
inductive EnumAns where
  | done | nakVisited | nakForeign
  deriving DecidableEq, Repr

/-- The status that a WAIT_END carries (16 R283). -/
inductive WaitEndStatus where
  | withdrawn | stale | abandoned | deadlock
  deriving DecidableEq, Repr

/-- The rows of the refusal table of 10 R178. -/
inductive RefuseRow where
  | stale | cap | abandoned | kind | backward | counterOver | barrierOver | barrierLate
  deriving DecidableEq, Repr

/-- What one node reports in a census (16 R280): ID, UNIT_SERIAL, pinned, and for each link its number, its state
(1 PARENT, 2 CHILD, 3 CROSS, 4 FOREIGN) and the ID of the neighbour. -/
structure CensusNode where
  id : W32
  serial : W64
  pinned : Bool
  links : List (BitVec 6 × BitVec 3 × W32)
  deriving DecidableEq, Repr

/-- What the packets of a census carry (16 R279 to R282), symbolic as their bits are not given: the request down the tree; the
reports of a subtree, each with the links that lead to its node; a new ID for the node at the end of `path`; the report of
a link that came up or fell. [log 69 DESIGN CHOICE safe] -/
inductive CensusMsg where
  | ask
  | report (nodes : List (List (BitVec 6) × CensusNode))
  | newId (path : List (BitVec 6)) (id : W32)
  | change (up : Bool)
  deriving DecidableEq, Repr

/-- What a fabric packet carries, by PKIND (16 R283, R284). The spec names the payload's fields and gives them no bit
positions, so a packet is a structure. [log 69 DESIGN CHOICE safe] -/
inductive Payload where
  | signal (h : W32) (v cap : W64) (op : BitVec 4) (ref : BitVec 40) (line : BitVec 16) (entry : BitVec 3)
  | sigNotice (ref : BitVec 40) (line : BitVec 16) (entry : BitVec 3) (h : W32) (row : RefuseRow)
  | waitReg (h : W32) (v cap : W64) (cond : BitVec 4) (waiter : W32) (entry : BitVec 3) (cont : Bool)
  | waitMet (waiter : W32) (entry : BitVec 3) (time : W64)
  | waitEnd (waiter : W32) (entry : BitVec 3) (st : WaitEndStatus)
  | waitQuery (k : SearchKey) (lap : BitVec 2) (h : W32) (waiter : W32)
  | declQuery (k : SearchKey) (lap : BitVec 2) (h : W32) (cond : BitVec 4) (v : W64)
  | reply (k : SearchKey) (lap : BitVec 2) (v : QVerdict) (reach : Bool)
  | capNote (h : W32) (added : Bool)
  | ackOnly
  | enumTok (epoch : BitVec 16) (root base next hops : W32)
  | enumReply (a : EnumAns) (next id : W32)
  | census (m : CensusMsg)
  | route (path : List (BitVec 6)) (dst : W32) (primary alternate : BitVec 6) (absent : Bool)
  | tideSync (t1 t2 t3 : W64)
  | isolate (path : List (BitVec 6))
  | routeSet (dst : W32) (primary : BitVec 6)
  | reserved (pkind : BitVec 8)
  deriving DecidableEq, Repr

/-- A fabric packet: the header fields of 16 R283 and the payload. [log 69 DESIGN CHOICE safe] -/
structure Packet where
  dest : W32
  src : W32
  credit : BitVec 16
  pseq : W32
  ack : W32
  lowRef : BitVec 40
  session : BitVec 16
  body : Payload
  deriving DecidableEq, Repr

/-- A packet as it arrives on a link (16 R284): sealed under a key and a nonce, unaltered on the way or not, and with an
E2E field that matches its bytes or not. -/
structure SealedPacket where
  pkt : Packet
  key : BitVec 256
  nonce : BitVec 96
  intact : Bool
  e2eOk : Bool
  deriving DecidableEq, Repr


/-- The commands of the block: one constructor per row of spec/opcode_table.json, in the table's order but for
the last twenty, which carry no operand (Lean's compiler gives the constructors past its 244th no room for fields). Each
docstring names the row and the rule the table gives it. [log 4 DESIGN CHOICE safe] -/
inductive Instr where
  /-- REGISTER_WRITE (R41). -/
  | registerWrite (addr : BitVec 57) (be : BitVec 64) (data : BitVec 64)
  /-- APERTURE_READ (R44). -/
  | apertureRead (addr : BitVec 57) (rid : BitVec 16) (tag : BitVec 10)
  /-- DOORBELL_WRITE (R73). -/
  | doorbellWrite (addr : BitVec 57) (be : BitVec 64) (data : BitVec 128)
  /-- DOORBELL_CHECK (R76). -/
  | doorbellCheck
  /-- STASH_WRITE (R84). -/
  | stashWrite (target : BitVec 2) (asid : BitVec 20) (addr : BitVec 57) (line : Line)
  /-- QUIESCE_REQUEST (R53). -/
  | quiesceRequest (page : BitVec 8)
  /-- QUIESCE_RELEASE (R53). -/
  | quiesceRelease (page : BitVec 8)
  /-- UNIT_QUIESCED (R53). -/
  | unitQuiesced (page : BitVec 8)
  /-- WIN_READ (R50). -/
  | winRead (w : BitVec 7)
  /-- WIN_WRITE (R50). -/
  | winWrite (w : BitVec 7)
  /-- WIN_CLEAR (R50). -/
  | winClear (w : BitVec 7)
  /-- WINDOW_COMMAND_DONE (R50). -/
  | windowCommandDone (w : BitVec 7)
  /-- TEARDOWN_STOP (R66). -/
  | teardownStop (ctx : BitVec 20)
  /-- TEARDOWN_DONE (R67). -/
  | teardownDone (ctx : BitVec 20)
  /-- ABANDON_HOLD_END (R71). -/
  | abandonHoldEnd (bol : BitVec 24)
  /-- BERTH_DRAINED (R59). -/
  | berthDrained (berth : BitVec 22)
  /-- RECORD_FILL (R63). -/
  | recordFill (rec : RecId) (a b : MemResp)
  /-- BERTH_WAKE (R82). -/
  | berthWake
  /-- FETCH_WINDOW (R82). -/
  | fetchWindow (berth : BitVec 22)
  /-- LINE_RESPONSE (R87). -/
  | lineResponse (berth : BitVec 22) (idx : BitVec 32) (r : MemResp) (line : Line)
  /-- IDLE_CHECK (R80). -/
  | idleCheck (berth : BitVec 22)
  /-- FETCH_REPLY (R81). -/
  | fetchReply
  /-- XC_LOOKUP (R118). -/
  | xcLookup
  /-- XC_HARBOUR_ANSWER (R118). -/
  | xcHarbourAnswer (berth : BitVec 22)
  /-- TRANSLATION_DONE (R119). -/
  | translationDone (pilot : BitVec 3)
  /-- TRANSLATION_RESTART (R120). -/
  | translationRestart (pilot : BitVec 3)
  /-- XC_FLUSH (R121). -/
  | xcFlush
  /-- FLUSH_DONE (R121). -/
  | flushDone
  /-- CS_PARITY_ERROR (R124). -/
  | csParityError (seq : BitVec 4) (kind : CsError) (addr : BitVec 12)
  /-- CS_RELOAD_DONE (R124). -/
  | csReloadDone (seq : BitVec 4)
  /-- ACCEPT_REQUEST (R249). -/
  | acceptRequest
  /-- MANIFEST_ACCEPTED (R248). -/
  | manifestAccepted (berth : AcceptEnd)
  /-- LOG_UNIT_DURABLE (R243). -/
  | logUnitDurable (lsn : BitVec 64)
  /-- COMPLETE_DURABLE (R250). -/
  | completeDurable (c : CmdId)
  /-- COMPLETION_RECORD_LOST (R68). -/
  | completionRecordLost (ctx : BitVec 32) (addr : BitVec 57) (r : MemResp)
  /-- CHECKPOINT (R252). -/
  | checkpoint
  /-- MIRROR_LOST (R260). -/
  | mirrorLost (mirror : Bool)
  /-- RESILVER_DONE (R260). -/
  | resilverDone
  /-- HARBOUR_POISON_READ (R261). -/
  | harbourPoisonRead (mirror : Bool) (page : HarbourAt) (other : MemResp)
  /-- REPLAY (R255). -/
  | replay
  /-- COMMAND_INTERRUPTED (R254). -/
  | commandInterrupted (c : CmdId)
  /-- HMS_PICK (R204). -/
  | hmsPick
  /-- PREEMPT_DECISION (R209). -/
  | preemptDecision (c : CmdId)
  /-- PREEMPT_COMPLETE (R210). -/
  | preemptComplete (c : CmdId)
  /-- RECLAIM (R213). -/
  | reclaim (quay : BitVec 6)
  /-- STALL_REPORT (R217). -/
  | stallReport (w : StallWho)
  /-- CURRENT_SAMPLE (R218). -/
  | currentSample (cur : BitVec 16)
  /-- TELEMETRY_LOST (R223). -/
  | telemetryLost
  /-- THERMAL_CHANGE (R222). -/
  | thermalChange (level : BitVec 2)
  /-- PACE_LIMIT_WRITE (R225). -/
  | paceLimitWrite (v : BitVec 64)
  /-- SPIN_WINDOW_END (R184). -/
  | spinWindowEnd (c : CmdId)
  /-- WAITER_WAKE (R184). -/
  | waiterWake (c : CmdId)
  /-- LAUNCH_TILES (R133). -/
  | launchTiles (c : CmdId)
  /-- COPY (R143). -/
  | copy (c : CmdId)
  /-- FILL (R130). -/
  | fill (c : CmdId)
  /-- ALL_REDUCE (R293). -/
  | allReduce (c : CmdId) (g : GroupTable)
  /-- ALL_GATHER (R293). -/
  | allGather (c : CmdId) (g : GroupTable)
  /-- REDUCE_SCATTER (R293). -/
  | reduceScatter (c : CmdId) (g : GroupTable)
  /-- BROADCAST (R293). -/
  | broadcast (c : CmdId) (g : GroupTable)
  /-- GATHER_ROWS (R143). -/
  | gatherRows (c : CmdId)
  /-- EVAL (R154). -/
  | eval (c : CmdId)
  /-- EVAL_PROGRAM_READ (R157). -/
  | evalProgramRead (c : CmdId) (r : MemResp) (words : List (BitVec 64))
  /-- LDI (R156). -/
  | ldi (e : BitVec 2)
  /-- ADDI (R156). -/
  | addi (e : BitVec 2)
  /-- ALU (R156). -/
  | alu (e : BitVec 2)
  /-- LD32 (R156). -/
  | ld32 (e : BitVec 2)
  /-- LD64 (R156). -/
  | ld64 (e : BitVec 2)
  /-- EVAL_LOAD_DATA (R157). -/
  | evalLoadData (e : BitVec 2) (r : MemResp) (words : List (BitVec 32))
  /-- SETP (R156). -/
  | setp (e : BitVec 2)
  /-- ALOAD (R156). -/
  | aload (e : BitVec 2)
  /-- ASTORE (R156). -/
  | astore (e : BitVec 2)
  /-- AGET (R156). -/
  | aget (e : BitVec 2)
  /-- ASET (R156). -/
  | aset (e : BitVec 2)
  /-- AMAP (R156). -/
  | amap (e : BitVec 2)
  /-- AIDX (R156). -/
  | aidx (e : BitVec 2)
  /-- ASCAN (R156). -/
  | ascan (e : BitVec 2)
  /-- AREDUCE (R156). -/
  | areduce (e : BitVec 2)
  /-- ACOMPACT (R156). -/
  | acompact (e : BitVec 2)
  /-- AEXPAND (R156). -/
  | aexpand (e : BitVec 2)
  /-- EVAL_COMPLETE (R159). -/
  | evalComplete (e : BitVec 2)
  /-- ALLOC_BLOCKS (R161). -/
  | allocBlocks (c : CmdId) (reads : List FreeRead)
  /-- ALLOC_COMMIT (R161). -/
  | allocCommit (c : CmdId) (slots : SlotRead) (w : List MemResp)
  /-- FREE_BLOCKS (R162). -/
  | freeBlocks (c : CmdId) (read : FreeRead)
  /-- POOL_CREATE (R160). -/
  | poolCreate
  /-- POOL_DESTROY (R160). -/
  | poolDestroy
  /-- POOL_READ (R167). -/
  | poolRead
  /-- BARRIER (R100). -/
  | barrier (c : CmdId)
  /-- NOP (R106). -/
  | nop (c : CmdId)
  /-- END (R100). -/
  | endCmd (c : CmdId)
  /-- SIGNAL_HOST (R385). -/
  | signalHost (c : CmdId)
  /-- HOST_WRITE_FAIL (R385). -/
  | hostWriteFail (c : CmdId) (r : MemResp)
  /-- MOOR (R231). -/
  | moor (c : CmdId)
  /-- UNMOOR (R232). -/
  | unmoor (c : CmdId)
  /-- MOORING_LOAD_START (R234). -/
  | mooringLoadStart (m : BitVec 12)
  /-- MOORING_LOAD_LINE (R235). -/
  | mooringLoadLine (m : BitVec 12) (line : Line)
  /-- MOORING_LOADED (R235). -/
  | mooringLoaded (m : BitVec 12)
  /-- LOAD_RESTART (R236). -/
  | loadRestart (m : BitVec 12) (r : MemResp)
  /-- MOORING_POISON (R237). -/
  | mooringPoison
  /-- GRANULE_REPAIRED (R238). -/
  | granuleRepaired (m : BitVec 12)
  /-- MMG_READ (R241). -/
  | mmgRead
  /-- TILE_FORM (R134). -/
  | tileForm (seq : BitVec 4)
  /-- INDEX_LINE_RESPONSE (R135). -/
  | indexLineResponse (seq : BitVec 4) (addr : BitVec 57) (r : MemResp) (line : Line)
  /-- DESCRIPTOR_CROSSING (R140). -/
  | descriptorCrossing (seq : BitVec 4)
  /-- DESCRIPTOR_LAUNCH (R31). -/
  | descriptorLaunch (quay : BitVec 6)
  /-- COMPLETION_PACKET (R146). -/
  | completionPacket (quay : BitVec 6) (p : CplPacket)
  /-- COMMAND_TILES_DONE (R147). -/
  | commandTilesDone (c : CmdId)
  /-- COMMAND_FAULT (R147). -/
  | commandFault (c : CmdId)
  /-- DRAIN_REQUEST (R149). -/
  | drainRequest (quay : BitVec 6) (scope : DrainScope)
  /-- DRAIN_DONE (R149). -/
  | drainDone (quay : BitVec 6)
  /-- DRAIN_TIMEOUT (R149). -/
  | drainTimeout (quay : BitVec 6)
  /-- QUAY_CLOCK_STOPPED (R26). -/
  | quayClockStopped (quay : BitVec 6)
  /-- QUAY_CLOCK_RETURN (R148). -/
  | quayClockReturn (quay : BitVec 6)
  /-- REVIVE (R151). -/
  | revive (quay : BitVec 6)
  /-- FENCE_GE (R173). -/
  | fenceGe (c : CmdId)
  /-- COUNTER_TAKE (R173). -/
  | counterTake (c : CmdId)
  /-- BARRIER_PASS (R182). -/
  | barrierPass (c : CmdId)
  /-- FLAG_IS_SET (R173). -/
  | flagIsSet (c : CmdId)
  /-- FLAG_IS_CLEAR (R173). -/
  | flagIsClear (c : CmdId)
  /-- FENCE_SET (R180). -/
  | fenceSet (c : CmdId) (entry : BitVec 1)
  /-- COUNTER_PUT (R179). -/
  | counterPut (c : CmdId) (entry : BitVec 1)
  /-- BARRIER_ARRIVE (R182). -/
  | barrierArrive (c : CmdId) (entry : BitVec 1)
  /-- FLAG_SET (R179). -/
  | flagSet (c : CmdId) (entry : BitVec 1)
  /-- FLAG_CLEAR (R179). -/
  | flagClear (c : CmdId) (entry : BitVec 1)
  /-- HCMD_FENCE_SET (R185). -/
  | hcmdFenceSet
  /-- HCMD_COUNTER_PUT (R185). -/
  | hcmdCounterPut
  /-- HCMD_BARRIER_ARRIVE (R185). -/
  | hcmdBarrierArrive
  /-- HCMD_FLAG_SET (R185). -/
  | hcmdFlagSet
  /-- HCMD_FLAG_CLEAR (R185). -/
  | hcmdFlagClear
  /-- FORCE (R188). -/
  | force
  /-- FORCE_BARRIER (R188). -/
  | forceBarrier
  /-- SEARCH_START (R194). -/
  | searchStart (berth : BitVec 22)
  /-- WAIT_QUERY (R196). -/
  | waitQuery (src : BitVec 32)
  /-- DECL_QUERY (R196). -/
  | declQuery (src : BitVec 32)
  /-- REPLY (R196). -/
  | reply (src : BitVec 32)
  /-- VERDICT (R197). -/
  | verdict (key : SearchKey)
  /-- ENUM_START (R279). -/
  | enumStart
  /-- ENUM (R279). -/
  | enumToken (link : BitVec 6)
  /-- ENUM_REPLY (R279). -/
  | enumReply (link : BitVec 6)
  /-- CENSUS (R280). -/
  | census (link : BitVec 6)
  /-- ROUTE (R281). -/
  | route (link : BitVec 6)
  /-- ISOLATE (R280). -/
  | isolate (link : BitVec 6)
  /-- LINK_DOWN (R282). -/
  | linkDown (link : BitVec 6)
  /-- LINK_UP (R279). -/
  | linkUp (link : BitVec 6)
  /-- LINK_SESSION_KEY (R284). -/
  | linkSessionKey (sel : BitVec 16) (key : BitVec 256)
  /-- FABRIC_PACKET_RECEIVE (R284). -/
  | fabricPacketReceive (link : BitVec 6) (arrive : BitVec 16) (p : SealedPacket)
  /-- PACKET_RESEND (R285). -/
  | packetResend (node : BitVec 32)
  /-- SIGNAL (R288). -/
  | signal (src : BitVec 32)
  /-- SIG_NOTICE (R178). -/
  | sigNotice (src : BitVec 32)
  /-- WAIT_REG (R288). -/
  | waitReg (src : BitVec 32)
  /-- WAIT_MET (R175). -/
  | waitMet (src : BitVec 32)
  /-- WAIT_END (R288). -/
  | waitEnd (src : BitVec 32)
  /-- CAP_NOTE (R290). -/
  | capNote (src : BitVec 32)
  /-- ACK_ONLY (R283). -/
  | ackOnly (src : BitVec 32)
  /-- TIDE_SYNC_SEND (R291). -/
  | tideSyncSend
  /-- TIDE_SYNC (R291). -/
  | tideSync (link : BitVec 6)
  /-- DEPARTURE_STAMP (R291). -/
  | departureStamp (link : BitVec 6) (time : BitVec 16)
  /-- TIDE_LOST (R292). -/
  | tideLost
  /-- PARTNER_READ (R295). -/
  | partnerRead
  /-- RELEASE (R294). -/
  | release
  /-- QUARANTINE (R295). -/
  | quarantine
  /-- ADD (R290). -/
  | add
  /-- REMOVE (R290). -/
  | remove
  /-- REMOVE_ALL (R290). -/
  | removeAll
  /-- FAULT_RECORD_WRITE (R296). -/
  | faultRecordWrite (seqNo : BitVec 32)
  /-- FQ_CONS_WRITE (R299). -/
  | fqConsWrite (v : BitVec 64)
  /-- PENDING_MOVE (R301). -/
  | pendingMove
  /-- FQ_READ (R386). -/
  | fqRead (a b : MemResp)
  /-- TAKE (R301). -/
  | take
  /-- FQ_SWEEP (R301). -/
  | fqSweep (v : BitVec 64)
  /-- MACHINE_CHECK (R304). -/
  | machineCheck (page : BitVec 8) (code : ErrCode) (addr : BitVec 64)
  /-- PROTOCOL_ERROR (R270). -/
  | protocolError (m : CohMsg)
  /-- RDS (R269). -/
  | rds (x : BitVec 4) (l : BitVec 48) (p : ReqPhase)
  /-- RDX (R269). -/
  | rdx (x : BitVec 4) (l : BitVec 48) (p : ReqPhase)
  /-- UPG (R269). -/
  | upg (x : BitVec 4) (l : BitVec 48) (p : ReqPhase)
  /-- WB (R271). -/
  | wb (x : BitVec 4) (l : BitVec 48) (p : ReqPhase)
  /-- EVC (R269). -/
  | evc (x : BitVec 4) (l : BitVec 48) (p : ReqPhase)
  /-- WRPART (R268). -/
  | wrpart (x : BitVec 4) (l : BitVec 48) (be : BitVec 64) (data : Line) (p : ReqPhase)
  /-- ATM (R272). -/
  | atm (x : BitVec 4) (l : BitVec 48) (op : AtmOp) (p : ReqPhase)
  /-- SNOOP_RESPONSE (R269). -/
  | snoopResponse (x : BitVec 4) (l : BitVec 48)
  /-- PUSH_ANSWER (R273). -/
  | pushAnswer (x : BitVec 4) (l : BitVec 48)
  /-- DONE (R267). -/
  | done (x : BitVec 4) (l : BitVec 48)
  /-- SNPS (R270). -/
  | snps (x : BitVec 4) (l : BitVec 48)
  /-- SNPX (R270). -/
  | snpx (x : BitVec 4) (l : BitVec 48)
  /-- INV (R270). -/
  | inv (x : BitVec 4) (l : BitVec 48)
  /-- SNPCUR (R270). -/
  | snpcur (x : BitVec 4) (l : BitVec 48)
  /-- PUSH (R270). -/
  | push (x : BitVec 4) (l : BitVec 48)
  /-- DATA_GRANT (R270). -/
  | dataGrant (x : BitVec 4) (l : BitVec 48)
  /-- CMP (R270). -/
  | cmp (x : BitVec 4) (l : BitVec 48)
  /-- WRCMP (R268). -/
  | wrcmp (x : BitVec 4) (l : BitVec 48)
  /-- WBACK (R270). -/
  | wback (x : BitVec 4) (l : BitVec 48)
  /-- ATMRSP (R272). -/
  | atmrsp (x : BitVec 4) (l : LineAns)
  /-- IRQ_SOURCE_RISE (R309). -/
  | irqSourceRise (src : BitVec 7)
  /-- MSIX_DELIVERY (R311). -/
  | msixDelivery
  /-- MSIX_SEND (R311). -/
  | msixSend
  /-- BATCH_END (R312). -/
  | batchEnd (g : BitVec 4)
  /-- HOLDOFF_EXPIRY (R312). -/
  | holdoffExpiry (g : BitVec 4)
  /-- WIRE_JOIN (R313). -/
  | wireJoin (src : BitVec 7)
  /-- IRQ_PEND_WRITE (R315). -/
  | irqPendWrite (r : BitVec 1) (v : BitVec 64) (hw : BitVec 64)
  /-- IRQ_MASK_WRITE (R316). -/
  | irqMaskWrite (r : BitVec 1) (v : BitVec 64)
  /-- POWER_ON_RESET (R324). -/
  | powerOnReset
  /-- BROWN_OUT_RESET (R324). -/
  | brownOutReset
  /-- PIN_RESET (R324). -/
  | pinReset
  /-- BLOCK (R321). -/
  | block (key : BitVec 16)
  /-- BLOCK_RELOAD (R321). -/
  | blockReload (key : BitVec 16)
  /-- WATCHDOG_RESTART (R336). -/
  | watchdogRestart (pilot : BitVec 3)
  /-- CLOCK_FAILURE (R335). -/
  | clockFailure (island : BitVec 4)
  /-- PILOT_LOCKUP (R334). -/
  | pilotLockup (pilot : BitVec 3)
  /-- PILOT_RELOAD_DONE (R334). -/
  | pilotReloadDone (pilot : BitVec 3)
  /-- PARK_ESCALATION (R23). -/
  | parkEscalation (island : BitVec 4)
  /-- ISLAND_RELEASE (R326). -/
  | islandRelease (island : BitVec 4)
  /-- CONFIG_CHUNK (R328). -/
  | configChunk (data : BitVec 256) (last : Bool)
  /-- CONFIG_VERDICT (R328). -/
  | configVerdict (v : Bool)
  /-- IMAGE_CHUNK (R329). -/
  | imageChunk (data : BitVec 256) (last : Bool)
  /-- IMAGE_VERDICT (R329). -/
  | imageVerdict (v : Bool)
  /-- IMAGE_RELOAD_DONE (R329). -/
  | imageReloadDone (ok : Bool)
  /-- LOAD_FAIL (R332). -/
  | loadFail (reason : BitVec 8)
  /-- RETAIN_WAKE (R338). -/
  | retainWake (island : BitVec 4)
  /-- DOZE_ENTRY (R337). -/
  | dozeEntry (island : BitVec 4)
  /-- DOZE_WAKE (R25). -/
  | dozeWake (island : BitVec 4)
  /-- DEBUG_TOKEN (R344). -/
  | debugToken (slot : BitVec 3) (data : BitVec 256)
  /-- TOKEN_REVOCATION (R345). -/
  | tokenRevocation (slot : BitVec 3)
  /-- TOKEN_EXPIRY (R345). -/
  | tokenExpiry (slot : BitVec 3)
  /-- LOCK (R345). -/
  | lock (key : BitVec 16)
  /-- DAP_ACCESS (R350). -/
  | dapAccess (write : Bool) (addr : BitVec 20) (data : BitVec 64)
  /-- HALT (R356). -/
  | halt (pilots : BitVec 8)
  /-- RESUME (R358). -/
  | resume (pilots : BitVec 8)
  /-- STEP (R358). -/
  | stepPilots (pilots : BitVec 8)
  /-- BREAKPOINT_HIT (R358). -/
  | breakpointHit (pilot : BitVec 3) (addr : BitVec 57)
  /-- PDBG_SEL_WRITE (R359). -/
  | pdbgSelWrite (v : BitVec 64)
  /-- PDBG_DATA_WRITE (R359). -/
  | pdbgDataWrite (v : BitVec 64)
  /-- TRACE_RECORD (R363). -/
  | traceRecord (src : TraceSrc)
  /-- TRACE_RD_WRITE (R365). -/
  | traceRdWrite (v : BitVec 64)
  /-- QUERY (R369). -/
  | query (r : MemResp)
  /-- RC_READ (R41). -/
  | rcRead (addr : BitVec 57) (be : BitVec 64) (rid : BitVec 16) (tag : BitVec 10)
  /-- WATCH_WRITE_FAIL (R186). -/
  | watchWriteFail (bol : BitVec 24) (r : MemResp)
  /-- EVAL_STORE_FAULT (R157). -/
  | evalStoreFault (e : BitVec 2) (addr : BitVec 57) (r : MemResp)
  /-- DEBUG_RESET (R348). -/
  | debugReset
  /-- WATCHDOG_EXPIRY (R336). -/
  | watchdogExpiry
  /-- WDOG_WARN (R336). -/
  | wdogWarn
  /-- IDLE_REQUEST (R323). -/
  | idleRequest
  /-- IDLE_COMPLETE (R323). -/
  | idleComplete
  /-- MEMORY_DRAIN_DONE (R323). -/
  | memoryDrainDone
  /-- LOG_FORMAT_DONE (R330). -/
  | logFormatDone
  /-- LOAD_COMPLETE (R331). -/
  | loadComplete
  /-- NO_VERDICT (R332). -/
  | noVerdict
  /-- RETRY (R332). -/
  | retry
  /-- TARGET_RUN (R337). -/
  | targetRun
  /-- TARGET_TRIM (R337). -/
  | targetTrim
  /-- TARGET_RETAIN (R338). -/
  | targetRetain
  /-- TARGET_OFF (R340). -/
  | targetOff
  /-- RETAIN_ENTRY (R338). -/
  | retainEntry
  /-- RETAIN_TIMEOUT (R338). -/
  | retainTimeout
  /-- SAMPLE (R367). -/
  | sample
  /-- PERIODIC_SAMPLE (R367). -/
  | periodicSample
  /-- CLEAR (R367). -/
  | clear
  /-- COLD_RESET_RELEASE (R326). -/
  | coldResetRelease
  deriving DecidableEq, Repr

end Sys2Proof
end

