-- ==== Sys2Proof/Decode.lean ====
section
/-!
DEFINITION. The command that a word spells by the opcode table's bits. The table gives no row any bits
(98_reader.md: n_rows_with_fields 0), so no word spells a command.
-/

namespace Sys2Proof

/-- The command spelled by `nbits` bits `w`: none, since the opcode table assigns no bits. [log 3 DESIGN CHOICE safe] -/
def decodeTableWord (_nbits _w : Nat) : Option Instr := none

end Sys2Proof
end

