-- ==== Sys2Proof/Config.lean ====
section
/-!
DEFINITION. The free values: what the manual leaves open, as constants without a body. No proof can see a value of one.
-/

namespace Sys2Proof

/-- NATIVE_EPOCH of the image whose header chunk is given (R128: opaque; R329: the image is opaque). Free value.
[log 26 PRESUMED unsafe] -/
opaque Config.imageEpoch : BitVec 256 → BitVec 32

/-- CAT_VER of the image whose header chunk is given (R329). Free value; R131 states 0x0001 for revision B images.
[log 26 PRESUMED unsafe] -/
opaque Config.imageCatVer : BitVec 256 → BitVec 16

/-- A register or private-memory word of a pilot that no debugger has written: pilot, how often it has run, space, index
(R359). The manual gives no instruction set of the pilots (R4). Free value. [log 39 DESIGN CHOICE safe] -/
opaque Config.pilotWord : Nat → Nat → Nat → Nat → BitVec 64

/-- A control-store word of an image, by address, and its sequencing field; none ends a native word's routine (R122). The manual gives the image
no form (R329). Free values. [log 38 DESIGN CHOICE safe] -/
opaque Config.storeWord : BitVec 256 → BitVec 12 → BitVec 192
/-- [log 38 DESIGN CHOICE safe] -/
opaque Config.sequencing : BitVec 192 → Option (BitVec 12)

/-- The routine of a native opcode that an image defines, and its trap word (R122). Free values. [log 38 DESIGN CHOICE safe] -/
opaque Config.dispatchTo : BitVec 256 → BitVec 8 → Option (BitVec 12)
/-- [log 38 DESIGN CHOICE safe] -/
opaque Config.trapAddr : BitVec 256 → BitVec 12

/-- What a native word does with the state held for its command (R125). -/
inductive NativeAct where
  | other | read | update
  deriving DecidableEq, Repr, Inhabited

/-- The native words of a translation, by content hash and offset (R4, R125: never exposed): opcode, act, the value that an update leaves, the
value of the named state before any update of the sequencer; and the offset of the word that issues a tile, by content hash, line and tile.
Free values. [log 38 DESIGN CHOICE safe] -/
opaque Config.nativeOpcode : Nat → Nat → BitVec 8
/-- [log 38 DESIGN CHOICE safe] -/
opaque Config.nativeAct : Nat → Nat → NativeAct
/-- [log 38 DESIGN CHOICE safe] -/
opaque Config.nativeValue : Nat → Nat → BitVec 64
/-- [log 38 DESIGN CHOICE safe] -/
opaque Config.nativeFirst : Nat → Nat → BitVec 64
/-- [log 38 DESIGN CHOICE safe] -/
opaque Config.nativeOffset : Nat → Nat → Nat → BitVec 16

/-- Source and target address of the next branch or exception of a traced pilot (R362). Free value.
[log 40 DESIGN CHOICE safe] -/
opaque Config.pilotBranch : Nat → Nat → BitVec 64 × BitVec 64

/-- SRC_VA, DST_VA and LENGTH of the COLLECTIVE descriptor of a ring step (R293: "write the step's chunk into the next
member's buffer"; the manual does not say which bytes the step's chunk is): routine, arguments, members, SELF, step. Free
value. [log 37 DESIGN CHOICE safe] -/
opaque Config.collectiveChunk : Nat → List (BitVec 64) → Nat → Nat → Nat → BitVec 57 × BitVec 57 × BitVec 40

/-- LINE and entry number in the identity of the SIGNAL that a ring step sends (R283 gives entries 4 and 5, one SIGNAL of each
a command; R293 sends one a step): REF, line of the command, step. Free value. [log 37 DESIGN CHOICE safe] -/
opaque Config.stepIdentity : Nat → Nat → Nat → BitVec 16 × BitVec 3

/-- A counter of clock cycles of a sequencer or of a quay (R367), which a model without clock cycles cannot count: set, instance,
number, time. Free value. [log 60 DESIGN CHOICE safe] -/
opaque Config.clockCycles : Nat → Nat → Nat → Nat → BitVec 64

/-- FSA_TIDE_STAT.OFFSET_PS when the averaged offset does not fit its 16 signed bits (R291, R295), by the model's counter. Free
value. [log 41 DESIGN CHOICE safe] -/
opaque Config.offsetOver : Nat → BitVec 16

/-- Place in the harbour region of a translation entry, by its number (R246: XC_ADDR; the manual gives the harbour part no layout).
Free value. [log 27 DEDUCED unsafe] -/
opaque Config.xcPlace : Nat → BitVec 48

/-- Place in the harbour region that the read of a lookup goes to, by content hash (R118; the manual does not say how the harbour part
is searched). Free value. [log 27 DEDUCED unsafe] -/
opaque Config.xcProbe : Nat → BitVec 48

/-- The internal line code of a line as it was received (R12, R87; the manual does not give the code). Free value.
[log 23 DEDUCED unsafe] -/
opaque Config.lineCode : BitVec 512 → BitVec 64

/-- The members of the group table that a collective works with when MEMBERS or SELF of the one it reads is out of range (R293 states no
result), by both: NODE, BUF_VA, counter handle and CAP of each. Free value. [log 73 DESIGN CHOICE safe] -/
opaque Config.groupMembers : Nat → Nat → List (BitVec 32 × BitVec 64 × BitVec 32 × BitVec 64)

/-- SELF in such a table. Free value. [log 73 DESIGN CHOICE safe] -/
opaque Config.groupSelf : Nat → Nat → BitVec 16

/-- A parameter register that a dynamic field names and that no EVAL of the manifest has set, because the EVAL was skipped (R101, R102: a
register is never read across manifests): REF and register. Free value. [log 29 DEDUCED unsafe] -/
opaque Config.unsetParam : Nat → Nat → BitVec 32

/-- A 16-bit field whose count has passed 0xFFFF, where the manual states no saturation: 0 PLX_XC_STAT.ONCHIP, 1 WAITERS of a slot, 2 COUNT of
a CMD_END record; by the count. Free value. [log 72 DESIGN CHOICE safe] -/
opaque Config.overField : Nat → Nat → BitVec 16

end Sys2Proof
end

