-- ==== Sys2Proof/Machine/Crc.lean ====
section
/-!
DEFINITION. The two check codes and the hash the manual uses: CRC-32C over ring lines (05 R87), CRC-64/XZ over logbook
and fault records (14 R244), SHA-256 over manifests (06 R115).
-/

namespace Sys2Proof.Machine

/-- Byte `i` of a line, byte 0 in bits 7:0 (R5). -/
def lineByte (l : Line) (i : Nat) : Nat := l.toNat / 256 ^ i % 256

/-- Bytes `lo` up to `hi` of a line. -/
def lineBytes (l : Line) (lo hi : Nat) : List Nat := (List.range (hi - lo)).map fun i => lineByte l (lo + i)

/-- 64-bit word `i` of a line. -/
def lineWord (l : Line) (i : Nat) : W64 := BitVec.ofNat 64 (l.toNat / 2 ^ (64 * i))

/-- One bit step of a reflected CRC with polynomial `poly`. -/
def crcBit (poly c : Nat) : Nat := if c % 2 = 1 then (c / 2) ^^^ poly else c / 2

/-- One byte of a reflected CRC. -/
def crcByte (poly c b : Nat) : Nat := (List.range 8).foldl (fun c _ => crcBit poly c) (c ^^^ b)

/-- CRC-32C: reflected polynomial 0x82F63B78, initial and final value all ones. -/
def crc32c (bs : List Nat) : Nat := (bs.foldl (crcByte 0x82F63B78) 0xFFFFFFFF) ^^^ 0xFFFFFFFF

/-- CRC-64/XZ: reflected polynomial 0xC96C5795D7870F42, initial and final value all ones (R244). -/
def crc64 (bs : List Nat) : Nat := (bs.foldl (crcByte 0xC96C5795D7870F42) 0xFFFFFFFFFFFFFFFF) ^^^ 0xFFFFFFFFFFFFFFFF

/-- A 32-bit word rotated right. -/
def rotr32 (x n : Nat) : Nat := (x / 2 ^ n) + (x % 2 ^ n) * 2 ^ (32 - n)

/-- Is `n` below 361 a prime: none of the primes below its root divides it. -/
def smallPrime (n : Nat) : Bool := 2 ≤ n && [2, 3, 5, 7, 11, 13, 17].all fun q => n = q || n % q ≠ 0

/-- The greatest `r` of `bits` bits with `r ^ k ≤ n`, bit by bit from the top. -/
def rootDown (k n : Nat) : Nat → Nat → Nat
  | 0, r => r
  | b + 1, r => rootDown k n b (if (r + 2 ^ b) ^ k ≤ n then r + 2 ^ b else r)

/-- The first 32 bits of the fraction of the `k`-th root of `p`. -/
def rootFrac (k p : Nat) : Nat := rootDown k (p * 2 ^ (32 * k)) 37 0 % 2 ^ 32

/-- The 64 round constants: fractions of the cube roots of the first 64 primes (FIPS 180-4). -/
def shaK : List Nat := ((List.range 312).filter smallPrime).map (rootFrac 3)

/-- The initial hash value: fractions of the square roots of the first 8 primes (FIPS 180-4). -/
def shaH0 : List Nat := ((List.range 20).filter smallPrime).map (rootFrac 2)

/-- The message schedule: the 16 words of a block, last word first, extended to 64. -/
def shaSched (block : List Nat) : List Nat :=
  ((List.range 48).foldl (fun (w : List Nat) _ =>
    let g := fun i => w.getD i 0
    let s0 := let x := g 14; (rotr32 x 7) ^^^ (rotr32 x 18) ^^^ (x / 8)
    let s1 := let x := g 1; (rotr32 x 17) ^^^ (rotr32 x 19) ^^^ (x / 1024)
    ((g 15 + s0 + g 6 + s1) % 2 ^ 32) :: w) block.reverse).reverse

/-- One round on (a, …, h) with K[t] + W[t]. -/
def shaRound (v : List Nat) (kw : Nat) : List Nat :=
  match v with
  | [a, b, c, d, e, f, g, h] =>
    let s1 := (rotr32 e 6) ^^^ (rotr32 e 11) ^^^ (rotr32 e 25)
    let ch := (e &&& f) ^^^ ((0xFFFFFFFF ^^^ e) &&& g)
    let t1 := h + s1 + ch + kw
    let s0 := (rotr32 a 2) ^^^ (rotr32 a 13) ^^^ (rotr32 a 22)
    let maj := (a &&& b) ^^^ (a &&& c) ^^^ (b &&& c)
    [(t1 + s0 + maj) % 2 ^ 32, a, b, c, (d + t1) % 2 ^ 32, e, f, g]
  | _ => v

/-- One block of 16 big-endian words. -/
def shaBlock (h : List Nat) (block : List Nat) : List Nat :=
  let v := (shaK.zip (shaSched block)).foldl (fun v p => shaRound v (p.1 + p.2)) h
  (h.zip v).map fun p => (p.1 + p.2) % 2 ^ 32

/-- A block's bytes as big-endian words. -/
def beWords : List Nat → List Nat
  | a :: b :: c :: d :: r => (a * 2 ^ 24 + b * 2 ^ 16 + c * 2 ^ 8 + d) :: beWords r
  | _ => []

/-- A padded message cut into blocks of 64 bytes. -/
def shaBlocks : Nat → List Nat → List (List Nat)
  | 0, _ => []
  | n + 1, bs => beWords (bs.take 64) :: shaBlocks n (bs.drop 64)

/-- The padding of a message of `n` bytes: 0x80, zeros, the length in bits. -/
def shaPad (n : Nat) : List Nat :=
  0x80 :: (List.replicate ((119 - n % 64) % 64) 0 ++ (List.range 8).map fun i => 8 * n / 256 ^ (7 - i) % 256)

/-- SHA-256 (FIPS 180-4) of a message of bytes, as the number whose big-endian bytes are the digest. -/
def sha256 (bs : List Nat) : Nat :=
  let m := bs ++ shaPad bs.length
  ((shaBlocks (m.length / 64) m).foldl shaBlock shaH0).foldl (fun a w => a * 2 ^ 32 + w) 0

end Sys2Proof.Machine
end

