-- ==== Sys2Proof/Machine/Records.lean ====
section
/-!
DEFINITION. The records the block keeps: contexts, berths, bollard slots, wait entries, commands and manifests, fault
records, logbook records, descriptors, trace records. Field names are the manual's. A default is the value of a slot
that no operation has touched (04 R56, R330: every slot FREE with generation 1).
-/

namespace Sys2Proof.Machine

/-- A sparse table by key: keys strictly rising, no entry equal to what an absent key reads as. -/
abbrev Tbl (α : Type) := List (Nat × α)

/-- State of a context slot (R59). -/
inductive CtxSt where
  | free | live | dying | retired
  deriving DecidableEq, Repr

/-- State of a berth slot (R59). -/
inductive BerthSt where
  | free | live | halted | draining | retired
  deriving DecidableEq, Repr

/-- State of a bollard slot (R59, R168). -/
inductive BolSt where
  | free | live | abandoned | retired
  deriving DecidableEq, Repr

/-- Secrecy class of a context (04, Secrecy classes). -/
inductive Secrecy where
  | open | confidential | sealed
  deriving DecidableEq, Repr

/-- Kind of a bollard (R168). -/
inductive BolKind where
  | fence | counter | barrier | flag
  deriving DecidableEq, Repr

/-- The context record, 512 bytes (04, Records). -/
structure CtxRec where
  state : CtxSt := .free
  gen : Nat := 1
  secrecy : Secrecy := .open
  pid : Nat := 0
  prioFloor : Nat := 0
  strictFence : Bool := false
  pin : Bool := false
  asid : Nat := 0
  keyid : Nat := 0
  bollardLimit : Nat := 0
  berthLimit : Nat := 0
  blockLimit : Nat := 0
  bollardCount : Nat := 0
  berthCount : Nat := 0
  blocksPeak : Nat := 0
  blocksHeld : Nat := 0
  harbourBytes : Nat := 0
  retireTime : Nat := 0
  cmdsOk : Nat := 0
  cmdsFailed : Nat := 0
  tiles : Nat := 0
  stationTime : Nat := 0
  manifestBytes : Nat := 0
  doorbells : Nat := 0
  drops : Nat := 0
  mooringsHeld : Nat := 0
  /-- The SAVE area: numbers of the save slots the context holds (R210); reads as zero through a window. -/
  save : List Nat := []
  deriving DecidableEq, Repr

/-- The berth record, 128 bytes (04, Records), with the SCHED area: FOPEN, RUNG (R80) and P0 to P3 (R101). -/
structure BerthRec where
  state : BerthSt := .free
  gen : Nat := 1
  ctxIdx : Nat := 0
  ctxGen : Nat := 0
  prio : Nat := 0
  pin : Bool := false
  ringBase : Nat := 0
  ringLog2 : Nat := 0
  cons : Nat := 0
  prod : Nat := 0
  done : Nat := 0
  acc : Nat := 0
  cplBase : Nat := 0
  cplLog2 : Nat := 0
  cplProd : Nat := 0
  progress : Nat := 0
  retireTime : Nat := 0
  fopen : Bool := false
  rung : Bool := false
  params : List Nat := [0, 0, 0, 0]
  deriving DecidableEq, Repr

/-- The bollard slot, 64 bytes (R168). WAITERS is the number of wait entries on the slot and is not stored twice. -/
structure BolRec where
  state : BolSt := .free
  gen : Nat := 1
  kind : BolKind := .fence
  ctxIdx : Nat := 0
  ctxGen : Nat := 0
  hostSig : Bool := false
  watchIrq : Bool := false
  watchArm : Bool := false
  value : W64 := 0
  param : W64 := 0
  watchValue : W64 := 0
  watchVa : Nat := 0
  cap : W64 := 0
  rejects : Nat := 0
  lastUpdate : Nat := 0
  /-- Tide counter when the slot retired; the slot layout gives it no place, R58 needs it. -/
  retireTime : Nat := 0
  deriving DecidableEq, Repr

/-- A wait or signal entry of a SYNC line (R104, R105). `code` is FLAGS[3:0]. -/
structure SyncEnt where
  node : Nat
  handle : Nat
  value : W64
  cap : W64
  code : Nat
  cont : Bool
  deriving DecidableEq, Repr

/-- An OPERAND line (R107). -/
structure Opnd where
  base : Nat
  send : Nat
  dir : Bool
  elem : Nat
  hint : Nat
  strides : List Int
  moorKey : W64
  deriving DecidableEq, Repr

/-- The fields of a LAUNCH_TILES (R107): head words 2 to 6, LOOP line, OPERAND lines. -/
structure LaunchOp where
  kernelVa : Nat
  skind : Nat
  station : Nat
  nloop : Nat
  splitLevel : Nat
  named : Bool
  tileNs : Nat
  karg0 : W64
  karg1 : W64
  trips : List Nat
  idxVa : Nat
  idxOpnd : Nat
  idxScale : Nat
  idxRow : Nat
  opnds : List Opnd
  deriving DecidableEq, Repr

/-- The opcode of a command with its own fields (R106, R107, R109). -/
inductive CmdOp where
  | launch (l : LaunchOp)
  | copy (src dst len dstHint srcHint : Nat)
  | call (routine : Nat) (args : List W64)
  | alloc (pool : Nat) (nowait : Bool) (count outVa slotVa : Nat)
  | free (pool count inVa : Nat)
  | eval (progVa srcVa dstVa nInstr pset : Nat)
  | barrier
  | signalHost (va : Nat) (value : W64) (irq : Bool)
  | moor (key : W64) (backing size : Nat)
  | unmoor (key : W64)
  | nop
  | endOp
  deriving DecidableEq, Repr

/-- The part of an accepted command that its manifest fixes (R98, R99, R104). -/
structure CmdSpec where
  op : CmdOp
  lineNo : Nat
  replay : Bool
  concurrent : Bool
  brCond : Nat
  brTarget : Nat
  operatorId : Nat
  layerId : Nat
  tag : Nat
  waits : List SyncEnt
  sigs : List SyncEnt
  deriving DecidableEq, Repr

/-- Where a command stands (06, Order of issue; 12 R210; 13 R233, R239). -/
inductive Phase where
  /-- accepted, not issued -/
  | waiting
  /-- granted and held by the MMG until its moorings are RESIDENT (R233) -/
  | moorHeld
  /-- issued -/
  | issued
  /-- taken back by the HMS, its drains not all reported (R210 steps 1 to 4) -/
  | preempting
  /-- waits at the head of its berth (R210 step 5) -/
  | preempted
  /-- interrupted by a sequencer or quay failure, its drain not ended (R254) -/
  | interrupted
  /-- read a poisoned mooring; drains, then waits for the repair or completes (R237, R239) -/
  | affected
  /-- its status is fixed; signals are being applied or the record awaits durability -/
  | closing
  /-- its COMPLETE record is written -/
  | complete
  deriving DecidableEq, Repr

/-- A slice of a command's tiles (R138): next to form, end, and tile numbers to form first after resumption (R211). -/
structure Slice where
  seq : Nat
  next : Nat
  stop : Nat
  redo : List Nat := []
  /-- tiles left in the current run and its quay (R139) -/
  runLeft : Nat := 0
  runQuay : Nat := 0
  /-- SDEPTH of that quay in tiles, as it was when the run was assigned (R153) -/
  runDepth : Nat := 2
  deriving DecidableEq, Repr

/-- What fixed a FAULTED status: the fields of the fault record that the fault itself gives (R296, R298). -/
structure FaultInfo where
  cause : Nat
  unit : Nat
  addr : Nat := 0
  tile : Nat := 0
  piece : Nat := 0
  argA : Nat := 0
  argB : Nat := 0
  deriving DecidableEq, Repr

/-- A logbook record (R245 to R247). REF and LINE stand in the unit. -/
inductive LogRec where
  | accept (berth ctx headIdx lineCount : Nat) (manId : W64)
  /-- second unit of the ACCEPT record -/
  | acceptEnd (xcAddr epoch catVer time : Nat)
  | complete (status flags detail cplSeq time : Nat)
  | begin_ (time : Nat)
  | evalOut (p : List Nat)
  | bollard (handle entry : Nat) (value : W64)
  | pool (pool : Nat) (isFree : Bool) (count fresh depth : Nat)
  | index (ix : List Nat)
  | moor (ctx index : Nat) (created : Bool) (state backing : Nat)
  | ckpt (tail time : Nat)
  | state (table newState handle time : Nat)
  deriving DecidableEq, Repr

/-- An accepted command. -/
structure Cmd where
  key : CmdId
  berth : Nat
  ctx : Nat
  headIdx : Nat
  ref : Nat
  spec : CmdSpec
  phase : Phase := .waiting
  /-- waits met, in entry order (R172) -/
  met : Nat := 0
  /-- takes and arrivals applied, by entry (R174) -/
  applied : List Nat := []
  /-- wait `met` is registered and unmet -/
  regd : Bool := false
  /-- when the first unmet wait was registered (R184) -/
  waitSince : Nat := 0
  /-- when the entry became unmet (R194) -/
  entrySince : Nat := 0
  /-- the wake wire has been taken by the HMS (R184) -/
  woken : Bool := true
  /-- when the command became ready (R209) -/
  readySince : Nat := 0
  /-- sequencer of its spin grant (R184) -/
  spin : Option Nat := none
  /-- end of its spin window -/
  spinEnd : Nat := 0
  status : Option Nat := none
  detail : Nat := 0
  skipped : Bool := false
  replayed : Bool := false
  branched : Bool := false
  fixTime : Nat := 0
  /-- next signal entry to apply -/
  sigNext : Nat := 0
  /-- outcome of each signal applied or refused so far: entry (0 or 1), status it fixes, fault cause or 0 (R176, R178) -/
  sigRes : List (Nat × Nat × Nat) := []
  /-- signals that passed the checks at the fixing step of a non-replayable command (R251) -/
  sigOk : List Nat := []
  /-- signals to other nodes handed to the FSA -/
  sent : List Nat := []
  /-- records of the command's completion group, before its COMPLETE record (R245) -/
  pre : List LogRec := []
  beginLsn : Option Nat := none
  completeLsn : Option Nat := none
  durable : Bool := false
  /-- the ring record has been written (R112) -/
  ringDone : Bool := false
  grant : List Nat := []
  mask : List Nat := []
  level : Nat := 0
  tcapUs : Nat := 0
  trips : List Nat := []
  pieces : Nat := 1
  /-- tiles of the command (R133, R143) -/
  tileCount : Nat := 0
  chunkLog2 : Nat := 20
  slices : List Slice := []
  /-- moorings named, as the MMG found them at the grant step (R233) -/
  named : List Nat := []
  /-- those that it answered as RESIDENT, with their arena addresses: each counts the command in USES (R233) -/
  moors : List (Nat × Nat) := []
  /-- a key that the context did not hold when the command issued: the index of its mooring, 0xFFFF_FFFF for none (R232) -/
  unheld : Option Nat := none
  /-- moorings in whose granules it read poison (R237) -/
  hit : List Nat := []
  /-- one of them, or one it is held for, is gone: it completes POISONED (R236, R239) -/
  lost : Bool := false
  /-- P0 to P3 after an EVAL, as its EVAL_OUT record holds them (R101) -/
  outs : List Nat := []
  issueNo : Nat := 0
  issueTime : Nat := 0
  launched : Bool := false
  saveSlot : Option Nat := none
  /-- tile numbers listed in the save slot and not yet transferred (R211) -/
  listed : List Nat := []
  fault : Option FaultInfo := none
  faultSeq : Nat := 0
  /-- how far the unit that carries it out has come: ring steps of a collective, the stages of a SIGNAL_HOST or of an ALLOC -/
  step : Nat := 0
  group : Option GroupTable := none
  deriving DecidableEq, Repr

/-- Stage of a manifest past its header check (R118, R248, R266). -/
inductive ManSt where
  | staging | looking | translating | translated | requested | logged | accepted
  deriving DecidableEq, Repr

/-- A manifest from the check of its header line to its release (R82, R266). -/
structure Manifest where
  berth : Nat
  berthIdx : Nat
  ctx : Nat
  headIdx : Nat
  lineCount : Nat
  id : W64
  /-- its line of the manifest table (R266) -/
  slot : Nat := 0
  /-- staged lines, header first, bytes 60 to 63 cleared (R87) -/
  lines : List Line := []
  hash : Nat := 0
  st : ManSt := .staging
  /-- number of the translation entry that serves it -/
  entry : Option Nat := none
  /-- its entry was inserted for it: its acceptance waits for the acknowledgement of the entry's write (R248) -/
  fresh : Bool := false
  lsn : Nat := 0
  groupEnd : Nat := 0
  deriving DecidableEq, Repr

/-- One engine entry of a fault record (R296). -/
structure EngEnt where
  fault : Bool
  quay : Nat
  station : Nat
  tiles : Nat
  info : W64
  deriving DecidableEq, Repr

/-- A fault record (R296). -/
structure FaultRec where
  seq : Nat
  cause : Nat
  unit : Nat
  kind : Nat
  slot : Bool := false
  secrecy : Secrecy := .open
  context : Nat
  berth : Nat
  manifestId : W64 := 0
  headIdx : Nat := 0
  line : Nat := 0
  opcode : Nat := 0
  operatorId : Nat := 0
  layerId : Nat := 0
  tag : Nat := 0
  ref : Nat := 0
  following : Nat := 0
  addr : Nat := 0
  time : Nat := 0
  tile : Nat := 0
  piece : Nat := 0
  argA : Nat := 0
  argB : Nat := 0
  engines : List EngEnt := []
  /-- not a record of its own: the fault of a command of a berth whose slot is PENDING, counted there (R300), whose completion
  waits for its drain -/
  counted : Bool := false
  deriving DecidableEq, Repr

/-- One unit of the journal (R242, R245): its LSN, REF and LINE, the record, and whether it ends its group. -/
structure LogUnit where
  lsn : Nat
  ref : Nat
  line : Nat
  berth : Nat
  body : LogRec
  /-- its four words as written (R244 to R247) -/
  words : List W64 := []
  last : Bool
  deriving DecidableEq, Repr

/-- A tile descriptor as it travels to a quay (R141 to R144): its words and, for a pair, those of the OPERANDS
descriptor; the station is filled in by the quay unless the command names one (R140). -/
structure Desc where
  cmd : CmdId
  ctx : Nat
  berth : Nat
  /-- DKIND of word 0: 1 TILE, 3 DMA, 4 COLLECTIVE -/
  dkind : Nat
  skind : Nat
  named : Option Nat
  tile : Nat
  piece : Nat
  pid : Nat
  tag : Nat
  replayed : Bool
  /-- address of the command for trace (R361) -/
  addr : Nat
  quay : Nat
  /-- sequencer that formed it, and SDEPTH of its run -/
  seq : Nat
  depth : Nat
  words : List W64
  ext : Option (List W64)
  deriving DecidableEq, Repr

/-- A tile launched and not retired (R146). -/
structure OutTile where
  desc : Desc
  station : Nat
  launched : Nat
  deriving DecidableEq, Repr

/-- A trace record, 32 bytes (21, The shared trace SRAM). -/
structure TraceRec where
  rtype : Nat
  secrecy : Nat
  unaligned : Bool
  replayed : Bool
  perStation : Bool
  lap : Nat
  quay : Nat
  station : Nat
  count : Nat
  time : Nat
  tags : W64
  addr : W64
  deriving DecidableEq, Repr

/-- What leaves on the host port (02, Host port). -/
inductive HostOut where
  | readData (rid : BitVec 16) (tag : BitVec 10) (data : W64)
  | unsupported (rid : BitVec 16) (tag : BitVec 10)
  | msix (vec : Nat)
  deriving DecidableEq, Repr

/-- A request on a memory-master port (02 R30; 22 R374, R375). The harbour port carries PID 0 and no tag.
[log 19 DESIGN CHOICE safe] -/
inductive MemReq where
  | ringRead (asid keyid pid hint addr : Nat)
  | progRead (asid keyid pid addr : Nat)
  | levRead (asid keyid pid hint addr n : Nat)
  | levWrite (asid keyid pid hint addr : Nat) (v : W32)
  | cplWrite (asid keyid pid addr : Nat) (w : List W64)
  | hostWrite (asid keyid pid addr : Nat) (v : W64)
  | watchWrite (asid keyid pid addr : Nat) (v : W64)
  | moorRead (asid keyid pid addr : Nat)
  | moorWrite (asid keyid pid addr : Nat) (line : Line)
  | indexRead (asid keyid pid addr : Nat)
  | harbourRead (addr : Nat)
  /-- words from `addr` on; none where the manual gives the bytes no form -/
  | harbourWrite (addr : Nat) (w : List W64)
  | harbourAtomic (addr : Nat) (op : AtmOp)
  /-- the reads and writes that copy a page or a mirror (R260, R261) -/
  | harbourCopy (src dst bytes : Nat)
  deriving DecidableEq, Repr

/-- A request of an engine port: the descriptor transferred, its station and PID (R31, R375). -/
structure Launch where
  quay : Nat
  station : Nat
  pid : Nat
  words : List W64
  ext : Bool
  deriving DecidableEq, Repr

end Sys2Proof.Machine
end

