-- ==== Sys2Proof/Machine/Bytes.lean ====
section
/-!
DEFINITION. Words and bytes of what the block writes: fields in a word, the CRC-64 over words, and the logbook records as they stand
in the journal (14 R244 to R247).
-/

namespace Sys2Proof.Machine

/-- A word from its fields: (lowest bit, value). -/
def mkW (fs : List (Nat × Nat)) : W64 := BitVec.ofNat 64 (fs.foldl (fun n f => n + f.2 * 2 ^ f.1) 0)

def bit01 (b : Bool) : Nat := if b then 1 else 0

/-- Bytes of words, low byte first. -/
def wordBytes (ws : List W64) : List Nat := ws.flatMap fun w => (List.range 8).map fun i => w.toNat / 256 ^ i % 256

/-- CRC-64 over whole words (R244). -/
def crcWords (ws : List W64) : W64 := BitVec.ofNat 64 (crc64 (wordBytes ws))

/-- Words of a line. -/
def lineWords (l : Line) : List W64 := (List.range 8).map (lineWord l)

/-! ### Logbook records (R244 to R247) -/

/-- RKIND (R245). -/
def LogRec.kind : LogRec → Nat
  | .accept .. | .acceptEnd .. => 0x01 | .complete .. => 0x02 | .begin_ _ => 0x03 | .evalOut _ => 0x04 | .bollard .. => 0x05
  | .pool .. => 0x06 | .index _ => 0x07 | .moor .. => 0x08 | .ckpt .. => 0x09 | .state .. => 0x0A

/-- The words of a record's unit between word 0 and the CRC; those of the first unit of an ACCEPT record reach its end (R246, R247). -/
def LogRec.fields : LogRec → List W64
  | .accept berth ctx head n man => [mkW [(32, n), (0, berth)], mkW [(32, head), (0, ctx)], man]
  | .acceptEnd xc epoch cat time => [mkW [(0, xc)], mkW [(32, epoch), (16, cat)], mkW [(0, time)]]
  | .complete st flags detail seq time => [mkW [(56, st), (48, flags), (32, detail % 2 ^ 16), (0, seq)], mkW [(0, time)]]
  | .begin_ time => [0, mkW [(0, time)]]
  | .evalOut p => [mkW [(32, p.getD 1 0), (0, p.getD 0 0)], mkW [(32, p.getD 3 0), (0, p.getD 2 0)]]
  | .bollard h e v => [mkW [(32, h), (24, min e 0xFF)], v]
  | .pool p isFree n fresh depth => [mkW [(52, p), (51, bit01 isFree), (0, n)], mkW [(32, fresh), (0, depth)]]
  | .index ix =>
    let at_ := fun i => ix.getD i 0xFFFFFFFF
    [mkW [(32, at_ 1), (0, at_ 0)], mkW [(32, at_ 3), (0, at_ 2)]]
  | .moor c m created st backing => [mkW [(32, c), (16, m), (8, bit01 created), (0, st)], mkW [(0, backing)]]
  | .ckpt tail time => [mkW [(0, tail)], mkW [(0, time)]]
  | .state table st h time => [mkW [(60, table), (56, st), (0, h)], mkW [(0, time)]]

/-- The CRC of a record: over the LSN of its first unit and its words (R244). -/
def recCrc (lsn : Nat) (ws : List W64) : W64 := crcWords (BitVec.ofNat 64 lsn :: ws)

/-- The four words of the unit with an LSN; `prev` are those of the unit before it (R245 to R247). -/
def unitWords (prev : List W64) (lsn ref line : Nat) (body : LogRec) : List W64 :=
  let head := mkW [(56, body.kind), (40, line % 2 ^ 16), (0, ref % 2 ^ 40)]
  match body with
  | .accept .. => head :: body.fields
  | .acceptEnd .. => body.fields ++ [recCrc (lsn - 1) (prev ++ body.fields)]
  | _ => let ws := head :: body.fields; ws ++ [recCrc lsn ws]

/-- The four words of an entry of the identity table (16 R289). -/
def identWords (src ref line entry lsn : Nat) : List W64 :=
  let ws := [mkW [(32, src), (16, line), (0, entry)], mkW [(0, ref)], mkW [(0, lsn)]]
  ws ++ [crcWords ws]

/-- Does a unit end a record, and does the record pass its CRC at its LSN (R244)? -/
def LogUnit.passes (prev : List W64) (u : LogUnit) : Bool :=
  match u.body with
  | .accept .. => true
  | .acceptEnd .. => u.words.getLast? = some (recCrc (u.lsn - 1) (prev ++ u.words.take 3))
  | _ => u.words.getLast? = some (recCrc u.lsn (u.words.take 3))

end Sys2Proof.Machine
end

