-- ==== Sys2Proof/Machine/Regs.lean ====
section
/-!
DEFINITION. The register space (03 R38 to R48) as the manual's field tables: for each kind of page, one row per field
that holds a value of its own, with its bits, access type, reset value and the values a write may place in it (R6).
Fields that only report something the state holds elsewhere have no row here; Machine/RegRead.lean computes them.
-/

namespace Sys2Proof.Machine

/-- The kinds of page of the page index map (R38). -/
inductive PageKind where
  | scu | hpu | btc | mfu | hms | blu | lev | lbu | mmg | fsa | dtc
  | pilot | tsq | quay | window | reserved
  deriving DecidableEq, Repr

/-- The page index map (R38). -/
def pageKind (p : Nat) : PageKind :=
  if p = 0 then .scu else if p = 1 then .hpu else if p = 2 then .btc else if p = 3 then .mfu
  else if p = 4 then .hms else if p = 5 then .blu else if p = 6 then .lev else if p = 7 then .lbu
  else if p = 8 then .mmg else if p = 9 then .fsa else if p = 10 then .dtc
  else if 0x10 ≤ p ∧ p ≤ 0x17 then .pilot else if 0x20 ≤ p ∧ p ≤ 0x2F then .tsq
  else if 0x40 ≤ p ∧ p ≤ 0x77 then .quay else if 0x80 ≤ p ∧ p ≤ 0xFF then .window else .reserved

/-- Number within a replicated page; 0 on single pages (PAGE_ID.INSTANCE). -/
def pageInst (p : Nat) : Nat :=
  match pageKind p with
  | .pilot => p - 0x10 | .tsq => p - 0x20 | .quay => p - 0x40 | .window => p - 0x80 | _ => 0

/-- Unit number of the page's island (R10). -/
def pageUnit (p : Nat) : Nat :=
  match pageKind p with
  | .hpu => 1 | .btc => 2 | .window => 2 | .mfu => 3 | .pilot => 4 | .hms => 5 | .blu => 6 | .lev => 7
  | .tsq => 8 | .quay => 9 | .lbu => 10 | .mmg => 11 | .fsa => 12 | .scu => 13 | .dtc => 14 | .reserved => 0

/-- PAGE_CAP.TOP of each page, stated in its chapter. -/
def pageTop (p : Nat) : Nat :=
  match pageKind p with
  | .scu => 0x500 | .hpu => 0x090 | .btc => 0x0D8 | .mfu => 0x0A0 | .hms => 0x180 | .blu => 0x0D0 | .lev => 0x0C0
  | .lbu => 0x0C0 | .mmg => 0x200 | .fsa => 0x110 | .dtc => 0x1F8
  | .pilot => if p = 0x10 then 0x0A8 else 0x090
  | .tsq => 0x098 | .quay => 0x0B0 | .window => 0x300 | .reserved => 0

/-- PAGE_CAP.IRQ_N of each page, stated in its chapter. -/
def pageIrqN (p : Nat) : Nat :=
  match pageKind p with
  | .scu => 8 | .hpu => 1 | .btc => 2 | .mfu => 2 | .hms => 5 | .blu => 2 | .lev => 1 | .lbu => 4 | .mmg => 3
  | .fsa => 6 | .dtc => 8 | .pilot => if p = 0x10 then 1 else 0
  | .tsq => 2 | .quay => 2 | .window => 0 | .reserved => 0

/-- Access types of R41. -/
inductive Acc where
  | ro | rw | w1c | w1s | rc | wo
  deriving DecidableEq, Repr

/-- Values a write may place in a settings field (R6); anything else leaves the field as it is. -/
inductive Legal where
  | any
  | rng (lo hi : Nat)
  | vals (l : List Nat)
  | mult (m : Nat)
  deriving DecidableEq, Repr

/-- Does R6 let a write place `v` in a field? [log 10 DEDUCED unsafe] -/
def Legal.ok : Legal → Nat → Bool
  | .any, _ => true
  | .rng lo hi, v => lo ≤ v ∧ v ≤ hi
  | .vals l, v => l.contains v
  | .mult m, v => v % m = 0

/-- One row of a field table. -/
structure FRow where
  off : Nat
  hi : Nat
  lo : Nat
  acc : Acc
  reset : Nat
  legal : Legal
  deriving DecidableEq, Repr

/-- A named field: its page, offset and bits. -/
structure Fld where
  page : Nat
  off : Nat
  hi : Nat
  lo : Nat
  deriving DecidableEq, Repr

/-- Width of a field's values: one above the largest. -/
def fldSize (hi lo : Nat) : Nat := 2 ^ (hi + 1 - lo)

/-- The value of bits hi:lo of a word. -/
def getBits (w : W64) (hi lo : Nat) : Nat := (w.toNat / 2 ^ lo) % fldSize hi lo

/-- The word with bits hi:lo replaced by `v` (taken modulo the field's width). -/
def setBits (w : W64) (hi lo v : Nat) : W64 :=
  BitVec.ofNat 64 (w.toNat - getBits w hi lo * 2 ^ lo + (v % fldSize hi lo) * 2 ^ lo)

def ro (off hi lo reset : Nat) : FRow := ⟨off, hi, lo, .ro, reset, .any⟩
def rc (off hi lo reset : Nat) : FRow := ⟨off, hi, lo, .rc, reset, .any⟩
def w1c (off b : Nat) : FRow := ⟨off, b, b, .w1c, 0, .any⟩
def rw (off hi lo reset : Nat) (l : Legal := .any) : FRow := ⟨off, hi, lo, .rw, reset, l⟩

/-- The common header (R46). MASK resets to all ones; PAGE_CTRL.QREQ is reserved on the SCU and HPU pages. -/
def headerRows (k : PageKind) : List FRow :=
  (if k = .scu ∨ k = .hpu then [] else [rw 0x018 0 0 0]) ++
  [ro 0x020 1 1 0, ⟨0x028, 7, 0, .w1c, 0, .any⟩, rw 0x030 7 0 0xFF, w1c 0x038 63, w1c 0x038 62, ro 0x038 47 32 0,
   ro 0x038 15 8 0, ro 0x038 7 0 0, ro 0x040 63 0 0, rw 0x048 63 0 0]

/-- `n` whole registers from `off`, of one access type. -/
def wordRows (a : Acc) (off n : Nat) : List FRow := (List.range n).map fun i => ⟨off + 8 * i, 63, 0, a, 0, .any⟩

/-- SCU page: interrupts (R320). -/
def scuIrqRows : List FRow :=
  [rw 0x080 63 0 0, rw 0x088 63 0 0, rw 0x090 63 0 0xFFFFFFFFFFFFFFFF, rw 0x098 63 0 0xFFFFFFFFFFFFFFFF,
   ro 0x0B0 63 32 0, ro 0x0B0 6 0 0] ++
  (List.range 16).flatMap fun g => [rw (0x100 + 8 * g) 31 16 0, rw (0x100 + 8 * g) 2 0 0 (.vals [0, 4, 5, 6, 7])]

/-- SCU page: reset, loading, power (R341). -/
def scuRstRows : List FRow :=
  [ro 0x180 63 32 0, ro 0x180 24 24 0, ro 0x180 23 16 0, ro 0x180 7 0 0x01,
   rw 0x190 15 0 0xC8 (.rng 1 65535), rw 0x198 31 16 0x0A (.rng 1 65535), rw 0x198 0 0 0,
   ro 0x1A0 31 24 0, ro 0x1A0 17 16 0, ro 0x1A0 15 8 0, ro 0x1A0 2 0 0,
   rw 0x1B0 47 32 0x0A (.rng 1 65535), rw 0x1B0 28 26 0, rw 0x1B0 30 30 0, rw 0x1B0 24 18 0x40,
   rw 0x1B0 5 4 0 (.rng 0 1), rw 0x1B0 2 0 0 (.rng 0 3),
   rc 0x1B8 47 32 0, ro 0x1B8 31 16 0, ro 0x1B8 2 0 0,
   ro 0x1C0 63 48 0, ro 0x1C0 39 32 0, ro 0x1C0 31 16 0, ro 0x1C0 15 0 0x5FFE]

/-- SCU page: security and faults (R355, R307). -/
def scuSecRows : List FRow :=
  [ro 0x200 63 48 0, rc 0x210 63 32 0, rc 0x210 15 0 0,
   ro 0x300 31 0 0, rw 0x308 31 0 0, rw 0x310 63 63 0, rw 0x310 21 0 0,
   ro 0x320 63 32 0, ro 0x320 15 8 0, w1c 0x320 1, ro 0x320 0 0 0,
   ro 0x328 63 32 0, ro 0x330 63 63 0, ro 0x330 53 32 0, rw 0x330 21 0 0,
   w1c 0x338 63, w1c 0x338 62, ro 0x338 61 61 0, ro 0x338 47 32 0, ro 0x338 23 16 0, ro 0x338 15 8 0, ro 0x338 7 0 0,
   ro 0x340 63 0 0] ++ wordRows .ro 0x400 32

/-- HPU page (R92). -/
def hpuRows : List FRow := [ro 0x080 63 0 0, rc 0x088 63 32 0, rc 0x088 31 0 0]

/-- BTC page (R72, R93, R277). -/
def btcRows : List FRow :=
  [ro 0x088 63 32 0, ro 0x088 31 0 0, rw 0x098 15 0 0x3E8 (.rng 1 65535), rc 0x0A8 31 0 0,
   rc 0x0B0 63 32 0, rc 0x0B0 31 0 0, rc 0x0C0 63 32 0, rc 0x0C0 31 16 0, rc 0x0C0 15 0 0,
   rc 0x0C8 63 32 0, rc 0x0C8 31 0 0, rc 0x0D0 63 32 0, rc 0x0D0 31 0 0]

/-- MFU page (R94). -/
def mfuRows : List FRow :=
  [rw 0x080 23 16 0x20 (.rng 0 0x40), rw 0x080 8 8 1, rw 0x080 1 0 3, rc 0x088 63 32 0, rc 0x088 31 0 0,
   rc 0x090 63 32 0, rc 0x090 31 0 0]

/-- PLX pages (R131); the cache registers stand on PC0 alone. -/
def plxRows (p : Nat) : List FRow :=
  (if p = 0x10 then [⟨0x090, 8, 8, .w1s, 0, .any⟩, rw 0x090 0 0 0, rc 0x0A0 63 48 0, rc 0x0A0 47 32 0, rc 0x0A0 31 0 0]
   else [])

/-- TSQ pages (R132). -/
def tsqRows : List FRow := [ro 0x080 15 8 0, ro 0x080 1 0 0, rc 0x088 31 0 0, ro 0x090 63 16 0, ro 0x090 15 0 0]

/-- QPT pages (R153). CHUNK_LOG2 is reserved but on the DMA quays Q32 to Q47. -/
def qptRows (q : Nat) : List FRow :=
  [ro 0x080 2 0 0] ++
  (if 32 ≤ q ∧ q < 48 then [rw 0x088 20 16 20 (.rng 12 24)] else []) ++
  [rw 0x088 9 8 1, rw 0x088 7 0 (if q < 32 then 0x40 else 1) (.rng 1 255), rw 0x090 15 0 0x32 (.rng 1 65535),
   ro 0x0A0 63 0 0, ro 0x0A8 63 0 0]

/-- LEV page (R167). -/
def levRows : List FRow :=
  [rw 0x080 11 0 0, rw 0x088 63 32 0, rw 0x088 24 0 0, ro 0x098 63 32 0, ro 0x098 15 8 0, w1c 0x098 1, ro 0x098 0 0 0,
   ro 0x0A0 63 62 0, ro 0x0A0 56 32 0, ro 0x0A0 15 0 0, rc 0x0B8 63 32 0, rc 0x0B8 31 0 0]

/-- BLU page (R189) with the UNIT_CTRL and UNIT_STAT fields of R201. -/
def bluRows : List FRow :=
  [rw 0x018 49 49 1, rw 0x018 48 48 1, rw 0x018 47 32 0xA (.rng 1 65535), ro 0x020 63 48 0,
   rw 0x080 19 0 0x7D0, rw 0x088 31 0 0, rw 0x090 63 0 0, ro 0x0A0 63 32 0, ro 0x0A0 15 8 0, w1c 0x0A0 1, ro 0x0A0 0 0 0,
   ro 0x0A8 63 32 0, ro 0x0A8 31 0 0, rc 0x0B0 63 32 0, rc 0x0B0 31 0 0,
   rc 0x0B8 63 48 0, rc 0x0B8 47 32 0, rc 0x0B8 31 16 0, rc 0x0B8 15 0 0, ro 0x0C8 31 0 0]

/-- HMS page (R224). -/
def hmsRows : List FRow :=
  [rw 0x080 47 32 0x100 (.rng 1 65535), rw 0x080 28 24 16 (.rng 1 16), rw 0x080 20 16 16 (.rng 1 16),
   rw 0x080 12 8 16 (.rng 1 16), rw 0x080 4 0 16 (.rng 1 16), rw 0x088 63 63 0, rw 0x088 55 0 0,
   rw 0x090 24 16 0x100 (.rng 1 256), rw 0x090 15 0 5 (.rng 1 65535), rw 0x098 31 16 0x64 (.rng 1 65535), rw 0x098 0 0 1,
   rc 0x0A0 63 32 0, rc 0x0A0 31 16 0] ++
  ((List.range 16).flatMap fun n => [rw (0x0A8 + 8 * n) 63 56 1, rw (0x0A8 + 8 * n) 55 0 0xFFFFFFFFFFFFFF]) ++
  ((List.range 4).flatMap fun i => [rw (0x128 + 8 * i) 63 48 0x14 (.rng 1 65535), rw (0x128 + 8 * i) 47 32 0x14 (.rng 1 65535),
     rw (0x128 + 8 * i) 31 16 0x14 (.rng 1 65535), rw (0x128 + 8 * i) 15 0 0x14 (.rng 1 65535)]) ++
  [rw 0x148 17 17 1, rw 0x148 16 16 1, rw 0x148 15 0 0x3E8 (.rng 1 65535), ro 0x150 63 44 0, ro 0x150 43 40 0,
   ro 0x150 31 0 0, rw 0x160 31 16 0xFFFF, rw 0x160 15 0 0xFFFF, rw 0x168 40 32 0x10 (.rng 1 256), rw 0x168 23 16 0x14,
   rw 0x168 11 8 1 (.rng 1 15), rw 0x168 7 4 8 (.rng 1 15), rw 0x168 0 0 1, rc 0x170 63 48 0, ro 0x170 47 32 0,
   ro 0x170 17 16 0, ro 0x170 13 12 0, ro 0x170 8 0 0x100, ro 0x178 63 0 0]

/-- LBU page (R262). -/
def lbuRows : List FRow :=
  [ro 0x080 63 32 0x1FFFF80, ro 0x080 11 8 0xF, ro 0x080 7 4 0, ro 0x080 3 0 0, rw 0x098 23 16 0x20 (.rng 1 255),
   rw 0x098 15 0 0x3E8 (.rng 1 65535), ro 0x0A0 63 48 0, ro 0x0A0 47 32 0, ro 0x0A0 5 4 0, ro 0x0A0 1 0 0,
   ro 0x0A8 63 48 0, ro 0x0A8 32 32 0, ro 0x0A8 31 0 0, ro 0x0B0 63 48 0, ro 0x0B0 47 32 0, ro 0x0B0 31 0 0,
   rc 0x0B8 63 32 0, rc 0x0B8 31 0 0]

/-- MMG page (R241). -/
def mmgRows : List FRow :=
  [ro 0x080 56 0 0, ro 0x088 56 0 0, rw 0x098 11 0 0, ro 0x0A8 63 32 0, ro 0x0A8 15 8 0, w1c 0x0A8 1, ro 0x0A8 0 0 0,
   ro 0x0B0 63 52 0, ro 0x0B0 51 32 0, ro 0x0B0 31 0 0, rc 0x0B8 63 48 0, rc 0x0B8 47 32 0, rc 0x0B8 31 16 0,
   rc 0x0B8 15 0 0] ++ wordRows .ro 0x100 32

/-- FSA page (R295). -/
def fsaRows : List FRow :=
  [ro 0x080 63 40 0, ro 0x080 35 35 0, ro 0x080 34 34 0, ro 0x080 33 32 0, ro 0x080 31 0 0, ro 0x090 63 52 0,
   ro 0x090 48 32 0, ro 0x090 31 16 0, ro 0x090 15 8 0, ro 0x090 0 0 0, rw 0x0A0 63 48 0xA (.rng 1 65535),
   rw 0x0A0 47 40 0x10 (.rng 1 255), rw 0x0A0 39 24 0x20 (.rng 1 65535), rw 0x0A0 23 8 0x100 (.rng 1 8192),
   rw 0x0A0 7 0 8 (.rng 1 8), rw 0x0A8 31 0 0, ro 0x0B8 63 32 0, ro 0x0B8 15 8 0, w1c 0x0B8 1, ro 0x0B8 0 0 0,
   ro 0x0C0 63 62 0, ro 0x0C0 61 56 0x3F, ro 0x0C0 55 50 0x3F, ro 0x0C0 47 32 0, ro 0x0C0 15 0 0,
   rw 0x0C8 63 32 0, rw 0x0C8 31 0 0, ro 0x0D8 63 32 0, ro 0x0D8 15 8 0, w1c 0x0D8 1, ro 0x0D8 0 0 0,
   ro 0x0E0 63 32 0, ro 0x0E0 31 0 0, ro 0x0F0 63 63 0, ro 0x0F0 62 62 0, ro 0x0F0 61 61 0, ro 0x0F0 47 32 0,
   rc 0x0F0 15 0 0, rc 0x0F8 63 48 0, rc 0x0F8 47 32 0, rc 0x0F8 31 16 0, rc 0x0F8 15 0 0, rc 0x108 15 0 0]

/-- DTC page (R370). [log 15 DESIGN CHOICE unsafe] -/
def dtcRows : List FRow :=
  [rw 0x080 63 56 0, rw 0x080 55 48 0, rw 0x080 47 40 0, rw 0x080 39 32 0, rw 0x080 0 0 0, w1c 0x090 8, ro 0x090 7 0 0] ++
  ((List.range 4).flatMap fun n => [rw (0x098 + 8 * n) 63 63 0, rw (0x098 + 8 * n) 62 62 0, rw (0x098 + 8 * n) 56 0 0 (.mult 4)]) ++
  [rw 0x0B8 63 61 0, rw 0x0B8 60 60 0, rw 0x0B8 14 0 0, rw 0x0C0 63 0 0, ro 0x0C8 15 8 0, ro 0x0C8 0 0 0,
   rw 0x0D0 15 8 0, rw 0x0D0 3 3 0, rw 0x0D0 2 2 0, ro 0x0D0 1 1 0, rw 0x0D0 0 0 0, rc 0x0D8 63 48 0, rc 0x0D8 47 32 0,
   ro 0x0D8 31 16 0, ro 0x0D8 15 0 0, rw 0x0E0 15 0 0, rw 0x108 63 32 0, rw 0x108 31 16 0, rw 0x108 13 8 0, rw 0x108 1 0 0,
   ro 0x118 63 48 0, ro 0x118 47 40 0, ro 0x118 31 0 0] ++ wordRows .ro 0x120 16 ++
  [rw 0x1A0 31 0 0, ro 0x1B0 63 32 0, ro 0x1B0 15 8 0, w1c 0x1B0 1, ro 0x1B0 0 0 0] ++ wordRows .ro 0x1B8 7 ++ [ro 0x1F8 63 0 0] ++
  [ro 0x1F0 63 0 0]

/-- Window pages (R384, R50): selection, status, staging. -/
def winRows : List FRow :=
  [rw 0x080 63 60 0, rw 0x080 55 32 0, rw 0x080 31 20 0, rw 0x080 0 0 0, ro 0x090 63 32 0, ro 0x090 15 8 0, w1c 0x090 2,
   w1c 0x090 1, ro 0x090 0 0 0] ++ wordRows .rw 0x100 64

/-- All rows of a page. -/
def pageRows (p : Nat) : List FRow :=
  match pageKind p with
  | .reserved => []
  | k => headerRows k ++
    (match k with
     | .scu => scuIrqRows ++ scuRstRows ++ scuSecRows
     | .hpu => hpuRows | .btc => btcRows | .mfu => mfuRows | .hms => hmsRows | .blu => bluRows | .lev => levRows
     | .lbu => lbuRows | .mmg => mmgRows | .fsa => fsaRows | .dtc => dtcRows | .pilot => plxRows p | .tsq => tsqRows
     | .quay => qptRows (p - 0x40) | .window => winRows | .reserved => [])

/-- The rows of one register. -/
def regRows (p off : Nat) : List FRow := (pageRows p).filter fun r => r.off = off

/-- A register's word after reset: the Reset column of its fields. [log 8 DESIGN CHOICE unsafe] -/
def regReset (p off : Nat) : W64 := (regRows p off).foldl (fun w r => setBits w r.hi r.lo r.reset) 0

/-- Key of a register in the register table: its register-space offset (R38). -/
def regKey (p off : Nat) : Nat := p * 0x1000 + off

/-- What a key of the register table reads as when nothing is listed there: the register's word after reset.
[log 8 DESIGN CHOICE unsafe] -/
def regDflt (k : Nat) : W64 := regReset (k / 0x1000) (k % 0x1000)

end Sys2Proof.Machine
end

