-- ==== Sys2Proof/Machine/Fields.lean ====
section
/-!
DEFINITION. The fields of the registers by name: page, offset, highest and lowest bit, as the manual's tables give them.
-/

namespace Sys2Proof.Machine

/-! SCU: interrupts (R320) -/

def fIrqPend (r : Nat) : Fld := ⟨0, 0x080+8*r, 63, 0⟩
def fIrqMask (r : Nat) : Fld := ⟨0, 0x090+8*r, 63, 0⟩
def fIrqLastSeq : Fld := ⟨0, 0x0B0, 63, 32⟩
def fIrqLastSrc : Fld := ⟨0, 0x0B0, 6, 0⟩
def fGrpHoldoff (g : Nat) : Fld := ⟨0, 0x100+8*g, 31, 16⟩
def fGrpRoute (g : Nat) : Fld := ⟨0, 0x100+8*g, 2, 0⟩

/-! SCU: reset, loading, power (R341) -/

def fRstCount : Fld := ⟨0, 0x180, 63, 32⟩
def fRstIdleTimeout : Fld := ⟨0, 0x180, 24, 24⟩
def fRstIsland : Fld := ⟨0, 0x180, 23, 16⟩
def fRstCause : Fld := ⟨0, 0x180, 7, 0⟩
def fIdleTmoUs : Fld := ⟨0, 0x190, 15, 0⟩
def fWdogTmoMs : Fld := ⟨0, 0x198, 31, 16⟩
def fWdogEn : Fld := ⟨0, 0x198, 0, 0⟩
def fLoadAttempts : Fld := ⟨0, 0x1A0, 31, 24⟩
def fLoadLog : Fld := ⟨0, 0x1A0, 17, 16⟩
def fLoadReason : Fld := ⟨0, 0x1A0, 15, 8⟩
def fLoadState : Fld := ⟨0, 0x1A0, 2, 0⟩
def fRetainTmoMs : Fld := ⟨0, 0x1B0, 47, 32⟩
def fDozeEn : Fld := ⟨0, 0x1B0, 31, 16⟩
def fPwrTarget : Fld := ⟨0, 0x1B0, 2, 0⟩
def fPwrAbandoned : Fld := ⟨0, 0x1B8, 47, 32⟩
def fDozing : Fld := ⟨0, 0x1B8, 31, 16⟩
def fPwrState : Fld := ⟨0, 0x1B8, 2, 0⟩
def fPilotResets : Fld := ⟨0, 0x1C0, 63, 48⟩
def fPilotOut : Fld := ⟨0, 0x1C0, 39, 32⟩
def fClkFail : Fld := ⟨0, 0x1C0, 31, 16⟩
def fInReset : Fld := ⟨0, 0x1C0, 15, 0⟩

/-! SCU: security and faults (R355, R307) -/

def fSecChanges : Fld := ⟨0, 0x200, 63, 48⟩
def fSecRefused : Fld := ⟨0, 0x210, 63, 32⟩
def fTokenRejects : Fld := ⟨0, 0x210, 15, 0⟩
def fFqProd : Fld := ⟨0, 0x300, 31, 0⟩
def fFqCons : Fld := ⟨0, 0x308, 31, 0⟩
def fFqSelSrc : Fld := ⟨0, 0x310, 63, 63⟩
def fFqSelIndex : Fld := ⟨0, 0x310, 21, 0⟩
def fFqSeq : Fld := ⟨0, 0x320, 63, 32⟩
def fFqResult : Fld := ⟨0, 0x320, 15, 8⟩
def fFqLost : Fld := ⟨0, 0x320, 1, 1⟩
def fFqBusy : Fld := ⟨0, 0x320, 0, 0⟩
def fFqOverflows : Fld := ⟨0, 0x328, 63, 32⟩
def fFqFound : Fld := ⟨0, 0x330, 63, 63⟩
def fFqNext : Fld := ⟨0, 0x330, 53, 32⟩
def fFqFrom : Fld := ⟨0, 0x330, 21, 0⟩
def fMcValid : Fld := ⟨0, 0x338, 63, 63⟩
def fMcOverrun : Fld := ⟨0, 0x338, 62, 62⟩
def fMcFatal : Fld := ⟨0, 0x338, 61, 61⟩
def fMcCount : Fld := ⟨0, 0x338, 47, 32⟩
def fMcPage : Fld := ⟨0, 0x338, 23, 16⟩
def fMcClass : Fld := ⟨0, 0x338, 15, 8⟩
def fMcCode : Fld := ⟨0, 0x338, 7, 0⟩
def fMcAddr : Fld := ⟨0, 0x340, 63, 0⟩

/-! common header (R46) -/

def fQreq (p : Nat) : Fld := ⟨p, 0x018, 0, 0⟩
def fQuiesced (p : Nat) : Fld := ⟨p, 0x020, 1, 1⟩
def fIrqRaw (p : Nat) : Fld := ⟨p, 0x028, 7, 0⟩
def fPageMask (p : Nat) : Fld := ⟨p, 0x030, 7, 0⟩
def fErrValid (p : Nat) : Fld := ⟨p, 0x038, 63, 63⟩
def fErrOverrun (p : Nat) : Fld := ⟨p, 0x038, 62, 62⟩
def fErrCount (p : Nat) : Fld := ⟨p, 0x038, 47, 32⟩
def fErrClass (p : Nat) : Fld := ⟨p, 0x038, 15, 8⟩
def fErrCode (p : Nat) : Fld := ⟨p, 0x038, 7, 0⟩
def fErrAddr (p : Nat) : Fld := ⟨p, 0x040, 63, 0⟩

/-! Tile quays (R153) -/

def fQptState (q : Nat) : Fld := ⟨0x40+q, 0x080, 2, 0⟩
def fQptChunk (q : Nat) : Fld := ⟨0x40+q, 0x088, 20, 16⟩
def fQptSdepth (q : Nat) : Fld := ⟨0x40+q, 0x088, 9, 8⟩
def fQptRunMax (q : Nat) : Fld := ⟨0x40+q, 0x088, 7, 0⟩
def fQptTmoUs (q : Nat) : Fld := ⟨0x40+q, 0x090, 15, 0⟩
def fQptLaunched (q : Nat) : Fld := ⟨0x40+q, 0x0A0, 63, 0⟩
def fQptProgress (q : Nat) : Fld := ⟨0x40+q, 0x0A8, 63, 0⟩

/-! Sequencers (R132) -/

def fTsqMcCount (s : Nat) : Fld := ⟨0x20+s, 0x080, 15, 8⟩
def fTsqState (s : Nat) : Fld := ⟨0x20+s, 0x080, 1, 0⟩

/-! HMS (R224) -/

def fHmsMinSlice : Fld := ⟨4, 0x080, 47, 32⟩
def fHmsSeqMax (l : Nat) : Fld := ⟨4, 0x080, 8*l+4, 8*l⟩
def fHmsLend : Fld := ⟨4, 0x088, 63, 63⟩
def fHmsRsvQuays : Fld := ⟨4, 0x088, 55, 0⟩
def fHmsRsvLambdaMin : Fld := ⟨4, 0x090, 24, 16⟩
def fHmsLendCapUs : Fld := ⟨4, 0x090, 15, 0⟩
def fHmsAfterUs : Fld := ⟨4, 0x098, 31, 16⟩
def fHmsPreemptEn : Fld := ⟨4, 0x098, 0, 0⟩
def fHmsPreDone : Fld := ⟨4, 0x0A0, 63, 32⟩
def fHmsPreSkipped : Fld := ⟨4, 0x0A0, 31, 16⟩
def fHmsWeight (n : Nat) : Fld := ⟨4, 0x0A8+8*n, 63, 56⟩
def fHmsPartQuays (n : Nat) : Fld := ⟨4, 0x0A8+8*n, 55, 0⟩
def fHmsTcapUs (n : Nat) : Fld := ⟨4, 0x128+8*(n/4), 16*(n%4)+15, 16*(n%4)⟩
def fHmsQuayEn : Fld := ⟨4, 0x148, 17, 17⟩
def fHmsBerthEn : Fld := ⟨4, 0x148, 16, 16⟩
def fHmsStallMs : Fld := ⟨4, 0x148, 15, 0⟩
def fHmsStallSeq : Fld := ⟨4, 0x150, 63, 44⟩
def fHmsStallKind : Fld := ⟨4, 0x150, 43, 40⟩
def fHmsStallHandle : Fld := ⟨4, 0x150, 31, 0⟩
def fHmsIPeak : Fld := ⟨4, 0x160, 31, 16⟩
def fHmsISus : Fld := ⟨4, 0x160, 15, 0⟩
def fHmsLambdaMin : Fld := ⟨4, 0x168, 40, 32⟩
def fHmsHyst : Fld := ⟨4, 0x168, 23, 16⟩
def fHmsStepUp : Fld := ⟨4, 0x168, 11, 8⟩
def fHmsStepDn : Fld := ⟨4, 0x168, 7, 4⟩
def fHmsPaceEn : Fld := ⟨4, 0x168, 0, 0⟩
def fHmsTelemLoss : Fld := ⟨4, 0x170, 63, 48⟩
def fHmsCurrent : Fld := ⟨4, 0x170, 47, 32⟩
def fHmsTherm : Fld := ⟨4, 0x170, 17, 16⟩
def fHmsPaceState : Fld := ⟨4, 0x170, 13, 12⟩
def fHmsLambda : Fld := ⟨4, 0x170, 8, 0⟩
def fHmsBudget : Fld := ⟨4, 0x178, 63, 0⟩

/-! BTC (R72, R93, R277) -/

def fBtcTdSeq : Fld := ⟨2, 0x088, 63, 32⟩
def fBtcTdHandle : Fld := ⟨2, 0x088, 31, 0⟩
def fBtcHoldUs : Fld := ⟨2, 0x098, 15, 0⟩
def fBtcCplLost : Fld := ⟨2, 0x0A8, 31, 0⟩

/-! BLU (R189) -/

def fBluSpinNs : Fld := ⟨5, 0x080, 19, 0⟩
def fBluHcmdSel : Fld := ⟨5, 0x088, 31, 0⟩
def fBluHcmdValue : Fld := ⟨5, 0x090, 63, 0⟩
def fBluHcmdSeq : Fld := ⟨5, 0x0A0, 63, 32⟩
def fBluHcmdResult : Fld := ⟨5, 0x0A0, 15, 8⟩
def fBluHcmdLost : Fld := ⟨5, 0x0A0, 1, 1⟩
def fBluHcmdBusy : Fld := ⟨5, 0x0A0, 0, 0⟩
def fBluWatchSeq : Fld := ⟨5, 0x0A8, 63, 32⟩
def fBluWatchHandle : Fld := ⟨5, 0x0A8, 31, 0⟩
def fBluBackward : Fld := ⟨5, 0x0B0, 63, 32⟩
def fBluSigAbandoned : Fld := ⟨5, 0x0B0, 31, 0⟩
def fBluWatchLost : Fld := ⟨5, 0x0B8, 63, 48⟩
def fBluRejRemote : Fld := ⟨5, 0x0B8, 47, 32⟩
def fBluRejCap : Fld := ⟨5, 0x0B8, 31, 16⟩
def fBluRejStale : Fld := ⟨5, 0x0B8, 15, 0⟩
def fBluOvrCnt : Fld := ⟨5, 0x0C8, 31, 0⟩

/-! LBU (R262) -/

def fLbuCapacity : Fld := ⟨7, 0x080, 63, 32⟩
def fLbuLowWater : Fld := ⟨7, 0x098, 23, 16⟩
def fLbuCkptUs : Fld := ⟨7, 0x098, 15, 0⟩
def fLbuRetired (m : Nat) : Fld := ⟨7, 0x0A0, 47+16*m, 32+16*m⟩
def fLbuMirror (m : Nat) : Fld := ⟨7, 0x0A0, 1+4*m, 4*m⟩
def fLbuRetSeq : Fld := ⟨7, 0x0A8, 63, 48⟩
def fLbuRetMirror : Fld := ⟨7, 0x0A8, 32, 32⟩
def fLbuRetPage : Fld := ⟨7, 0x0A8, 31, 0⟩
def fLbuReplayed : Fld := ⟨7, 0x0B0, 63, 48⟩
def fLbuAborted : Fld := ⟨7, 0x0B0, 47, 32⟩
def fLbuRings : Fld := ⟨7, 0x0B0, 31, 0⟩
def fLbuAccepts : Fld := ⟨7, 0x0B8, 63, 32⟩
def fLbuCompletions : Fld := ⟨7, 0x0B8, 31, 0⟩

/-! MMG (R241) -/

def fMmgArenaVa : Fld := ⟨8, 0x080, 56, 0⟩
def fMmgLoadVa : Fld := ⟨8, 0x088, 56, 0⟩
def fMmgSel : Fld := ⟨8, 0x098, 11, 0⟩
def fMmgSeq : Fld := ⟨8, 0x0A8, 63, 32⟩
def fMmgResult : Fld := ⟨8, 0x0A8, 15, 8⟩
def fMmgLost : Fld := ⟨8, 0x0A8, 1, 1⟩
def fMmgBusy : Fld := ⟨8, 0x0A8, 0, 0⟩
def fMmgPoisonIndex : Fld := ⟨8, 0x0B0, 63, 52⟩
def fMmgPoisonGranule : Fld := ⟨8, 0x0B0, 51, 32⟩
def fMmgPoisonSeq : Fld := ⟨8, 0x0B0, 31, 0⟩
def fMmgRestarts : Fld := ⟨8, 0x0B8, 63, 48⟩
def fMmgEvictions : Fld := ⟨8, 0x0B8, 47, 32⟩
def fMmgMisses : Fld := ⟨8, 0x0B8, 31, 16⟩
def fMmgHits : Fld := ⟨8, 0x0B8, 15, 0⟩


/-! FSA (R295) -/

def fFsaDepth : Fld := ⟨9, 0x080, 63, 40⟩
def fFsaPinned : Fld := ⟨9, 0x080, 35, 35⟩
def fFsaRoot : Fld := ⟨9, 0x080, 34, 34⟩
def fFsaState : Fld := ⟨9, 0x080, 33, 32⟩
def fFsaId : Fld := ⟨9, 0x080, 31, 0⟩
def fFsaEnumSeq : Fld := ⟨9, 0x090, 63, 52⟩
def fFsaNodes : Fld := ⟨9, 0x090, 48, 32⟩
def fFsaCross : Fld := ⟨9, 0x090, 31, 16⟩
def fFsaDups : Fld := ⟨9, 0x090, 15, 8⟩
def fFsaEnumBusy : Fld := ⟨9, 0x090, 0, 0⟩
def fFsaResendUs : Fld := ⟨9, 0x0A0, 63, 48⟩
def fFsaQuarThresh : Fld := ⟨9, 0x0A0, 47, 40⟩
def fFsaRate : Fld := ⟨9, 0x0A0, 39, 24⟩
def fFsaShare : Fld := ⟨9, 0x0A0, 23, 8⟩
def fFsaCredits : Fld := ⟨9, 0x0A0, 7, 0⟩
def fFsaPartnerSel : Fld := ⟨9, 0x0A8, 31, 0⟩
def fFsaPartnerSeq : Fld := ⟨9, 0x0B8, 63, 32⟩
def fFsaPartnerResult : Fld := ⟨9, 0x0B8, 15, 8⟩
def fFsaPartnerLost : Fld := ⟨9, 0x0B8, 1, 1⟩
def fFsaPartnerBusy : Fld := ⟨9, 0x0B8, 0, 0⟩
def fFsaInfoState : Fld := ⟨9, 0x0C0, 63, 62⟩
def fFsaInfoPrimary : Fld := ⟨9, 0x0C0, 61, 56⟩
def fFsaInfoAlternate : Fld := ⟨9, 0x0C0, 55, 50⟩
def fFsaInfoBad : Fld := ⟨9, 0x0C0, 47, 32⟩
def fFsaInfoQueued : Fld := ⟨9, 0x0C0, 15, 0⟩
def fFsaExpNode : Fld := ⟨9, 0x0C8, 63, 32⟩
def fFsaExpHandle : Fld := ⟨9, 0x0C8, 31, 0⟩
def fFsaExpSeq : Fld := ⟨9, 0x0D8, 63, 32⟩
def fFsaExpResult : Fld := ⟨9, 0x0D8, 15, 8⟩
def fFsaExpLost : Fld := ⟨9, 0x0D8, 1, 1⟩
def fFsaExpBusy : Fld := ⟨9, 0x0D8, 0, 0⟩
def fFsaImportNode : Fld := ⟨9, 0x0E0, 63, 32⟩
def fFsaImportHandle : Fld := ⟨9, 0x0E0, 31, 0⟩
def fFsaHeld : Fld := ⟨9, 0x0F0, 62, 62⟩
def fFsaExported : Fld := ⟨9, 0x0F0, 61, 61⟩
def fFsaOffset : Fld := ⟨9, 0x0F0, 47, 32⟩
def fFsaTideLost : Fld := ⟨9, 0x0F0, 15, 0⟩
def fFsaAuthFail : Fld := ⟨9, 0x0F8, 63, 48⟩
def fFsaE2eFail : Fld := ⟨9, 0x0F8, 47, 32⟩
def fFsaRateDrop : Fld := ⟨9, 0x0F8, 31, 16⟩
def fFsaSpoof : Fld := ⟨9, 0x0F8, 15, 0⟩
def fFsaPartnerWaits : Fld := ⟨9, 0x108, 15, 0⟩

/-! BLU header fields of R201 -/

def fBluFabricEn : Fld := ⟨5, 0x018, 49, 49⟩
def fBluCycEn : Fld := ⟨5, 0x018, 48, 48⟩
def fBluConfirmUs : Fld := ⟨5, 0x018, 47, 32⟩
def fBluCycles : Fld := ⟨5, 0x020, 63, 48⟩



/-! DTC (R370) -/

def fDtcHoldIssue : Fld := ⟨10, 0x080, 0, 0⟩
def fDtcBpMask (n : Nat) : Fld := ⟨10, 0x080, 39+8*n, 32+8*n⟩
def fDtcRefused : Fld := ⟨10, 0x090, 8, 8⟩
def fDtcHalted : Fld := ⟨10, 0x090, 7, 0⟩
def fDtcBpEn (n : Nat) : Fld := ⟨10, 0x098+8*n, 63, 63⟩
def fDtcBpGroup (n : Nat) : Fld := ⟨10, 0x098+8*n, 62, 62⟩
def fDtcBpAddr (n : Nat) : Fld := ⟨10, 0x098+8*n, 56, 0⟩
def fDtcPdPilot : Fld := ⟨10, 0x0B8, 63, 61⟩
def fDtcPdSpace : Fld := ⟨10, 0x0B8, 60, 60⟩
def fDtcPdIndex : Fld := ⟨10, 0x0B8, 14, 0⟩
def fDtcPdData : Fld := ⟨10, 0x0C0, 63, 0⟩
def fDtcPdResult : Fld := ⟨10, 0x0C8, 15, 8⟩
def fDtcInstrEn : Fld := ⟨10, 0x0D0, 15, 8⟩
def fDtcGran : Fld := ⟨10, 0x0D0, 3, 3⟩
def fDtcMode : Fld := ⟨10, 0x0D0, 2, 2⟩
def fDtcTraceRefused : Fld := ⟨10, 0x0D0, 1, 1⟩
def fDtcLap : Fld := ⟨10, 0x0D8, 31, 16⟩
def fDtcWr : Fld := ⟨10, 0x0D8, 15, 0⟩
def fDtcRd : Fld := ⟨10, 0x0E0, 15, 0⟩
def fDtcCntHandle : Fld := ⟨10, 0x108, 63, 32⟩
def fDtcCntPeriod : Fld := ⟨10, 0x108, 31, 16⟩
def fDtcCntInst : Fld := ⟨10, 0x108, 13, 8⟩
def fDtcCntSet : Fld := ⟨10, 0x108, 1, 0⟩
def fDtcCntSeq : Fld := ⟨10, 0x118, 63, 48⟩
def fDtcCntResult : Fld := ⟨10, 0x118, 47, 40⟩
def fDtcCntTag : Fld := ⟨10, 0x118, 31, 0⟩
def fDtcCnt (n : Nat) : Fld := ⟨10, 0x120+8*n, 63, 0⟩
def fDtcCntTime : Fld := ⟨10, 0x1F0, 63, 0⟩
def fDtcQSel : Fld := ⟨10, 0x1A0, 31, 0⟩
def fDtcQSeq : Fld := ⟨10, 0x1B0, 63, 32⟩
def fDtcQResult : Fld := ⟨10, 0x1B0, 15, 8⟩
def fDtcQLost : Fld := ⟨10, 0x1B0, 1, 1⟩
def fDtcQBusy : Fld := ⟨10, 0x1B0, 0, 0⟩
/-- [log 15 DESIGN CHOICE unsafe] -/
def fDtcQData (n : Nat) : Fld := ⟨10, (if n = 6 then 0x1F8 else if n = 7 then 0x1E8 else 0x1B8+8*n), 63, 0⟩

/-! BTC: coherence (R277) and completions, doorbells (R72, R93) -/

def fBtcSnoops : Fld := ⟨2, 0x0C0, 63, 32⟩
def fBtcStaleWb : Fld := ⟨2, 0x0C0, 31, 16⟩
def fBtcManWaits : Fld := ⟨2, 0x0C0, 15, 0⟩
def fBtcAtMem : Fld := ⟨2, 0x0C8, 63, 32⟩
def fBtcAtHome : Fld := ⟨2, 0x0C8, 31, 0⟩
def fBtcPushRefused : Fld := ⟨2, 0x0D0, 63, 32⟩
def fBtcPushTaken : Fld := ⟨2, 0x0D0, 31, 0⟩
def fBtcOverrun : Fld := ⟨2, 0x0B0, 63, 32⟩
def fBtcForeign : Fld := ⟨2, 0x0B0, 31, 0⟩

/-! HPU (R92) -/

def fHpuTaken : Fld := ⟨1, 0x080, 63, 0⟩
def fHpuCheckDrops : Fld := ⟨1, 0x088, 63, 32⟩
def fHpuFormDrops : Fld := ⟨1, 0x088, 31, 0⟩

/-! Windows (R50) -/

def fWinTable (w : Nat) : Fld := ⟨0x80+w, 0x080, 63, 60⟩
def fWinIndex (w : Nat) : Fld := ⟨0x80+w, 0x080, 55, 32⟩
def fWinGen (w : Nat) : Fld := ⟨0x80+w, 0x080, 31, 20⟩
def fWinAny (w : Nat) : Fld := ⟨0x80+w, 0x080, 0, 0⟩
def fWinSeq (w : Nat) : Fld := ⟨0x80+w, 0x090, 63, 32⟩
def fWinResult (w : Nat) : Fld := ⟨0x80+w, 0x090, 15, 8⟩
def fWinDrop (w : Nat) : Fld := ⟨0x80+w, 0x090, 2, 2⟩
def fWinLost (w : Nat) : Fld := ⟨0x80+w, 0x090, 1, 1⟩
def fWinBusy (w : Nat) : Fld := ⟨0x80+w, 0x090, 0, 0⟩
def fWinData (w : Nat) (n : Nat) : Fld := ⟨0x80+w, 0x100+8*n, 63, 0⟩

/-! Fault queue staging (R307) -/

def fFqData (n : Nat) : Fld := ⟨0, 0x400+8*n, 63, 0⟩
def fFqPending : Fld := ⟨0, 0x328, 22, 0⟩

/-! Pilots and the translation cache (R131) -/

def fPlxFlush : Fld := ⟨0x10, 0x090, 8, 8⟩
def fPlxChecked : Fld := ⟨0x10, 0x090, 0, 0⟩
def fPlxRefused : Fld := ⟨0x10, 0x0A0, 63, 48⟩
def fPlxXlated : Fld := ⟨0x10, 0x0A0, 47, 32⟩
def fPlxHits : Fld := ⟨0x10, 0x0A0, 31, 0⟩

/-! Sequencers: checked mode (R132) -/

def fTsqStale (s : Nat) : Fld := ⟨0x20+s, 0x088, 31, 0⟩
def fTsqStaleKey (s : Nat) : Fld := ⟨0x20+s, 0x090, 63, 16⟩
def fTsqStaleOff (s : Nat) : Fld := ⟨0x20+s, 0x090, 15, 0⟩



/-! MFU (R94) -/

def fMfuStashMax : Fld := ⟨3, 0x080, 23, 16⟩
def fMfuStashEn : Fld := ⟨3, 0x080, 8, 8⟩
def fMfuDefHint : Fld := ⟨3, 0x080, 1, 0⟩
def fMfuRejects : Fld := ⟨3, 0x088, 63, 32⟩
def fMfuRetries : Fld := ⟨3, 0x088, 31, 0⟩
def fMfuDropped : Fld := ⟨3, 0x090, 63, 32⟩
def fMfuHits : Fld := ⟨3, 0x090, 31, 0⟩

/-! LEV (R167) -/

def fLevPoolIndex : Fld := ⟨6, 0x080, 11, 0⟩
def fLevPoolOwner : Fld := ⟨6, 0x088, 63, 32⟩
def fLevPoolBlocks : Fld := ⟨6, 0x088, 24, 0⟩
def fLevPoolSeq : Fld := ⟨6, 0x098, 63, 32⟩
def fLevPoolResult : Fld := ⟨6, 0x098, 15, 8⟩
def fLevPoolLost : Fld := ⟨6, 0x098, 1, 1⟩
def fLevPoolBusy : Fld := ⟨6, 0x098, 0, 0⟩
def fLevInfoState : Fld := ⟨6, 0x0A0, 63, 62⟩


/-! further pages -/

end Sys2Proof.Machine
end

