-- ==== Sys2Proof/Machine/Units.lean ====
section
/-!
DEFINITION. What each of the fourteen subsystems holds beside its registers (01 R10). A default is the value after a
reset that reaches the unit.
-/

namespace Sys2Proof.Machine

/-! ### SCU -/

/-- A debug token slot's content (R344). -/
structure Token where
  grant : Nat
  actions : Nat
  id : Nat
  expiry : Nat
  deriving DecidableEq, Repr

/-- The values of the configuration items (R328, R343); defaults as the manual states them. -/
structure ChipCfg where
  islandClk : List (Nat × Nat) := []
  quayAbsent : Nat := 0
  pilotRole : Nat := 0xFC
  quayEngines : List (Nat × Nat) := []
  harbour : List (Nat × Nat × Nat) := []
  harbourSize : Nat := 0
  logUnits : Nat := 0x1FFFF80
  xcHarbour : Nat := 536870912
  poolArea : Nat := 276824064
  shareArea : Nat := 8388608
  sparePool : Nat := 67108864
  stackRange : List (Nat × Nat) := []
  arenaBase : Nat := 0
  arenaSize : Nat := 0
  arenaVa : Nat := 0
  loadVa : Nat := 0
  root : Bool := false
  base : Nat := 0
  fixedId : Nat := 0
  unitSerial : Nat := 0
  iSus : Nat := 0xFFFF
  iPeak : Nat := 0xFFFF
  wdog : Bool := true
  logFormat : Bool := false
  secBase : Nat := 0
  secMax : Nat := 1
  arenaKeyid : Nat := 0xFFF
  harbourKeyid : Nat := 0xFFE
  deriving DecidableEq, Repr

/-- Where a reset stands (R323, R326). -/
inductive RstPhase where
  | none
  /-- the idle request of R323 step 1 is due -/
  | ask
  /-- the units were asked to go idle -/
  | idle
  /-- parked; the memory ports drain (R323 step 3) -/
  | drain
  /-- islands leave reset in the order of R326 -/
  | release
  deriving DecidableEq, Repr

/-- Where a load stands (R328 to R331). -/
inductive LoadPhase where
  | none
  /-- configuration requested; chunks arriving; verdict awaited -/
  | config
  /-- image requested or being reloaded; verdict awaited -/
  | image
  /-- image verified; logbook and epochs checked -/
  | checked
  deriving DecidableEq, Repr

/-- The SCU's own state beside its registers. -/
structure Scu where
  /-- the SCU island itself has left reset (R326 order 1) -/
  up : Bool := false
  rst : RstPhase := .none
  rstCause : Nat := 0
  rstReload : Bool := false
  rstStart : Nat := 0
  /-- island released last, by order of R326 -/
  lastOrder : Nat := 0
  /-- an Off entry, not a reset, runs the idle request (R340) -/
  goingOff : Bool := false
  load : LoadPhase := .none
  loadStart : Nat := 0
  fromHarbour : Bool := false
  cfgChunks : List (BitVec 256) := []
  cfgDone : Bool := false
  cfg : ChipCfg := {}
  cfgVerified : Bool := false
  imgCount : Nat := 0
  imgHead : BitVec 256 := 0
  imgDone : Bool := false
  imgVerdict : Bool := false
  /-- identity of the image in the harbour copy: its header chunk; none before the first image -/
  imgCopy : Option (BitVec 256) := none
  wdogStart : Nat := 0
  wdogWarned : Bool := false
  tokens : List (Option Token) := [none, none, none, none, none, none, none, none]
  /-- S as last computed (R342) -/
  sec : Nat := 0
  /-- levels as last seen by the edge detector (R309), one bit per source -/
  levelSeen : Nat := 0
  /-- sources marked done in the current batch (R312) -/
  marks : Nat := 0
  /-- sources joined to a wire, with the wire (R313) -/
  joined : List (Nat × Nat) := []
  /-- end of each group's hold-off; 0 idle (R312) -/
  holdoff : List Nat := [0, 0, 0, 0, 0, 0, 0, 0, 0, 0, 0, 0, 0, 0, 0, 0]
  /-- group 15's timer is with the watchdog until the end of its next batch (R314) -/
  timerOwed : Bool := false
  /-- vector chosen and on the SCU-to-HPU crossing (R311) -/
  crossing : Option Nat := none
  /-- requests sent to the root of trust: kind and argument (02) -/
  rtOut : List (Nat × Nat) := []
  /-- time of each pilot's last release after a lock-up, 0 none (R334) -/
  pilotRel : List Nat := [0, 0, 0, 0, 0, 0, 0, 0]
  retainStart : Nat := 0
  retainReq : Bool := false
  /-- TARGET written while a reset or load ran (R340) -/
  targetLater : Option Nat := none
  /-- next fault sequence number (R299) -/
  faultSeq : Nat := 0
  /-- fault records fixed and not yet written (R296) -/
  open_ : List FaultRec := []
  /-- the fault queue, by slot (R299) -/
  queue : Tbl FaultRec := []
  /-- berth fault slots now PENDING (R300), and the pending list -/
  slots : Tbl FaultRec := []
  pendList : List Nat := []
  /-- quays whose drain a reset did not see end: they come up in FAILED (R323) -/
  quayFailed : List Nat := []
  /-- a delivered configuration asks for FORMAT and it has not run yet (R330) -/
  formatDue : Bool := false
  deriving DecidableEq, Repr

/-! ### HPU -/

/-- A doorbell on the HPU-to-BTC crossing (R74). -/
structure Doorbell where
  ctx : Nat
  handle : Nat
  prod : Nat
  hint : Nat
  deriving DecidableEq, Repr

/-- An access whose request stays raised while the HPU is in reset (R43). -/
inductive HostAcc where
  | write (addr : BitVec 57) (be data : BitVec 64)
  | read (addr : BitVec 57) (be : BitVec 64) (rid : BitVec 16) (tag : BitVec 10)
  | aperture (addr : BitVec 57) (rid : BitVec 16) (tag : BitVec 10)
  | doorbell (addr : BitVec 57) (be : BitVec 64) (data : BitVec 128)
  | stash (target : BitVec 2) (asid : BitVec 20) (addr : BitVec 57) (line : Line)
  deriving DecidableEq, Repr

/-- The HPU's own state. [log 71 DESIGN CHOICE safe] -/
structure Hpu where
  held : List HostAcc := []
  /-- transfers that left on the outbound lanes, oldest first -/
  out : List HostOut := []
  toBtc : List Doorbell := []
  deriving DecidableEq, Repr

/-! ### BTC -/

/-- A message on the BTC-to-MFU crossing (R81). -/
inductive MfuMsg where
  | wake (berth hint : Nat)
  | close (berth : Nat)
  | cont (berth prod : Nat)
  deriving DecidableEq, Repr

/-- A teardown in progress, and whether its drain has ended (R65, R66). -/
structure Teardown where
  handle : Nat
  stopped : Bool
  deriving DecidableEq, Repr

/-- The BTC's own state: the record tables, what is on chip, windows in progress. [log 8 DESIGN CHOICE unsafe] -/
structure Btc where
  ctx : Tbl CtxRec := []
  berth : Tbl BerthRec := []
  /-- records on chip, most recently used first (R63) -/
  hotCtx : List Nat := []
  hotBerth : List Nat := []
  /-- records being brought on chip -/
  fills : List RecId := []
  toMfu : List MfuMsg := []
  teardowns : Tbl Teardown := []
  /-- abandonment holds running: bollard and end (R71) -/
  holds : Tbl Nat := []
  /-- window commands begun and not completed: window, OP, whether the debug access port issued it, BTC_WIN_SEL as it was when
  the command was written, and the RESULT once the home step is made (R50) -/
  win : Tbl (Nat × Bool × W64 × Option Nat) := []
  deriving DecidableEq, Repr

/-! ### MFU and PLX -/

/-- State of a line inside a fetch window (R87, R88). -/
inductive LineSt where
  | asked | retried
  /-- checked, with its internal line code -/
  | checked (l : Line) (code : W64)
  /-- a checked header line whose manifest waits for a free manifest line (R266) -/
  | held (l : Line) (code : W64)
  /-- the cause with which its manifest is rejected when its turn comes -/
  | bad (cause : Nat)
  deriving DecidableEq, Repr

/-- A fetch open on a berth (R82). -/
structure Fetch where
  berth : Nat
  handle : Nat
  hint : Nat
  /-- next ring index to ask for, and the point up to which PROD_IDX is known -/
  next : Nat
  upTo : Nat
  /-- lines asked for and not yet handed on, in index order -/
  lines : List (Nat × LineSt)
  /-- DEF_HINT as it was when the window started (R53, R94) -/
  defHint : Nat := 3
  idleSent : Bool := false
  halting : Bool := false
  deriving DecidableEq, Repr

/-- A stash entry (R84), oldest first in the list. -/
structure Stash where
  asid : Nat
  addr : Nat
  line : Line
  /-- its internal line code (R87) -/
  code : W64
  deriving DecidableEq, Repr

/-- The MFU's own state. -/
structure Mfu where
  fetches : List Fetch := []
  stash : List Stash := []
  /-- manifests from the check of their header line to their release -/
  mans : List Manifest := []
  /-- IDLE_CHECKs on their way to the home: berth, f, r (R80) -/
  idle : List (Nat × Nat × Nat) := []
  /-- STASH_EN and STASH_MAX as they were when the last window started (R94) -/
  stashEn : Bool := true
  stashMax : Nat := 0x20
  deriving DecidableEq, Repr

/-- Sharing domain of a key (R116). -/
inductive Domain where
  | pid (p : Nat) | ctx (handle : Nat)
  deriving DecidableEq, Repr

/-- A translation-cache entry (R116, R117, R121). -/
structure XcEntry where
  num : Nat
  hash : Nat
  domain : Domain
  epoch : Nat
  catVer : Nat
  lines : Nat
  refused : Option (Nat × Nat)
  checked : Bool
  inUse : Nat
  onChip : Bool
  harbour : Bool
  lastUse : Nat
  /-- flushed while in use: dropped when its count reaches zero (R121) -/
  doomed : Bool := false
  deriving DecidableEq, Repr

/-- A translation queued or in progress (R118, R119). -/
structure Xlate where
  berth : Nat
  hash : Nat
  domain : Domain
  /-- translator pilot running it; none while queued -/
  pilot : Option Nat
  /-- the harbour-part read has not answered -/
  harbourOpen : Bool
  /-- command lines of the body, and whether its header sets CHECKED or CHECKED_FORCE was 1 at its start (R127) -/
  lines : Nat
  checked : Bool
  /-- the header's own CHECKED: a translation that starts anew takes CHECKED_FORCE as it is then (R131) -/
  own : Bool
  /-- outcome of the cached checks (R117) -/
  refused : Option (Nat × Nat)
  deriving DecidableEq, Repr

/-- The PLX's own state. -/
structure Plx where
  /-- manifests whose digest has reached the PLX, in order (R118) -/
  sights : List (Nat × Nat) := []
  entries : List XcEntry := []
  nextEntry : Nat := 0
  queue : List Xlate := []
  /-- accept requests on the PLX-to-LBU crossing: berth index and head index (R248) -/
  toLbu : List (Nat × Nat) := []
  /-- ROLE bits are configuration; pilots in service bits are SCU_ISL_STAT.PILOT_OUT -/
  useClock : Nat := 0
  deriving DecidableEq, Repr

/-! ### TSQ and QPT -/

/-- A tile sequencer (R122 to R139). -/
structure Seqr where
  /-- commands whose slices it works on, in order -/
  jobs : List CmdId := []
  /-- descriptors written and not transferred to a quay (R135: 960) -/
  buf : List Desc := []
  /-- index lines held, least recently used first (R135) -/
  lines : List (Nat × Line) := []
  /-- index lines asked for -/
  asked : List Nat := []
  /-- the image whose control store and dispatch table it holds; none before a load (R122, R123) -/
  img : Option (BitVec 256) := none
  /-- control-store address of the word read last; none where no routine runs (R122) -/
  upc : Option (BitVec 12) := none
  /-- issue cycle of the next native word, its last updates with their stamps, and the value that the last read returned (R125) -/
  cycle : Nat := 0
  ups : List (Nat × W64) := []
  got : W64 := 0
  /-- time of the last reload of its control store (R124) -/
  lastReload : Option Nat := none
  deriving DecidableEq, Repr

/-- Who asked for a drain (R149). -/
inductive DrainBy where
  | teardown | preempt | reclaim | interrupt | reset | host
  deriving DecidableEq, Repr

/-- A quay (R140 to R151). Its STATE stands in its register. -/
structure Quay where
  queue : List Desc := []
  /-- descriptor offered to the engines and the station chosen for it -/
  offered : Option (Desc × Nat) := none
  /-- the main descriptor has been transferred and its OPERANDS descriptor is offered (R140) -/
  extNext : Bool := false
  out : List OutTile := []
  /-- faulted packets, with the descriptor of the tile each ended, held for the BLU; at most 128 (R32) -/
  cpl : List (Desc × CplPacket) := []
  drains : List (DrainScope × DrainBy) := []
  drainStart : Nat := 0
  /-- TMO_US as it was when the first request of the merged drain came (R53, R149) -/
  drainTmo : Nat := 0
  clock : Bool := true
  engines : Nat := 32
  /-- stations of each kind that may have tiles outstanding (R220): matrix, vector, stream -/
  limit : List Nat := [16, 8, 8]
  traceQ : List TraceRec := []
  traceLost : Nat := 0
  /-- tiles retired since the matching CMD_BEGIN, by command and station (R360) -/
  retired : List (CmdId × Nat × Nat) := []
  /-- address of the command for its trace records, of its first descriptor at the quay (R361), by command -/
  traceAddr : List (CmdId × Nat) := []
  deriving DecidableEq, Repr

/-! ### LEV -/

/-- An evaluation engine running a program (R155). -/
structure EvalRun where
  cmd : CmdId
  prog : List W64
  pc : Nat := 0
  s : List W64 := List.replicate 16 0
  /-- array E: elements that are not zero -/
  e : Tbl W32 := []
  /-- a load waits for its data -/
  loading : Bool := false
  /-- words stored, with the instruction that stored them -/
  stores : List (Nat × Nat) := []
  deriving DecidableEq, Repr

/-- State of a pool (R160). -/
inductive PoolSt where
  | free | live | dying
  deriving DecidableEq, Repr

/-- A pool (R160 to R165). -/
structure Pool where
  st : PoolSt := .free
  owner : Nat := 0
  blocks : Nat := 0
  base : Nat := 0
  stack : List Nat := []
  fresh : Nat := 0
  held : List Nat := []
  waiters : List CmdId := []
  deriving DecidableEq, Repr

/-- An allocation whose pool step has run and whose writes have not all been acknowledged (R161). -/
structure AllocOpen where
  cmd : CmdId
  pool : Nat
  ix : List Nat
  deriving DecidableEq, Repr

/-- The LEV's own state. -/
structure Lev where
  engines : List (Option EvalRun) := [none, none, none, none]
  /-- the program store: EVALs issued, with their program once read (R154) -/
  store : List (CmdId × Option (List W64)) := []
  pools : Tbl Pool := []
  allocs : List AllocOpen := []
  /-- pool command held by a quiesce (R53, R167): OP, and what LEV_POOL_SEL and LEV_POOL_CFG held when it was written -/
  poolOp : Option (Nat × Nat × W64) := none
  deriving DecidableEq, Repr

/-! ### BLU -/

/-- Who waits on a bollard: a local command, or a berth of another node (R172, R288). -/
inductive Waiter where
  | here (c : CmdId) (entry : Nat)
  | away (node berth entry : Nat)
  deriving DecidableEq, Repr

/-- A registered wait entry (R172), oldest first in the list. -/
structure WaitEnt where
  bol : Nat
  who : Waiter
  code : Nat
  value : W64
  cont : Bool
  deriving DecidableEq, Repr

/-- A search this node runs as initiator (R194, R195): the lap under way, and FABRIC_EN as it was at the start (R201). -/
structure Search where
  key : SearchKey
  lap : Nat
  fabric : Bool
  deriving DecidableEq, Repr

/-- A participation record (R195): of a waiter engaged at this node, or of a query that came from node `src` about a bollard. -/
structure Part where
  key : SearchKey
  lap : Nat
  /-- number of the query in whose tree it stands, its own for a query's record; 0 for the initiator's start -/
  root : Nat := 0
  /-- sender of the query to be answered; none for a waiter's record -/
  src : Option Nat
  /-- the waiter's berth; for a WAIT_QUERY the handle that it carried; and its entry: command and wait -/
  berth : Nat := 0
  ident : Option (CmdId × Nat) := none
  /-- the bollard examined: owner node (0 this one) and handle, and its graph version -/
  node : Nat
  bol : Nat
  gver : Nat
  /-- condition and VALUE of the entry -/
  cond : Nat := 0
  value : W64 := 0
  /-- berths of this node whose waiters block its enablers -/
  kids : List Nat := []
  /-- nodes queried in lap 1 -/
  asked : List Nat := []
  /-- nodes queried that have not answered -/
  outs : List Nat := []
  /-- an enabler is known -/
  found : Bool := false
  /-- REACH of lap 1 -/
  reach : Bool := false
  /-- the query has been answered in this lap; for a waiter's record, its verdict step has been made -/
  done : Bool := false
  deriving DecidableEq, Repr

/-- A watch that fired (R186): bollard handle, target, VALUE, owner, whether event 0 follows, and the LSN below which all
must be durable (R250). `sent` once the write has left. -/
structure Watch where
  handle : Nat
  va : Nat
  value : W64
  owner : Nat
  irq : Bool
  need : Nat
  sent : Bool := false
  deriving DecidableEq, Repr

/-- The BLU's own state. -/
structure Blu where
  slots : Tbl BolRec := []
  hot : List Nat := []
  waits : List WaitEnt := []
  searches : List Search := []
  parts : List Part := []
  nextSearch : Nat := 0
  /-- waits of local commands registered at other nodes (R175): node, command, entry -/
  away : List (Nat × CmdId × Nat) := []
  /-- watch writes waiting for durability (R250) -/
  watches : List Watch := []
  /-- graph version of a bollard, by node · 2^32 + handle (R195) -/
  gver : Tbl Nat := []
  /-- searches whose start waits because 64 run (R194), by berth, in the order in which the waits were registered -/
  startQ : List Nat := []
  /-- start of the period after which a waiter's next search begins (R194), by berth -/
  searchAt : Tbl Nat := []
  /-- host command begun and not carried out: OP, whether the debug access port issued it, and the values that HCMD_SEL and
  HCMD_VALUE held (R185) -/
  hcmd : Option (Nat × Bool × Nat × W64) := none
  deriving DecidableEq, Repr

/-! ### HMS -/

/-- When the progress of a berth or quay last moved, and whether its stall was reported (R217). -/
structure Stall where
  since : Nat := 0
  reported : Bool := false
  deriving DecidableEq, Repr

/-- The HMS's own state. [log 8 DESIGN CHOICE unsafe] -/
structure Hms where
  /-- deficit of each partition, by level (R206) -/
  deficit : List (List Int) := List.replicate 4 (List.replicate 16 0)
  /-- partition whose turn was taken last, by level (R206) -/
  partTurn : List Nat := [15, 15, 15, 15]
  /-- berths in the order of their turns: a berth that is picked or wakes goes to the end (R204) -/
  order : List Nat := []
  issueNo : Nat := 0
  /-- save slots in use, with the command and its unsent tile numbers (R210) -/
  save : Tbl CmdId := []
  /-- stall watch of berths and of quays (R217) -/
  stallB : Tbl Stall := []
  stallQ : Tbl Stall := []
  /-- when the island last left reset: stalls are timed from there (R217) -/
  stallFrom : Nat := 0
  /-- tide counter at the last sample (R218) -/
  lastSample : Nat := 0
  /-- fraction of the burst budget B in 1/8000 of its unit: the model keeps the exact product of R218 -/
  frac : Nat := 0
  /-- pw_therm as last seen; the level in force stands in HMS_PACE_STAT.THERM -/
  therm : Nat := 0
  /-- samples presented while the island was in reset (R24) -/
  held : List Nat := []
  released : Bool := false
  deriving DecidableEq, Repr

/-! ### LBU -/

/-- The LBU's own state: the journal and the mirrors (R242 to R261). [log 8 DESIGN CHOICE unsafe] -/
structure Lbu where
  journal : List LogUnit := []
  nextLsn : Nat := 0
  /-- units above the durable prefix that both mirrors have acknowledged -/
  acked : List Nat := []
  durable : Nat := 0
  tail : Nat := 0
  lastCkpt : Nat := 0
  /-- start of a checkpoint under way (R252) -/
  ckptStart : Option Nat := none
  /-- CKPT_US and LOW_WATER as they were when the last checkpoint started (R262) -/
  ckptUs : Nat := 0x3E8
  lowWater : Nat := 0x20
  /-- free space has been below LOW_WATER since the last report (R252) -/
  lowEpisode : Bool := false
  /-- the anchor: LSN of the latest durable CKPT record, and the CRC-64 of its bytes (R242) -/
  anchor : W64 × W64 := (0, 0)
  /-- where mirror A and mirror B lie: 0 and 1 their own ranges, 2 the spare range (R260) -/
  place : List Nat := [0, 1]
  history : List (Bool × Nat) := []
  redirected : List (Bool × Nat) := []
  /-- ring records of the window's COMPLETE records: LSN, berth handle, ring SEQ, words (R255 step 7) -/
  rings : List (Nat × Nat × Nat × List W64) := []
  deriving DecidableEq, Repr

/-! ### MMG -/

/-- State of a mooring (R230). -/
inductive MoorSt where
  | free | queued | loading | resident | poisoned | lost
  deriving DecidableEq, Repr

/-- A mooring record (R230). REFS is the number of references in the reference store. -/
structure Mooring where
  key : W64 := 0
  sealCtx : Nat := 0
  pid : Nat := 0
  st : MoorSt := .free
  size : Nat := 0
  off : Nat := 0
  uses : Nat := 0
  lastUse : Nat := 0
  loaded : Nat := 0
  poisons : Nat := 0
  order : Nat := 0
  /-- granules recorded for repair (R238) -/
  repair : List Nat := []
  /-- context handle whose backing copy the load reads, and its address -/
  loader : Nat := 0
  source : Nat := 0
  fullReported : Bool := false
  deriving DecidableEq, Repr

/-- A reference (R230), oldest first in the store. -/
structure MoorRef where
  ctx : Nat
  moor : Nat
  backing : Nat
  /-- its place in the reference store -/
  slot : Nat := 0
  deriving DecidableEq, Repr

/-- The MMG's own state. -/
structure Mmg where
  moors : Tbl Mooring := []
  refs : List MoorRef := []
  order : Nat := 0
  /-- poison reports passed by quays and not yet taken: command, address, station fault record source (R237) -/
  poison : List (CmdId × Nat) := []
  /-- moorings whose record, and places whose reference line, the harbour region does not hold as they are (R229, R250) -/
  dirty : List Nat := []
  dirtyRefs : List Nat := []
  /-- command written to MMG_CMD and not carried out: OP and MMG_SEL (R241) -/
  cmd : Option (Nat × Nat) := none
  deriving DecidableEq, Repr

/-- The tables as last written back to the harbour region (R63, R250): what a reset that loses the SRAM leaves.
[log 20 DESIGN CHOICE unsafe] -/
structure Harbour where
  ctx : Tbl CtxRec := []
  berth : Tbl BerthRec := []
  bol : Tbl BolRec := []
  waits : List WaitEnt := []
  pools : Tbl Pool := []
  moors : Tbl Mooring := []
  /-- PROD, CONS and OVERFLOWS of the fault queue (R299, R307) -/
  fqProd : Nat := 0
  fqCons : Nat := 0
  fqOvf : Nat := 0
  deriving DecidableEq, Repr

/-! ### FSA -/

/-- State of a link (R279). -/
inductive LinkSt where
  | none | parent | child | cross | foreign
  deriving DecidableEq, Repr

/-- One of the 48 links (R279, R284). -/
structure LinkRec where
  up : Bool := false
  st : LinkSt := .none
  gotEnum : Bool := false
  key : Option (BitVec 256) := none
  tx : Nat := 0
  rx : Nat := 0
  far : Nat := 0
  /-- ID of the neighbour, from the enumeration packets that came over the link; 0 not known -/
  nbr : Nat := 0
  role : Bool := false
  quarantined : Bool := false
  deriving DecidableEq, Repr

/-- State of a partner (R294, R295). -/
inductive PartSt where
  | active | quarantined | absent | isolated
  deriving DecidableEq, Repr

/-- A packet queued for or sent to a partner: PSEQ and CREDIT, body, the command entry it belongs to, and when and on which link it
was sent. -/
structure OutPkt where
  pseq : Nat
  credit : Nat := 0
  body : Payload
  of : Option (CmdId × Nat)
  sent : Option (Nat × Nat)
  deriving DecidableEq, Repr

/-- A partner (R285, R286, R294). -/
structure Partner where
  st : PartSt := .active
  primary : Option Nat := none
  alternate : Option Nat := none
  session : Option Nat := none
  nextSeq : Nat := 0
  expect : Nat := 0
  /-- packets sent whose credit has not come back -/
  used : Nat := 0
  /-- credits of the inbound buffer to be returned with the next packet -/
  owed : Nat := 0
  queue : List OutPkt := []
  /-- wait entries this node holds at the partner -/
  shares : Nat := 0
  /-- bad events in the 1 ms window, its start, and QUAR_THRESH as it was then; 0 before the first (R294, R295) -/
  bad : Nat := 0
  badStart : Nat := 0
  badLim : Nat := 0
  /-- packets in the window of 1 µs, its start, and RATE as it was then; 0 before the first -/
  rate : Nat := 0
  rateStart : Nat := 0
  rateLim : Nat := 0
  rateDrops : Nat := 0
  /-- packets of the partner in the inbound buffer, in order -/
  inbox : List Packet := []
  /-- WAIT_REGs kept in the inbound buffer for want of a share (R287) -/
  kept : List Packet := []
  /-- SIGNALs received and not acknowledged: PSEQ, and the LSN below which all must be durable once applied (R289) -/
  waitAck : List (Nat × Option Nat) := []
  deriving DecidableEq, Repr

/-- An identity of a signal applied for another node (R289). -/
structure Ident where
  src : Nat
  ref : Nat
  line : Nat
  entry : Nat
  lsn : Nat
  deriving DecidableEq, Repr

/-- What stays raised at the FSA's ports while its island is in reset (R24). -/
inductive FsaAcc where
  | key (sel : BitVec 16) (key : BitVec 256)
  | packet (link arrive : Nat) (p : SealedPacket)
  deriving DecidableEq, Repr

/-- The FSA's own state. [log 8 DESIGN CHOICE unsafe, 71 DESIGN CHOICE safe] -/
structure Fsa where
  held : List FsaAcc := []
  links : List LinkRec := List.replicate 48 {}
  rootId : Nat := 0
  epoch : Option Nat := none
  /-- the last epoch this root gave out -/
  lastEpoch : Nat := 0
  parent : Option Nat := none
  hops : Nat := 0
  next : Nat := 0
  base : Nat := 0
  /-- links still to be sent the token, and the one whose reply is awaited -/
  tokenLeft : List Nat := []
  tokenAt : Option Nat := none
  /-- an enumeration, a census asked for at the root and not begun -/
  startDue : Bool := false
  censusDue : Bool := false
  /-- a census runs here; children that have not reported; reports by link -/
  censusOn : Bool := false
  censusLeft : List Nat := []
  censusGot : List (Nat × List (List (BitVec 6) × CensusNode)) := []
  /-- IDs of the last census at the root -/
  known : List Nat := []
  session : Nat := 0
  partners : Tbl Partner := []
  /-- new partners noted as waiting for one of the 1,024 entries (R286) -/
  partWaiting : List Nat := []
  idents : List Ident := []
  exports : List (Nat × Nat) := []
  /-- packets of PKIND 0x10 to 0x1F received and not yet taken: link, arrival, packet -/
  inbox : List (Nat × Nat × Packet) := []
  /-- packets that left: link and packet, oldest first -/
  sent : List (Nat × Packet) := []
  /-- offsets measured, in half ticks (R291) -/
  tideSamples : List Int := []
  /-- t1 of the exchange in progress; t1, t2 and t4 of the one before -/
  tideCur : Option Nat := none
  tidePrev : Option (Nat × Nat × Nat) := none
  /-- departure of the last TIDE_SYNC to a child, by link -/
  tideDep : Tbl Nat := []
  /-- time of the last TIDE_SYNC sent to the parent, and of the last one received; none after a loss -/
  tideLast : Nat := 0
  tideHeard : Option Nat := none
  /-- the first alignment after reset has been made -/
  tideOnce : Bool := false
  holdUntil : Nat := 0
  /-- ticks still to be slewed, and the time of the last one -/
  slew : Int := 0
  slewAt : Nat := 0
  /-- partner command held by a quiesce: OP and node; export command begun: OP, node, handle -/
  partnerOp : Option (Nat × Nat) := none
  expOp : Option (Nat × Nat × Nat) := none
  deriving DecidableEq, Repr

/-! ### DTC -/

/-- A pilot as the debug port and the SCU see it (R334, R356 to R362). [log 39 DESIGN CHOICE safe] -/
structure Pilot where
  /-- in reset after a lock-up, until its reload ends (R334), and since when -/
  reset : Bool := false
  since : Nat := 0
  /-- words of its registers and private memory written through DTC_PDBG_DATA while halted: space, index, word -/
  words : List (Nat × Nat × W64) := []
  /-- free-value counter: how often the pilot has run since power-on -/
  runs : Nat := 0
  instrQ : List TraceRec := []
  instrLost : Nat := 0
  deriving DecidableEq, Repr

/-- The DTC's own state. [log 8 DESIGN CHOICE unsafe] -/
structure Dtc where
  pilots : List Pilot := List.replicate 8 {}
  sram : Tbl TraceRec := []
  markers : List TraceRec := []
  rrQuay : Nat := 0
  /-- live counters of sets 0 to 2, keyed by set, instance and number (R367) -/
  cnt : Tbl Nat := []
  /-- live COMMAND counters by berth (R368) -/
  cmdCnt : Tbl (List Nat) := []
  cmdTag : Tbl Nat := []
  lastPeriodic : Nat := 0
  dapHeld : List (Bool × BitVec 20 × W64) := []
  /-- answers of the debug access port: data and error -/
  dapOut : List (W64 × Bool) := []
  /-- a query and a sample held by a quiesce (R53, R370): the query's context handle and the harbour read's answer -/
  ctxqOp : Option (Nat × MemResp) := none
  sampleDue : Bool := false
  deriving DecidableEq, Repr

/-! ### Coherence -/

/-- State of a line in an agent (R269, States). -/
inductive LSt where
  | i | s | f | c | d | is | ix | sx | wb
  deriving DecidableEq, Repr

/-- Directory state of a line (R269). -/
inductive DirSt where
  | shared (l : List Nat)
  | sharedF (f : Nat) (l : List Nat)
  | owner (a : Nat)
  deriving DecidableEq, Repr

/-- A coherence request (R267). -/
inductive CReq where
  | rds | rdx | upg | wb (data : Line) | evc | wrpart (be : BitVec 64) (data : Line) | atm (op : AtmOp)
  /-- a line pushed by the home (R273) -/
  | push
  /-- a home step (R267, R269): does it write the line, and does the step itself follow once the copies are recalled? -/
  | home (writes step : Bool)
  deriving DecidableEq, Repr

/-- A line busy with a request (R267): requester, answers still awaited, whether an agent has answered with data, and with dirty data. -/
structure Busy where
  agent : Nat
  req : CReq
  await : List Nat
  granted : Bool
  data : Bool := false
  dirty : Bool := false
  deriving DecidableEq, Repr

/-- A message to an agent with the data it carries. -/
structure CMsg where
  dst : Nat
  line : Nat
  ev : CohEv
  data : Line
  deriving DecidableEq, Repr

/-- The coherence protocol's state (15). -/
structure Coh where
  dir : Tbl DirSt := []
  busy : Tbl Busy := []
  /-- requests that wait for a busy line, oldest first: line, agent, request -/
  queue : List (Nat × Nat × CReq) := []
  /-- lines in agents: agent, line, state, data where they are not the newest (R271) -/
  lines : List (Nat × Nat × LSt × Line) := []
  msgs : List CMsg := []
  /-- answers on their way to the home: agent, line, data when dirty, and whether it is RspI or PushNack -/
  answers : List (Nat × Nat × Option Line × Bool) := []
  /-- what the home holds of lines, or parts of records, that the manual gives no form -/
  store : Tbl Line := []
  /-- old values returned by atomics, and WrCmp with or without a copy: agent, line, value -/
  atmRsp : List (Nat × Nat × W64) := []
  wrCmp : List (Nat × Nat × Bool) := []
  dones : List (Nat × Nat) := []
  deriving DecidableEq, Repr

end Sys2Proof.Machine
end

