-- ==== Sys2Proof/Machine/Harbour.lean ====
section
/-!
DEFINITION. Where things lie in the harbour region (22 R371): offsets of the areas from a mirror's base.
-/

namespace Sys2Proof.Machine

def mib2 : Nat := 0x200000

/-- Rounded up to a multiple of 2 MiB. [log 66 DEDUCED unsafe] -/
def up2 (n : Nat) : Nat := (n + mib2 - 1) / mib2 * mib2

def offCtx : Nat := 0x00000000
def offBerth : Nat := 0x20000000
def offBol : Nat := 0x40000000
def offWait : Nat := 0x80000000
def offMan : Nat := 0x98000000
def offFaultSlot : Nat := 0xB8000000
def offFaultQueue : Nat := 0xF8000000
def offMoor : Nat := 0xF8100000
def offPool : Nat := 0xF8200000
def offExp : Nat := 0xF8300000
def offRef : Nat := 0xF8500000
def offImage : Nat := 0xF8900000
def offIdent : Nat := 0xF9900000
def offSave : Nat := 0xFB900000
def offLog : Nat := 0x100000000

def offXc (c : ChipCfg) : Nat := offLog + up2 (4096 + c.logUnits * 32)
def offPoolArea (c : ChipCfg) : Nat := offXc c + up2 c.xcHarbour
def offShare (c : ChipCfg) : Nat := offPoolArea c + up2 c.poolArea
def offSpare (c : ChipCfg) : Nat := offShare c + up2 c.shareArea
/-- End of the layout. [log 66 DEDUCED unsafe] -/
def layoutEnd (c : ChipCfg) : Nat := offSpare c + up2 c.sparePool

/-- Offset of the journal unit with an LSN (R242). [log 66 DEDUCED unsafe] -/
def offUnit (c : ChipCfg) (lsn : Nat) : Nat := offLog + 0x1000 + lsn % c.logUnits * 32

/-- Base of a mirror's place: 0 and 1 the two mirrors', 2 the spare range's (R260, R372). -/
def baseOf (c : ChipCfg) (i : Nat) : Nat := ((c.harbour.find? fun h => h.1 = i).map (·.2.1)).getD 0

/-- Base of mirror A. -/
def baseA (c : ChipCfg) : Nat := baseOf c 0

end Sys2Proof.Machine
end

