-- ==== Sys2Proof/Machine/State.lean ====
section
/-!
DEFINITION. The state of the block: every register, record, buffer, counter and queue the manual gives it, and the
queue of commands that wait. `State.reset` is the machine right after power-on reset (R324, R341).
-/

namespace Sys2Proof.Machine

/-- Everything the block holds.
[log 1 DESIGN CHOICE unsafe, 19 DESIGN CHOICE safe, 42 DESIGN CHOICE safe, 71 DESIGN CHOICE safe] -/
structure Dev where
  /-- time since power-on in ns: the model's own clock, to which the manual's timers are compared -/
  now : Nat := 0
  /-- the tide counter, 64 bits (R291) -/
  tide : Nat := 0
  /-- the registers that do not hold their reset value, by register-space offset (R38, R46) -/
  regs : Tbl W64 := []
  scu : Scu := {}
  hpu : Hpu := {}
  btc : Btc := {}
  mfu : Mfu := {}
  plx : Plx := {}
  /-- accepted commands until their manifest is released, in order of acceptance (R96, R100) -/
  cmds : List Cmd := []
  /-- TS0 to TS15 (R122) -/
  seqs : List Seqr := List.replicate 16 {}
  /-- Q00 to Q55 (R10) -/
  quays : List Quay := List.replicate 56 {}
  lev : Lev := {}
  blu : Blu := {}
  hms : Hms := {}
  lbu : Lbu := {}
  harbour : Harbour := {}
  mmg : Mmg := {}
  fsa : Fsa := {}
  dtc : Dtc := {}
  coh : Coh := {}
  /-- requests that left on the memory-master ports, oldest first (R30) -/
  memOut : List MemReq := []
  /-- descriptors transferred at the engine ports, oldest first (R31) -/
  launches : List Launch := []
  /-- the model's own counter to which the opaque constants of Config are applied; the manual has no such state -/
  freeCtr : Nat := 0
  deriving DecidableEq, Repr

/-- The state of the model: the block, and the commands that wait, first in, first out. -/
structure State where
  dev : Dev := {}
  pending : List Instr := []
  deriving DecidableEq, Repr

/-- The machine right after reset: power-on reset has taken every island, the SCU among them; the Reset column holds in
every register; no command waits. [log 8 DESIGN CHOICE unsafe, 42 DESIGN CHOICE safe] -/
def State.reset : State := { dev := {}, pending := [] }

/-- No command of this block faults the model: every error the manual names is an effect on registers and records. -/
inductive Fault where
  deriving DecidableEq, Repr

/-- Why a command has no effect to model. -/
inductive Refusal where
  /-- raised by a command whose meaning is not written; safe: the model stops -/
  | notModelled (mnemonic : String)
  /-- raised by a command whose operand the manual calls reserved or does not define (a link above 47, a quay above 55,
  a caching agent above 0xB, a stash target of 0b00); safe: the model stops where the manual gives no effect -/
  | reservedOperand
  deriving DecidableEq, Repr

end Sys2Proof.Machine
end

