-- ==== Sys2Proof/Machine/Tbl.lean ====
section
/-!
DEFINITION. Operations over sparse tables (keys strictly rising, no entry equal to what an absent key reads as) and over
lists of a fixed number of units.
-/

namespace Sys2Proof.Machine

/-- The entry at a key. -/
def tfind {α : Type} : Tbl α → Nat → Option α
  | [], _ => none
  | (j, v) :: r, k => if j = k then some v else tfind r k

/-- The table with `v` at `k`. -/
def tput {α : Type} : Tbl α → Nat → α → Tbl α
  | [], k, v => [(k, v)]
  | (j, w) :: r, k, v =>
    if k < j then (k, v) :: (j, w) :: r else if j = k then (k, v) :: r else (j, w) :: tput r k v

/-- The table without any entry at `k`. -/
def tdel {α : Type} : Tbl α → Nat → Tbl α
  | [], _ => []
  | (j, w) :: r, k => if j = k then tdel r k else (j, w) :: tdel r k

/-- What a key reads as, where an absent key reads as `dflt`. -/
def tget {α : Type} (dflt : α) (t : Tbl α) (k : Nat) : α := (tfind t k).getD dflt

/-- The table after a write of `v` at `k`, in canonical form: writing what an absent key reads as removes the entry. -/
def tset {α : Type} [DecidableEq α] (dflt : α) (t : Tbl α) (k : Nat) (v : α) : Tbl α :=
  if v = dflt then tdel t k else tput t k v

/-- All keys of a table lie above `k`. -/
def tabove {α : Type} (k : Nat) : Tbl α → Bool
  | [] => true
  | (j, _) :: r => k < j && tabove k r

/-- Keys strictly rising. -/
def tsorted {α : Type} : Tbl α → Bool
  | [] => true
  | (j, _) :: r => tabove j r && tsorted r

/-- Canonical form of a table whose absent keys read as `dflt`: keys strictly rising, no entry equal to its default. -/
def twf {α : Type} [DecidableEq α] (dflt : Nat → α) (t : Tbl α) : Bool :=
  tsorted t && t.all fun p => !decide (p.2 = dflt p.1)

/-- Element `i` of a list of units, or `dflt` outside it. -/
def at' {α : Type} (dflt : α) (l : List α) (i : Nat) : α := l.getD i dflt

/-- The list with element `i` changed by `f`. -/
def modAt {α : Type} (l : List α) (i : Nat) (f : α → α) : List α := l.modify i f

/-- The first element that satisfies `p`, with the list without it. -/
def takeFirst {α : Type} (p : α → Bool) : List α → Option (α × List α)
  | [] => none
  | x :: r => if p x then some (x, r) else (takeFirst p r).map fun q => (q.1, x :: q.2)

/-- Bit `i` of a mask held as a number. -/
def nbit (m i : Nat) : Bool := m / 2 ^ i % 2 = 1

/-- The mask with bit `i` set. -/
def nset (m i : Nat) : Nat := if nbit m i then m else m + 2 ^ i

/-- The mask with bit `i` cleared. -/
def nclr (m i : Nat) : Nat := if nbit m i then m - 2 ^ i else m

/-- Number of bits set among the lowest `n`. -/
def npop (m n : Nat) : Nat := ((List.range n).filter (nbit m)).length

/-- Least value of `f` over a list, or `d` for an empty list. -/
def minBy {α : Type} (d : Nat) (f : α → Nat) (l : List α) : Nat := l.foldl (fun m x => min m (f x)) d

end Sys2Proof.Machine
end

