-- ==== Sys2Proof/Machine/Ops.lean ====
section
/-!
DEFINITION. The operations every unit shares: registers and their fields, events, error capture, machine checks, security
refusals, records and their residency, the logbook's journal, trace markers and counters.
-/

namespace Sys2Proof.Machine

/-! ### Outcomes -/

/-- A command whose whole effect is on the block. [log 2 DESIGN CHOICE safe] -/
def onDev (f : Dev → Dev) (s : State) : Host.Outcome State Fault Refusal := .next { s with dev := f s.dev }

/-- A command with an operand the manual reserves or leaves undefined. [log 5 DEDUCED safe] -/
def reservedOp : Host.Outcome State Fault Refusal := .refused .reservedOperand

/-! ### One unit at a time -/

def modScu (d : Dev) (f : Scu → Scu) : Dev := { d with scu := f d.scu }
def modHpu (d : Dev) (f : Hpu → Hpu) : Dev := { d with hpu := f d.hpu }
def modBtc (d : Dev) (f : Btc → Btc) : Dev := { d with btc := f d.btc }
def modMfu (d : Dev) (f : Mfu → Mfu) : Dev := { d with mfu := f d.mfu }
def modPlx (d : Dev) (f : Plx → Plx) : Dev := { d with plx := f d.plx }
def modLev (d : Dev) (f : Lev → Lev) : Dev := { d with lev := f d.lev }
def modBlu (d : Dev) (f : Blu → Blu) : Dev := { d with blu := f d.blu }
def modHms (d : Dev) (f : Hms → Hms) : Dev := { d with hms := f d.hms }
def modLbu (d : Dev) (f : Lbu → Lbu) : Dev := { d with lbu := f d.lbu }
def modMmg (d : Dev) (f : Mmg → Mmg) : Dev := { d with mmg := f d.mmg }
def modFsa (d : Dev) (f : Fsa → Fsa) : Dev := { d with fsa := f d.fsa }
def modDtc (d : Dev) (f : Dtc → Dtc) : Dev := { d with dtc := f d.dtc }
def modCoh (d : Dev) (f : Coh → Coh) : Dev := { d with coh := f d.coh }

/-- A count as its 16-bit field shows it: 0 ONCHIP, 1 WAITERS, 2 COUNT. [log 72 DESIGN CHOICE safe] -/
def field16 (f n : Nat) : Nat := if n < 2 ^ 16 then n else (Config.overField f n).toNat

/-! ### Registers -/

/-- The stored word of a register. -/
def reg (d : Dev) (p off : Nat) : W64 := tget (regDflt (regKey p off)) d.regs (regKey p off)

/-- The block with a register's stored word replaced. -/
def setReg (d : Dev) (p off : Nat) (w : W64) : Dev :=
  { d with regs := tset (regDflt (regKey p off)) d.regs (regKey p off) w }

/-- The value of a stored field. -/
def fld (d : Dev) (f : Fld) : Nat := getBits (reg d f.page f.off) f.hi f.lo

/-- The block with a stored field set (modulo its width). -/
def setFld (d : Dev) (f : Fld) (v : Nat) : Dev := setReg d f.page f.off (setBits (reg d f.page f.off) f.hi f.lo v)

/-- A field that counts and wraps. -/
def incWrap (d : Dev) (f : Fld) (n : Nat := 1) : Dev := setFld d f (fld d f + n)

/-- A field that counts and saturates. -/
def incSat (d : Dev) (f : Fld) (n : Nat := 1) : Dev := setFld d f (min (fld d f + n) (fldSize f.hi f.lo - 1))

/-- A one-bit flag of a field. -/
def flag (d : Dev) (f : Fld) : Bool := fld d f = 1

/-- Bit `i` of a mask field. -/
def fbit (d : Dev) (f : Fld) (i : Nat) : Bool := nbit (fld d f) i

def setBit (d : Dev) (f : Fld) (i : Nat) : Dev := setFld d f (nset (fld d f) i)

def clrBit (d : Dev) (f : Fld) (i : Nat) : Dev := setFld d f (nclr (fld d f) i)

/-! ### Events, errors, machine checks -/

/-- Page event `e` is raised: its bit of PAGE_IRQ_RAW is set, if the page implements it (R46). -/
def raiseEvent (d : Dev) (p e : Nat) : Dev := if e < pageIrqN p then setBit d (fIrqRaw p) e else d

/-- Error capture in a page header (R48). A first capture in the HPU page raises HPU event 0 (R92). -/
def logErr (d : Dev) (p cls code addr : Nat) : Dev :=
  if flag d (fErrValid p) then incSat (setFld d (fErrOverrun p) 1) (fErrCount p)
  else
    let d := setFld (setFld (setFld (setFld (setFld d (fErrClass p) cls) (fErrCode p) code) (fErrAddr p) addr)
      (fErrValid p) 1) (fErrCount p) 1
    if p = 1 then raiseEvent d 1 0 else d

/-- Code of a response error: 1 poison, 2 access error, 3 translation fault (R303). -/
def respCode : MemResp → Nat
  | .ok => 0 | .poison => 1 | .access => 2 | .translation => 3

/-- hm_rsp_err of an answer: 0b01 translation fault, 0b10 access error (02, memory-master ports). -/
def portCode : MemResp → Nat
  | .translation => 1 | .access => 2 | _ => 0

/-- A response error is captured with CLASS 0x04 in the page of the unit that issued the request (R306). -/
def memErr (d : Dev) (p : Nat) (r : MemResp) (addr : Nat) : Dev := if r = .ok then d else logErr d p 4 (respCode r) addr

/-- A reset of the whole block but the SCU is asked for (R321, R323): absorbed while another is in progress. `idle` is
the Idle request column; without it the block parks at once. Entries into Retain or Off are abandoned and counted
(19, Coincidences between power and reset). -/
def beginReset (d : Dev) (cause island : Nat) (idle reload : Bool) : Dev :=
  if d.scu.rst ≠ .none && !d.scu.goingOff then d
  else
    let d := if fld d fPwrState = 5 then incSat (setFld (setFld d fPwrTarget 0) fPwrState 0) fPwrAbandoned else d
    let d := if fld d fPwrState = 3 then
        raiseEvent (setFld (setFld (setFld d fPwrTarget 0) fPwrState 0) fDozing 0) 0 6 else d
    let d := if fld d fPwrState = 4 then setFld (setFld d fPwrTarget 0) fPwrState 0 else d
    let d := incWrap (setFld (setFld (setFld d fRstCause cause) fRstIsland island) fRstIdleTimeout 0) fRstCount
    modScu d fun s => { s with rst := if idle then .ask else .drain, rstCause := cause, rstReload := reload,
                                rstStart := d.now, goingOff := false, retainReq := false }

/-- A machine check (R304, R305): latched in SCU_MC_STAT or counted there, SCU event 0 raised; `fatal` when its action
resets the block. -/
def machineCheckAt (d : Dev) (p cls code addr : Nat) (fatal : Bool) : Dev :=
  let d := if flag d fMcValid then incSat (setFld d fMcOverrun 1) fMcCount
    else
      let d := setFld (setFld (setFld (setFld d fMcPage p) fMcClass cls) fMcCode code) fMcAddr addr
      setFld (setFld d fMcValid 1) fMcCount 1
  let d := if fatal then setFld d fMcFatal 1 else d
  let d := raiseEvent d 0 0
  if fatal then beginReset d 0x09 0 true false else d

/-- A CLASS 0x03 capture that raises a machine check with a reset of the block. -/
def fatalCheck (d : Dev) (p code addr : Nat) : Dev := machineCheckAt (logErr d p 3 code addr) p 3 code addr true

/-- Both mirrors failed one harbour-region read (R303, R304, R306). -/
def mirrorsFailed (d : Dev) (p addr : Nat) : Dev := fatalCheck d p 0x23 addr

/-! ### Power and islands -/

/-- Is an island parked (R23): a reset has reached it and it starts no new transfer until it is held? An Off entry leaves the HPU
running (R340). [log 6 DEDUCED safe] -/
def parked (d : Dev) (u : Nat) : Bool := d.scu.rst = .drain && !(u = 1 && d.scu.goingOff)

/-- Is a unit's island held in reset, or parked on its way there? [log 6 DEDUCED safe] -/
def inReset (d : Dev) (u : Nat) : Bool := !d.scu.up || (u ≠ 13 && (fbit d fInReset u || parked d u))

/-- The whole block wakes from Retain (R338): TARGET and STATE become RUN, SCU event 6. [log 7 DEDUCED unsafe] -/
def retainWakeOp (d : Dev) : Dev :=
  if fld d fPwrState = 3 then raiseEvent (setFld (setFld (setFld d fPwrTarget 0) fPwrState 0) fDozing 0) 0 6 else d

/-- A request that rises towards a gated island wakes it (R25), and in Retain the whole block (R338). [log 7 DEDUCED unsafe] -/
def wakeUnit (d : Dev) (u : Nat) : Dev :=
  let d := if u ≠ 13 && u ≠ 1 then retainWakeOp d else d
  if fbit d fDozing u then clrBit d fDozing u else d

/-- A command carried out by unit `u`: nothing while its island is in reset; a dozing or retained island wakes first.
[log 2 DESIGN CHOICE safe, 6 DEDUCED safe, 70 DESIGN CHOICE unsafe] -/
def onUnit (u : Nat) (f : Dev → Dev) : State → Host.Outcome State Fault Refusal :=
  onDev fun d => if inReset d u then d else f (wakeUnit d u)

/-- Is the block loaded: kcp_loaded is 1 in REPLAY and in LOADED (R331)? -/
def loaded (d : Dev) : Bool := fld d fLoadState = 2 || fld d fLoadState = 3

/-- Does a pilot run: in service, not in reset after a lock-up, not halted (R334, R356)? -/
def pilotRuns (d : Dev) (p : Nat) : Bool :=
  !fbit d fPilotOut p && !(at' {} d.dtc.pilots p).reset && !fbit d fDtcHalted p

def modPilot (d : Dev) (p : Nat) (f : Pilot → Pilot) : Dev :=
  modDtc d fun t => { t with pilots := modAt t.pilots p f }

/-! ### Security -/

/-- Is an action admitted whose lowest admitting state is `need` and whose ACTIONS bit is `bit` (R348)? The second
condition asks for a token only when S is above SEC_BASE. [log 63 DEDUCED safe] -/
def admits (d : Dev) (bit need : Nat) : Bool :=
  need ≤ d.scu.sec &&
    (d.scu.sec ≤ d.scu.cfg.secBase ||
      d.scu.tokens.any fun t => match t with
        | some k => nbit k.actions bit && need ≤ min k.grant d.scu.cfg.secMax
        | none => false)

/-- A refusal is counted (R350). -/
def countRefused (d : Dev) : Dev := incSat d fSecRefused

/-! ### Time [log 70 DESIGN CHOICE unsafe] -/
def us (n : Nat) : Nat := n * 1000

/-- The tide counter's word as records carry it. -/
def tideW (d : Dev) : Nat := d.tide % 2 ^ 64

def fTideAligned : Fld := ⟨9, 0x0F0, 63, 63⟩

/-! ### Trace markers and counters -/

/-- Key of live counter `n` of a set and instance (R367). -/
def cntKey (set inst n : Nat) : Nat := set * 65536 + inst * 16 + n

/-- A live counter counts and wraps at 2^64. [log 59 DEDUCED unsafe] -/
def count (d : Dev) (set inst n : Nat) (k : Nat := 1) : Dev :=
  let key := cntKey set inst n
  modDtc d fun t => { t with cnt := tset 0 t.cnt key ((tget 0 t.cnt key + k) % 2 ^ 64) }

/-- A COMMAND counter of a berth (R368). [log 59 DEDUCED unsafe] -/
def countCmd (d : Dev) (berth n : Nat) (k : Nat := 1) : Dev :=
  let l := modAt (tget [0, 0, 0, 0, 0] d.dtc.cmdCnt berth) n fun v => (v + k) % 2 ^ 64
  modDtc d fun t => { t with cmdCnt := tset [0, 0, 0, 0, 0] t.cmdCnt berth l }

def fCmdEn : Fld := ⟨10, 0x0D0, 0, 0⟩
def fCmdLost : Fld := ⟨10, 0x0D8, 47, 32⟩
def fInstrLost : Fld := ⟨10, 0x0D8, 63, 48⟩

/-- A MARKER record (R364), written whenever CMD_EN is 1; a quiesced DTC counts it as lost (R370). -/
def marker (d : Dev) (kind arg : Nat) : Dev :=
  if !flag d fCmdEn then d
  else if flag d (fQuiesced 10) then incSat d fCmdLost
  else
    let r : TraceRec := { rtype := 5, secrecy := 0, unaligned := !flag d fTideAligned, replayed := false,
                          perStation := false, lap := 0, quay := 0, station := 0, count := 0, time := tideW d,
                          tags := BitVec.ofNat 64 (kind * 2 ^ 56 + arg % 2 ^ 32), addr := 0 }
    modDtc d fun t => { t with markers := t.markers ++ [r] }

/-! ### Records (04) -/

def ctxAt (d : Dev) (i : Nat) : CtxRec := tget {} d.btc.ctx i
def berthAt (d : Dev) (i : Nat) : BerthRec := tget {} d.btc.berth i
def bolAt (d : Dev) (i : Nat) : BolRec := tget {} d.blu.slots i

def putCtx (d : Dev) (i : Nat) (r : CtxRec) : Dev := modBtc d fun b => { b with ctx := tset {} b.ctx i r }
def putBerth (d : Dev) (i : Nat) (r : BerthRec) : Dev := modBtc d fun b => { b with berth := tset {} b.berth i r }
def putBol (d : Dev) (i : Nat) (r : BolRec) : Dev := modBlu d fun b => { b with slots := tset {} b.slots i r }

def modCtx (d : Dev) (i : Nat) (f : CtxRec → CtxRec) : Dev := putCtx d i (f (ctxAt d i))
def modBerth (d : Dev) (i : Nat) (f : BerthRec → BerthRec) : Dev := putBerth d i (f (berthAt d i))
def modBol (d : Dev) (i : Nat) (f : BolRec → BolRec) : Dev := putBol d i (f (bolAt d i))

/-- Handles (04, Handle layouts): index in the low bits, generation above. -/
def berthHandle (i gen : Nat) : Nat := gen * 2 ^ 22 + i
def ctxHandle (i gen : Nat) : Nat := gen * 2 ^ 20 + i
def bolHandle (i gen : Nat) : Nat := gen * 2 ^ 24 + i
def berthIdx (h : Nat) : Nat := h % 2 ^ 22
def ctxIdx (h : Nat) : Nat := h % 2 ^ 20
def bolIdx (h : Nat) : Nat := h % 2 ^ 24
def berthGen (h : Nat) : Nat := h / 2 ^ 22 % 2 ^ 10
def ctxGen (h : Nat) : Nat := h / 2 ^ 20 % 2 ^ 12
def bolGen (h : Nat) : Nat := h / 2 ^ 24 % 2 ^ 8

/-- A handle names its slot's present owner: generation not 0, equal, and the slot neither FREE nor RETIRED (R55, R57). -/
def ctxOk (d : Dev) (h : Nat) : Bool :=
  let r := ctxAt d (ctxIdx h)
  ctxGen h ≠ 0 && r.gen = ctxGen h && (r.state = .live || r.state = .dying)

def berthOk (d : Dev) (h : Nat) : Bool :=
  let r := berthAt d (berthIdx h)
  berthGen h ≠ 0 && r.gen = berthGen h && (r.state = .live || r.state = .halted || r.state = .draining)

def bolOk (d : Dev) (h : Nat) : Bool :=
  let r := bolAt d (bolIdx h)
  bolGen h ≠ 0 && r.gen = bolGen h && (r.state = .live || r.state = .abandoned)

/-- Handle of a berth's owning context. -/
def ownerOf (r : BerthRec) : Nat := ctxHandle r.ctxIdx r.ctxGen
def bolOwner (r : BolRec) : Nat := ctxHandle r.ctxIdx r.ctxGen

/-- Codes of slot states in records (R59). -/
def CtxSt.code : CtxSt → Nat
  | .free => 0 | .live => 1 | .dying => 2 | .retired => 3
def BerthSt.code : BerthSt → Nat
  | .free => 0 | .live => 1 | .halted => 2 | .draining => 3 | .retired => 4
def BolSt.code : BolSt → Nat
  | .free => 0 | .live => 1 | .abandoned => 2 | .retired => 3
def Secrecy.code : Secrecy → Nat
  | .open => 0 | .confidential => 1 | .sealed => 2
def BolKind.code : BolKind → Nat
  | .fence => 0 | .counter => 1 | .barrier => 2 | .flag => 3

/-! ### The memory-master ports and the mirrors (02 R30; 14 R260, R261) -/

/-- A request leaves on a memory-master port. [log 19 DESIGN CHOICE safe, 71 DESIGN CHOICE safe] -/
def memReq (d : Dev) (r : MemReq) : Dev := { d with memOut := d.memOut ++ [r] }

/-- State of a mirror: 0 OK, 1 LOST, 2 RESILVERING (R260). [log 20 DESIGN CHOICE unsafe] -/
def mirrorSt (d : Dev) (m : Nat) : Nat := fld d (fLbuMirror m)

/-- Base of a mirror; one that is being resilvered lies in the spare range already (R260). -/
def mirrorBase (d : Dev) (m : Nat) : Nat :=
  baseOf d.scu.cfg (if mirrorSt d m = 2 then 2 else d.lbu.place.getD m m)

/-- Address in a mirror of an offset in the harbour region; a retired page lies in the mirror's spare pool, in the order of
retirement (R261). [log 20 DESIGN CHOICE unsafe] -/
def mirrorAddr (d : Dev) (m off : Nat) : Nat :=
  let moved := (d.lbu.redirected.filter fun x => x.1 = decide (m = 1)).map (·.2)
  if moved.contains (off / 4096) then
    mirrorBase d m + offSpare d.scu.cfg + moved.idxOf (off / 4096) * 4096 + off % 4096
  else mirrorBase d m + off

/-- A harbour record is written to both mirrors as two write requests, to the survivor alone while one is LOST (R30, R260).
[log 18 DEDUCED unsafe, 20 DESIGN CHOICE unsafe] -/
def harbourWrite (d : Dev) (off : Nat) (ws : List W64) : Dev :=
  [0, 1].foldl (fun d m => if mirrorSt d m = 1 then d else memReq d (.harbourWrite (mirrorAddr d m off) ws)) d

/-- A harbour record is asked for: from the first mirror in use (R261). [log 20 DESIGN CHOICE unsafe] -/
def harbourRead (d : Dev) (off : Nat) : Dev :=
  memReq d (.harbourRead (mirrorAddr d (if mirrorSt d 0 = 0 then 0 else 1) off))

/-! ### Residency (R63) -/

/-- Is a record on chip? -/
def onChip (d : Dev) : RecId → Bool
  | .ctx i => d.btc.hotCtx.contains i.toNat
  | .berth i => d.btc.hotBerth.contains i.toNat
  | .bollard i => d.blu.hot.contains i.toNat

def toFront (l : List Nat) (i : Nat) : List Nat := i :: l.filter fun j => j ≠ i

/-- A record on chip is used. [log 65 DEDUCED unsafe] -/
def touch (d : Dev) : RecId → Dev
  | .ctx i => modBtc d fun b => { b with hotCtx := toFront b.hotCtx i.toNat }
  | .berth i => modBtc d fun b => { b with hotBerth := toFront b.hotBerth i.toNat }
  | .bollard i => modBlu d fun b => { b with hot := toFront b.hot i.toNat }

/-- Place of a record in the harbour region (R371). [log 66 DEDUCED unsafe] -/
def recOff : RecId → Nat
  | .ctx i => offCtx + i.toNat * 512
  | .berth i => offBerth + i.toNat * 128
  | .bollard i => offBol + i.toNat * 64

/-- A record is asked for from the harbour region. [log 65 DEDUCED unsafe] -/
def askRecord (d : Dev) (r : RecId) : Dev :=
  if d.btc.fills.contains r then d else harbourRead (modBtc d fun b => { b with fills := b.fills ++ [r] }) (recOff r)

/-- An operation that names records: it runs when all are on chip; otherwise those missing are asked for and the input
stays where it is (R63). [log 65 DEDUCED unsafe] -/
def withRecs (d : Dev) (rs : List RecId) (f : Dev → Dev) : Dev :=
  let missing := rs.filter fun r => !onChip d r
  if missing = [] then f (rs.foldl touch d) else missing.foldl askRecord d

def rCtx (i : Nat) : RecId := .ctx (BitVec.ofNat 20 i)
def rBerth (i : Nat) : RecId := .berth (BitVec.ofNat 22 i)
def rBol (i : Nat) : RecId := .bollard (BitVec.ofNat 24 i)

/-- A berth's record and its context's (R63). -/
def berthRecs (d : Dev) (b : Nat) : List RecId := [rBerth b, rCtx (berthAt d b).ctxIdx]

/-- A berth's records are asked for where they are not on chip (R63). [log 65 DEDUCED unsafe] -/
def bringBerth (d : Dev) (b : Nat) : Dev := ((berthRecs d b).filter fun r => !onChip d r).foldl askRecord d

/-- A step of a command of a berth: with the berth's records on chip; otherwise they are asked for and the step waits (R63). A berth whose
command has issued has been used when it was picked. [log 65 DEDUCED unsafe] -/
def needBerth (d : Dev) (b : Nat) (f : Dev) : Dev := if (berthRecs d b).all (onChip d) then f else bringBerth d b

/-- A bollard slot and its owner's context record. -/
def bolRecs (d : Dev) (h : Nat) : List RecId := [rBol (bolIdx h), rCtx (bolAt d (bolIdx h)).ctxIdx]

/-! ### The journal (14) -/

/-- A record to be appended: REF, LINE, the berth index its command belongs to, and its body. -/
structure LogIn where
  ref : Nat := 0
  line : Nat := 0
  berth : Nat := 0
  body : LogRec
  deriving DecidableEq, Repr

/-- Units with their LSNs from `n` on, after a unit of words `prev`; the last one ends the group (R245). -/
def unitsFrom (prev : List W64) (n : Nat) : List LogIn → List LogUnit
  | [] => []
  | x :: r =>
    let ws := unitWords prev n x.ref x.line x.body
    ⟨n, x.ref, x.line, x.berth, x.body, ws, r.isEmpty⟩ :: unitsFrom ws (n + 1) r

/-- Units of a group with their LSNs from `n` on (R245). -/
def groupUnits (n : Nat) (rs : List LogIn) : List LogUnit := unitsFrom [] n rs

/-- Free units of the journal. -/
def logFree (d : Dev) : Nat := d.scu.cfg.logUnits - (d.lbu.nextLsn - d.lbu.tail)

/-- Free space is below LOW_WATER (R252, R262). -/
def logLow (d : Dev) : Bool := logFree d * 256 < d.lbu.lowWater * d.scu.cfg.logUnits

/-- LBU event 3 once per episode of free space below LOW_WATER (R252). -/
def lowCheck (d : Dev) : Dev :=
  if logLow d then
    if d.lbu.lowEpisode then d else raiseEvent (modLbu d fun l => { l with lowEpisode := true }) 7 3
  else modLbu d fun l => { l with lowEpisode := false }

/-- A group is appended to the journal, and its units leave for both mirrors; LSNs never repeat (R242, R243). The request wakes a
dozing LBU (R25). -/
def logGroup (d : Dev) (rs : List LogIn) : Dev :=
  let us := groupUnits d.lbu.nextLsn rs
  let d := us.foldl (fun d u => harbourWrite d (offUnit d.scu.cfg u.lsn) u.words) (wakeUnit d 10)
  lowCheck (modLbu d fun l => { l with journal := l.journal ++ us, nextLsn := l.nextLsn + rs.length })

/-- Is the unit with this LSN, and with it every earlier one, durable (R243)? -/
def durableAt (d : Dev) (lsn : Nat) : Bool := lsn < d.lbu.durable

/-- A STATE record (R247): TABLE 0x1 berth, 0x2 context, 0x4 pool. -/
def logState (d : Dev) (table st handle : Nat) : Dev := logGroup d [{ body := .state table st handle d.tide }]

/-- A BOLLARD record of a step that changed VALUE (R245, R247). -/
def logBol (d : Dev) (h entry : Nat) (v : W64) (ref line berth : Nat) : Dev :=
  logGroup d [{ ref := ref, line := line, berth := berth, body := .bollard h entry v }]

/-! ### Commands -/

def cmdAt (d : Dev) (k : CmdId) : Option Cmd := d.cmds.find? fun c => c.key = k

def putCmd (d : Dev) (c : Cmd) : Dev := { d with cmds := d.cmds.map fun x => if x.key = c.key then c else x }

def modCmd (d : Dev) (k : CmdId) (f : Cmd → Cmd) : Dev :=
  { d with cmds := d.cmds.map fun x => if x.key = k then f x else x }

/-- An operation on an accepted command; nothing where no such command is held. [log 2 DESIGN CHOICE safe] -/
def withCmd (d : Dev) (k : CmdId) (f : Cmd → Dev) : Dev :=
  match cmdAt d k with
  | some c => f c
  | none => d

/-- Commands of a context. -/
def ctxCmds (d : Dev) (handle : Nat) : List Cmd := d.cmds.filter fun c => c.ctx = handle

/-- Opcode number of a command (R106). -/
def CmdOp.code : CmdOp → Nat
  | .launch _ => 0x01 | .copy .. => 0x02 | .call .. => 0x03 | .alloc .. => 0x04 | .free .. => 0x05
  | .eval .. => 0x06 | .barrier => 0x07 | .signalHost .. => 0x08 | .moor .. => 0x09 | .unmoor .. => 0x0A
  | .nop => 0x0B | .endOp => 0x0C

/-! ### Units of a fixed number -/

def quayAt (d : Dev) (q : Nat) : Quay := at' {} d.quays q
def modQuay (d : Dev) (q : Nat) (f : Quay → Quay) : Dev := { d with quays := modAt d.quays q f }
def seqAt (d : Dev) (s : Nat) : Seqr := at' {} d.seqs s
def modSeq (d : Dev) (s : Nat) (f : Seqr → Seqr) : Dev := { d with seqs := modAt d.seqs s f }

end Sys2Proof.Machine
end

