-- ==== Sys2Proof/Machine/Layout.lean ====
section
/-!
DEFINITION. The records whose lines in the harbour region are coherent (15 R264).
-/

namespace Sys2Proof.Machine

/-- What a device-physical line address names among the coherent lines (R264): the record whose line it is.
[log 21 DEDUCED unsafe] -/
def lineRec (c : ChipCfg) (l : Nat) : Option RecId :=
  let o := l - baseA c
  if l < baseA c then none
  else if o < offBerth then some (rCtx (o / 512))
  else if o < offBol then some (rBerth ((o - offBerth) / 128))
  else none

/-- Does an address lie in the manifest table? [log 21 DEDUCED unsafe] -/
def isManLine (c : ChipCfg) (l : Nat) : Bool :=
  baseA c + offMan ≤ l && l < baseA c + offFaultSlot

/-- Addresses of a record's coherent lines. -/
def recLines (c : ChipCfg) : RecId → List Nat
  | .ctx i => (List.range 8).map fun n => baseA c + offCtx + i.toNat * 512 + n * 64
  | .berth i => (List.range 2).map fun n => baseA c + offBerth + i.toNat * 128 + n * 64
  | .bollard _ => []

end Sys2Proof.Machine
end

