-- ==== Sys2Proof/Machine/Cmds.lean ====
section
/-!
DEFINITION. What every family needs of accepted commands: the order of issue (R100), the tile count (R133, R143), quay mask
and tile cap (R207, R208), the grant and the answer of the mooring manager (R205, R233), and the completion record of the
logbook (R245, R250).
-/

namespace Sys2Proof.Machine

/-! ### Statuses (R8) -/

def stOk : Nat := 0x00
def stFaulted : Nat := 0x01
def stAbandoned : Nat := 0x02
def stPoolEmpty : Nat := 0x03
def stPoisoned : Nat := 0x04
def stAborted : Nat := 0x05
def stDeadlock : Nat := 0x06
def stStale : Nat := 0x07
def stUnreachable : Nat := 0x08

def ceilDiv (a b : Nat) : Nat := (a + b - 1) / b

/-- Commands that launch tiles (R251). -/
def CmdOp.launchesTiles : CmdOp → Bool
  | .launch _ | .copy .. | .call .. => true
  | _ => false

/-- A non-replayable command that launches tiles: its BEGIN precedes its first launch (R251). -/
def Cmd.needsBegin (c : Cmd) : Bool := c.spec.op.launchesTiles && !c.spec.replay

/-- Nothing later depends on a command that is complete (06, Order of issue). -/
def Cmd.isComplete (c : Cmd) : Bool := c.phase = .complete

def Cmd.isIssued (c : Cmd) : Bool := c.phase ≠ .waiting || c.skipped

def Cmd.waitsMet (c : Cmd) : Bool := c.spec.waits.length ≤ c.met

/-! ### Order of issue (R100) -/

/-- Earlier commands of the same berth, oldest first. -/
def earlier (d : Dev) (c : Cmd) : List Cmd :=
  (d.cmds.takeWhile fun x => x.key ≠ c.key).filter fun x => x.berth = c.berth

/-- The parameter register a dynamic field reads (R101). -/
def refOf (v : Nat) : List Nat := if 2 ^ 31 ≤ v then [v - 2 ^ 31] else []

/-- Parameter registers a command reads. -/
def CmdOp.reads : CmdOp → List Nat
  | .launch l => (l.trips.take l.nloop).flatMap refOf
  | .alloc _ _ n _ _ => refOf n
  | .free _ n _ => refOf n
  | _ => []

/-- Does an EVAL set parameter register `n`? -/
def CmdOp.sets (n : Nat) : CmdOp → Bool
  | .eval _ _ _ _ pset => nbit pset n
  | _ => false

/-- The EVAL that last set a register, before a command and in its manifest, is complete (R100, R101). -/
def paramReady (d : Dev) (c : Cmd) (n : Nat) : Bool :=
  match ((earlier d c).filter fun x => x.headIdx = c.headIdx && x.spec.op.sets n).getLast? with
  | some e => e.isComplete
  | none => true

/-- The conditions of R100 but the waits. -/
def orderOk (d : Dev) (c : Cmd) : Bool :=
  let es := earlier d c
  (match es.getLast? with
   | some p => if c.spec.concurrent then p.isIssued else p.isComplete
   | none => true) &&
  es.all (fun x => x.spec.brCond = 0 || x.isComplete) &&
  c.spec.op.reads.all (paramReady d c)

/-- Is the command's context LIVE? A context that is DYING issues nothing more (R65). -/
def ctxLive (d : Dev) (h : Nat) : Bool := ctxOk d h && (ctxAt d (ctxIdx h)).state = .live

/-- A ready command: not issued, its turn has come and its waits are met; or PREEMPTED (R211). -/
def ready (d : Dev) (c : Cmd) : Bool :=
  ctxLive d c.ctx &&
    ((c.phase = .waiting && !c.skipped && c.spin.isNone && orderOk d c && c.waitsMet && c.woken) || c.phase = .preempted)

/-- The record of a command's context. -/
def cmdCtx (d : Dev) (c : Cmd) : CtxRec := ctxAt d (ctxIdx c.ctx)

/-- Effective level of a command (R202). -/
def levelOf (d : Dev) (c : Cmd) : Nat := max (berthAt d c.berth).prio (ctxAt d (ctxIdx c.ctx)).prioFloor

def pidOf (d : Dev) (c : Cmd) : Nat := (ctxAt d (ctxIdx c.ctx)).pid

/-! ### Quay masks and tile counts -/

/-- Quays of a command's kind (R139): compute, DMA, collective. [log 67 DEDUCED unsafe] -/
def kindQuays : CmdOp → List Nat
  | .launch _ => List.range 32
  | .copy .. => (List.range 16).map (· + 32)
  | .call r _ => if r = 1 || r = 6 then (List.range 16).map (· + 32) else (List.range 8).map (· + 48)
  | _ => []

/-- Commands that run on sequencers (R205). -/
def CmdOp.sequenced (o : CmdOp) : Bool := o.launchesTiles

/-- The quay of a named station (R107). [log 67 DEDUCED unsafe] -/
def CmdOp.namedQuay : CmdOp → Option Nat
  | .launch l => if l.named then some (l.station / 32) else none
  | _ => none

/-- The quay mask of R207, formed at issue; a named station stands for its quay alone, whatever the partition's quays are (R107, R139),
under the rules of reserved quays (R203). [log 67 DEDUCED unsafe] -/
def maskOf (d : Dev) (c : Cmd) : List Nat :=
  let pid := pidOf d c
  (kindQuays c.spec.op).filter fun q =>
    (match c.spec.op.namedQuay with | some n => q = n | none => fbit d (fHmsPartQuays pid) q) &&
      (if levelOf d c = 0 then fbit d fHmsRsvQuays q else !fbit d fHmsRsvQuays q || flag d fHmsLend)

def online (d : Dev) (q : Nat) : Bool := fld d (fQptState q) = 1

/-- Does a mask hold a lent reserved quay (R208)? -/
def lentMask (d : Dev) (level : Nat) (mask : List Nat) : Bool := level ≠ 0 && mask.any fun q => fbit d fHmsRsvQuays q

/-- The tile cap in force, in µs (R208). -/
def tcapOf (d : Dev) (c : Cmd) (mask : List Nat) : Nat :=
  let t := fld d (fHmsTcapUs (pidOf d c))
  if lentMask d (levelOf d c) mask then min t (fld d fHmsLendCapUs) else t

/-- The value of a dynamic field (R101): a literal, or what the last EVAL of the manifest that set the register has recorded.
[log 29 DEDUCED unsafe] -/
def dynVal (d : Dev) (c : Cmd) (v : Nat) : Nat :=
  let n := v - 2 ^ 31
  if v < 2 ^ 31 then v
  else match ((earlier d c).filter fun x => x.headIdx = c.headIdx && x.spec.op.sets n && !x.skipped).getLast? with
    | some x => x.outs.getD n 0
    | none => (Config.unsetParam c.ref n).toNat

/-- Trip counts as read at issue; `none` where a reference yields 0x8000_0000 or more (R101). -/
def tripsOf (d : Dev) (c : Cmd) (l : LaunchOp) : Option (List Nat) :=
  let ts := (List.range l.nloop).map fun i => dynVal d c (l.trips.getD i 0)
  if ts.all fun t => t < 2 ^ 31 then some ts else none

/-- ⌈TILE_NS / T_cap⌉ before the limit of 256 (R136). -/
def rawPieces (tileNs tcapUs : Nat) : Nat := if tileNs = 0 || tileNs ≤ us tcapUs then 1 else ceilDiv tileNs (us tcapUs)

/-- The piece count P (R136). -/
def pieceCount (tileNs tcapUs : Nat) : Nat := min (rawPieces tileNs tcapUs) 256

/-- The smallest CHUNK_LOG2 among the quays of a mask (R143). -/
def chunkLog2 (d : Dev) (mask : List Nat) : Nat := minBy 24 (fun q => fld d (fQptChunk q)) mask

def argN (args : List W64) (i : Nat) : Nat := (args.getD i 0).toNat

/-- The tile count T of a command (R133, R143), 1 for a collective routine, whose group table is not read yet. -/
def tileCountOf (d : Dev) (c : Cmd) (mask : List Nat) (tcapUs : Nat) : Nat :=
  let ch := 2 ^ chunkLog2 d mask
  match c.spec.op with
  | .launch l => match tripsOf d c l with
    | some ts => pieceCount l.tileNs tcapUs * ts.foldl (· * ·) 1
    | none => 0
  | .copy _ _ len _ _ => ceilDiv len ch
  | .call r a => if r = 1 then ceilDiv (argN a 1) ch else if r = 6 then argN a 3 * ceilDiv (argN a 4) ch else 1
  | _ => 1

/-- Tiles of a preempted command not yet launched (R211); all of them where it was taken back before it was expanded. -/
def tilesLeft (d : Dev) (c : Cmd) : Nat :=
  if c.step = 0 then tileCountOf d c c.mask c.tcapUs else c.slices.foldl (fun n s => n + (s.stop - s.next) + s.redo.length) 0

/-! ### The completion record in the logbook -/

/-- The ring SEQ of the berth's next COMPLETE record (R247): CPL_PROD and the records logged and not yet written. -/
def ringSeq (d : Dev) (b : Nat) : Nat :=
  ((berthAt d b).cplProd + (d.cmds.filter fun x => x.berth = b && x.completeLsn.isSome && !x.ringDone).length) % 2 ^ 32

/-- FLAGS of a completion record (R112): SKIPPED, REPLAYED, BRANCHED. -/
def Cmd.flags (c : Cmd) : Nat :=
  (if c.skipped then 1 else 0) + (if c.replayed then 2 else 0) + (if c.branched then 4 else 0)

/-- A command's registered waits are dropped, local and remote. -/
def dropWaits (d : Dev) (k : CmdId) : Dev :=
  modBlu d fun b => { b with
    waits := b.waits.filter fun w => match w.who with | .here c _ => c ≠ k | .away .. => true
    away := b.away.filter fun a => a.2.1 ≠ k
    searchAt := tdel b.searchAt k.berth.toNat }

/-- A sequencer's work on a slice ends: it drops its index lines (R135). -/
def Seqr.dropLines (s : Seqr) : Seqr := { s with lines := [], asked := [] }

/-- Sequencers stop emitting a command and its descriptors in their buffers are discarded. -/
def stopSequencers (d : Dev) (k : CmdId) : Dev :=
  { d with seqs := d.seqs.map fun s =>
      let s := if s.jobs.contains k then s.dropLines else s
      { s with jobs := s.jobs.filter (· ≠ k), buf := s.buf.filter fun x => x.cmd ≠ k } }

/-- Descriptors of a command not offered at a quay are discarded there (R147). -/
def discardQueued (d : Dev) (k : CmdId) : Dev :=
  { d with quays := d.quays.map fun q => { q with queue := q.queue.filter fun x => x.cmd ≠ k } }

/-- Tiles of a command launched or offered and not retired. -/
def tilesOut (d : Dev) (k : CmdId) : Nat :=
  d.quays.foldl (fun n q => n + (q.out.filter fun t => t.desc.cmd = k).length +
    (match q.offered with | some (x, _) => if x.cmd = k then 1 else 0 | none => 0)) 0

/-! ### Mooring records (13) -/

def MoorSt.code : MoorSt → Nat
  | .free => 0 | .queued => 1 | .loading => 2 | .resident => 3 | .poisoned => 4 | .lost => 5

def moorAt (d : Dev) (m : Nat) : Mooring := tget {} d.mmg.moors m
def putMoor (d : Dev) (m : Nat) (r : Mooring) : Dev := modMmg d fun g => { g with moors := tset {} g.moors m r }

/-- REFS of a mooring. -/
def refsOf (d : Dev) (m : Nat) : Nat := (d.mmg.refs.filter fun x => x.moor = m).length

/-- The lowest free place of the reference store. [log 48 DEDUCED unsafe] -/
def freeSlot (rs : List MoorRef) : Nat :=
  ((List.range (rs.length + 1)).find? fun n => !rs.any fun x => x.slot = n).getD 0

/-- The 32 words of a mooring record (R230). -/
def moorWords (d : Dev) (m : Nat) : List W64 :=
  let r := moorAt d m
  [r.key, mkW [(32, r.sealCtx), (0, r.pid)], mkW [(61, r.st.code), (0, r.size)], mkW [(0, r.off)],
   mkW [(32, r.uses), (0, refsOf d m)], mkW [(0, r.lastUse)], mkW [(0, r.loaded)], mkW [(0, r.poisons)]] ++ List.replicate 24 0

/-- Does a MOOR record of some moorings still wait: for its command to complete, or to become durable (R250)? -/
def moorRecOpen (d : Dev) (m : Nat) : Bool :=
  let names := fun (r : LogRec) => match r with | .moor _ n _ _ _ => n = m | _ => false
  (d.lbu.journal.any fun u => d.lbu.durable ≤ u.lsn && names u.body) ||
    d.cmds.any fun c => c.completeLsn.isNone && c.pre.any names

/-- Mooring records whose state has changed are written through to both mirrors, each once the record of its last change is durable
(R229, R250). [log 18 DEDUCED unsafe] -/
def flushMoors (d : Dev) : Dev :=
  (d.mmg.dirty.filter fun m => !moorRecOpen d m).foldl (fun d m =>
    let d := modMmg d fun g => { g with dirty := g.dirty.filter (· ≠ m) }
    let d := { d with harbour := { d.harbour with moors := tset {} d.harbour.moors m (moorAt d m) } }
    harbourWrite d (offMoor + m * 256) (moorWords d m)) d

/-- What a mooring that goes to FREE leaves in the commands that name it: one that read its poison, or is held for it, completes
POISONED. [log 48 DEDUCED unsafe] -/
def moorGone (m : Nat) (c : Cmd) : Cmd :=
  { c with lost := c.lost || c.hit.contains m || (c.phase = .moorHeld && c.named.contains m)
           moors := c.moors.filter fun x => x.1 ≠ m, hit := c.hit.filter (· ≠ m) }

/-- A mooring changes; a change of state is written through (R229). -/
def setMoor (d : Dev) (m : Nat) (r : Mooring) : Dev :=
  let d' := putMoor d m r
  if (moorAt d m).st = r.st then d'
  else
    let d' := if r.st = .free then { d' with cmds := d'.cmds.map (moorGone m) } else d'
    flushMoors (modMmg d' fun g => { g with dirty := g.dirty.filter (· ≠ m) ++ [m] })

/-- A mooring without references or uses that is not RESIDENT goes to FREE; a LOST one when its last reference goes (R232, R236). -/
def freeIdle (refs : List MoorRef) (m : Nat) (r : Mooring) : Mooring :=
  if (r.uses = 0 || r.st = .lost) && r.st ≠ .resident && !refs.any (fun x => x.moor = m) then {} else r

def settleMoor (d : Dev) (m : Nat) : Dev := setMoor d m (freeIdle d.mmg.refs m (moorAt d m))

/-- A mooring's USES falls when a command that names it completes (R233). -/
def dropUses (d : Dev) (ms : List (Nat × Nat)) : Dev :=
  ms.foldl (fun d m => let r := moorAt d m.1; setMoor d m.1 (freeIdle d.mmg.refs m.1 { r with uses := r.uses - 1 })) d

/-- The graph version of a bollard moves (R195). -/
def bumpGraph (d : Dev) (node h : Nat) : Dev :=
  modBlu d fun b => { b with gver := tput b.gver (node * 2 ^ 32 + h) (tget 0 b.gver (node * 2 ^ 32 + h) + 1) }

/-- The graph versions of every bollard a command declares move: at its acceptance and its completion (R195). -/
def bumpDeclared (d : Dev) (c : Cmd) : Dev :=
  (c.spec.waits ++ c.spec.sigs).foldl (fun d e => bumpGraph d e.node e.handle) d

/-- The status of a command is fixed and its completion group is appended to the logbook, COMPLETE last (R245). A status
fixed earlier, by a fault, keeps its time. The context's counters move with it (R62). -/
def completeCmd (d : Dev) (k : CmdId) (st detail : Nat) : Dev :=
  withCmd d k fun c =>
    if c.completeLsn.isSome then d
    else
      let time := if c.status.isSome then c.fixTime else tideW d
      let c := { c with branched := c.branched && (st = stOk || st = stPoolEmpty) }
      let recs := c.pre ++ [.complete st c.flags detail (ringSeq d c.berth) time]
      let lsn := d.lbu.nextLsn + c.pre.length
      let d := logGroup d (recs.map fun r => { ref := c.ref, line := c.spec.lineNo, berth := c.berth, body := r })
      let d := modCmd d k fun c => { c with status := some st, detail := detail, fixTime := time,
                                            completeLsn := some lsn, phase := .complete, regd := false, spin := none,
                                            branched := c.branched && (st = stOk || st = stPoolEmpty) }
      let d := dropUses (stopSequencers (dropWaits d k) k) c.moors
      let d := bumpDeclared (modCmd d k fun c => { c with moors := [] }) c
      let d := bringBerth d c.berth
      modCtx d (ctxIdx c.ctx) fun r =>
        if st = stOk then { r with cmdsOk := (r.cmdsOk + 1) % 2 ^ 64 }
        else { r with cmdsFailed := (r.cmdsFailed + 1) % 2 ^ 64 }

/-! ### Moorings at the grant (R229, R233) -/

/-- The mooring that a key names for a context: key and sharing domain match (R229). -/
def mooringOf (d : Dev) (ctx : Nat) (key : W64) : Option Nat :=
  let r := ctxAt d (ctxIdx ctx)
  (d.mmg.moors.find? fun e =>
    e.2.st ≠ .free && e.2.key = key &&
      (if r.secrecy = .sealed then e.2.sealCtx = ctx else e.2.sealCtx = 0 && e.2.pid = r.pid)).map (·.1)

def holdsRef (d : Dev) (ctx m : Nat) : Bool := d.mmg.refs.any fun x => x.ctx = ctx && x.moor = m

/-- Mooring keys that a command names. -/
def CmdOp.moorKeys : CmdOp → List W64
  | .launch l => (l.opnds.map (·.moorKey)).filter (· ≠ 0)
  | _ => []

/-- The moorings a command names and holds. -/
def moorsOf (d : Dev) (c : Cmd) : List Nat :=
  (c.spec.op.moorKeys.filterMap (mooringOf d c.ctx)).eraseDups.filter (holdsRef d c.ctx)

/-! ### The grant (R205) -/

/-- Sequencers that are free: RUNNING, without a slice; those with a spinning waiter last (R184, R205). -/
def freeSeqs (d : Dev) : List Nat :=
  let free := (List.range 16).filter fun s => fld d (fTsqState s) = 1 && (seqAt d s).jobs.isEmpty
  let spun := fun s => d.cmds.any fun c => c.spin = some s
  (free.filter fun s => !spun s) ++ free.filter spun

/-- k of R205. -/
def grantCount (d : Dev) (level nfree t : Nat) : Nat :=
  min (min nfree (fld d (fHmsSeqMax level))) (max 1 (ceilDiv t (fld d fHmsMinSlice)))

/-- The slices of T tiles over the granted sequencers (R138). -/
def mkSlices (seqs : List Nat) (t : Nat) : List Slice :=
  let k := min seqs.length t
  if k = 0 then []
  else
    let q := ceilDiv t k
    (List.range k).filterMap fun j =>
      if j * q < t then some { seq := seqs.getD j 0, next := j * q, stop := min t ((j + 1) * q) } else none

/-- A partition's deficit at a level changes (R206). [log 31 DEDUCED unsafe] -/
def addDeficit (d : Dev) (level pid : Nat) (n : Int) : Dev :=
  modHms d fun h => { h with deficit := modAt h.deficit level fun l => modAt l pid (· + n) }

/-- The COMMAND counters of a berth restart with its next command (R368); its ticks with a wait unmet lie before its issue. -/
def restartCmdCounters (d : Dev) (c : Cmd) : Dev :=
  let l := [0, 0, 0, 0, if c.waitSince = 0 then 0 else c.entrySince - c.waitSince]
  modDtc d fun t => { t with cmdCnt := tset [0, 0, 0, 0, 0] t.cmdCnt c.berth l, cmdTag := tset 0 t.cmdTag c.berth c.spec.tag }

/-- PROGRESS of a berth (R216); a stall episode ends with it (R217). [log 33 DEDUCED unsafe] -/
def progress (d : Dev) (b : Nat) : Dev :=
  let d := modBerth (bringBerth d b) b fun r => { r with progress := (r.progress + 1) % 2 ^ 64 }
  modHms d fun h => { h with stallB := tset {} h.stallB b { since := d.now } }

/-- A spinning waiter other than `k` loses its sequencer when that is granted (R184). -/
def endSpinOf (seqs : List Nat) (k : CmdId) (x : Cmd) : Cmd :=
  match x.spin with
  | some s => if seqs.contains s && x.key ≠ k then { x with spin := none } else x
  | none => x

/-- A command's save slot is freed (R211, R69). -/
def freeSave (d : Dev) (k : CmdId) : Dev :=
  withCmd d k fun c =>
    let d := modHms d fun h => { h with save := h.save.filter fun s => s.2 ≠ k }
    let d := modCtx d (ctxIdx c.ctx) fun r => { r with save := r.save.filter fun n => some n ≠ c.saveSlot }
    modCmd d k fun c => { c with saveSlot := none, listed := [] }

/-- A command issues (R100): it is handed to the sequencers granted, or to the unit that carries it out. The mask and the
tile cap are fixed here; a BEGIN record that was not part of the accept group is written now (R251). -/
def handOver (d : Dev) (k : CmdId) (seqs mask : List Nat) (t : Nat) : Dev :=
  withCmd d k fun c =>
    let level := if c.phase = .moorHeld then c.level else levelOf d c
    let resumed := c.phase = .preempted
    let slices := if resumed then
        (List.range c.slices.length).map fun i =>
          let s := c.slices.getD i { seq := 0, next := 0, stop := 0 }
          { s with seq := seqs.getD (i % max 1 seqs.length) 0, runLeft := 0 }
      else []
    let d := if seqs.isEmpty then d else wakeUnit d 8
    let (d, bl) := if c.needsBegin && c.beginLsn.isNone then
        (logGroup d [{ ref := c.ref, line := c.spec.lineNo, berth := c.berth, body := .begin_ (tideW d) }],
          some d.lbu.nextLsn)
      else (d, c.beginLsn)
    let d := modCmd d k fun c =>
      { c with phase := .issued, grant := seqs, mask := if resumed then c.mask else mask, level := level,
               tcapUs := if resumed then c.tcapUs else tcapOf d c mask,
               slices := slices, issueNo := d.hms.issueNo, issueTime := d.now, spin := none, regd := false, beginLsn := bl }
    -- a sequencer held by another spinning waiter is taken from it (R184)
    let d := { d with cmds := d.cmds.map (endSpinOf seqs k) }
    let d := modHms d fun h => { h with issueNo := h.issueNo + 1 }
    let d := { d with seqs := (List.range 16).foldl (fun l i =>
      if seqs.contains i then modAt l i fun s => { s with jobs := s.jobs ++ [k] } else l) d.seqs }
    let d := if resumed then (if c.listed.isEmpty then freeSave d k else d) else restartCmdCounters d c
    let d := addDeficit d level (pidOf d c) (-(Int.ofNat (max 1 t)))
    if c.phase = .moorHeld then d else progress d c.berth

/-- The first mooring key that a command names and its context does not hold (06 R108, 13 R232): its mooring, or 0xFFFF_FFFF. -/
def unheldKey (d : Dev) (c : Cmd) : Option Nat :=
  (c.spec.op.moorKeys.find? fun k => match mooringOf d c.ctx k with
    | some m => !holdsRef d c.ctx m
    | none => true).map fun k => (mooringOf d c.ctx k).getD 0xFFFFFFFF

/-- The MMG answers for the moorings that are RESIDENT: their addresses, and USES rises, once for the command (R233). -/
def useMoors (d : Dev) (k : CmdId) (ms : List Nat) : Dev :=
  ms.foldl (fun d m => withCmd d k fun c =>
    let r := moorAt d m
    if r.st ≠ .resident || c.moors.any (fun x => x.1 = m) then d
    else modCmd (putMoor d m { r with uses := r.uses + 1, lastUse := tideW d }) k fun c =>
      { c with moors := c.moors ++ [(m, d.scu.cfg.arenaVa + r.off)] }) d

/-- The grant of a command picked by the HMS, with the answer of the MMG (R205, R233): RESIDENT addresses, a hold, or
POISONED at once. `first` is the sequencer of a spin grant, if any. -/
def grantCmd (d : Dev) (k : CmdId) (first : Option Nat) : Dev :=
  withCmd d k fun c =>
    if !c.spec.op.sequenced then handOver d k [] [] 1
    else
      let resumed := c.phase = .preempted
      let held := c.phase = .moorHeld
      let unheld := if resumed || held then c.unheld else unheldKey d c
      let ms := if resumed then [] else if held then c.named else if unheld.isSome then [] else moorsOf d c
      let d := useMoors (modCmd d k fun c => { c with unheld := unheld, named := if resumed then c.named else ms }) k ms
      if (held && c.lost) || ms.any fun m => (moorAt d m).st = .lost then completeCmd d k stPoisoned 0
      else if ms.any fun m => (moorAt d m).st ≠ .resident then
        if held then d
        else progress (modCmd d k fun c => { c with
          phase := .moorHeld, level := levelOf d c, issueNo := d.hms.issueNo
          spin := none }) c.berth
      else
        let mask := if resumed then c.mask else maskOf d c
        let t := if resumed then tilesLeft d c else tileCountOf d c mask (tcapOf d c mask)
        let free := match first with
          | some s => s :: (freeSeqs d).filter (· ≠ s)
          | none => freeSeqs d
        let seqs := free.take (grantCount d (levelOf d c) free.length t)
        handOver (if resumed then d else modCmd d k fun c => { c with step := 0 }) k seqs mask t

/-- A named launch that faults at issue: its quay is absent, or not reserved for a level-0 command (R107, R203). -/
def faultsNamed (d : Dev) (level : Nat) (o : CmdOp) : Option Nat :=
  match o.namedQuay with
  | some q =>
    if fld d (fQptState q) = 0 then some 0x25
    else if level = 0 && !fbit d fHmsRsvQuays q then some 0x50 else none
  | none => none

/-- Can a ready command issue now (R204): it needs no sequencer or one is free, and its mask holds an ONLINE quay? A command
that faults at issue for its named station needs no quay. -/
def canIssue (d : Dev) (c : Cmd) : Bool :=
  !c.spec.op.sequenced || (c.phase = .moorHeld && c.lost) ||
    (!(freeSeqs d).isEmpty && ((if c.phase = .preempted then c.mask else maskOf d c).any (online d) ||
      (c.phase ≠ .preempted && (faultsNamed d (levelOf d c) c.spec.op).isSome)))

end Sys2Proof.Machine
end

