-- ==== Sys2Proof/Machine/RecWords.lean ====
section
/-!
DEFINITION. The words of context records, berth records, bollard slots and manifest lines (04, Records; 10 R168; 15), records after a
write of one of their lines, and the harbour region's copy of a record.
-/

namespace Sys2Proof.Machine

def berthWords (r : BerthRec) : List W64 :=
  [mkW [(48, bit01 r.pin), (46, r.prio), (34, r.ctxGen), (14, r.ctxIdx), (4, r.gen), (0, r.state.code)],
   mkW [(0, r.ringBase), (0, r.ringLog2)], mkW [(32, r.cons), (0, r.prod)], mkW [(32, r.done), (0, r.acc)],
   mkW [(0, r.cplBase), (0, r.cplLog2)], mkW [(0, r.cplProd)], mkW [(0, r.progress)], mkW [(0, r.retireTime)]]

def ctxWords (r : CtxRec) : List W64 :=
  [mkW [(25, bit01 r.pin), (24, bit01 r.strictFence), (22, r.prioFloor), (18, r.pid), (16, r.secrecy.code), (4, r.gen),
        (0, r.state.code)],
   mkW [(20, r.keyid), (0, r.asid)], mkW [(32, r.bollardLimit), (0, r.berthLimit)], mkW [(0, r.blockLimit)],
   mkW [(32, r.bollardCount), (0, r.berthCount)], mkW [(32, r.blocksPeak), (0, r.blocksHeld)], mkW [(0, r.harbourBytes)],
   mkW [(0, r.retireTime)], mkW [(0, r.cmdsOk)], mkW [(0, r.cmdsFailed)], mkW [(0, r.tiles)], mkW [(0, r.stationTime)],
   mkW [(0, r.manifestBytes)], mkW [(0, r.doorbells)], mkW [(0, r.drops)], mkW [(0, r.mooringsHeld)]]

/-- Wait entries registered on a bollard. -/
def waiters (d : Dev) (i : Nat) : Nat := (d.blu.waits.filter fun w => w.bol = i).length

/-- CAP reads as zero. A RETIRED slot keeps STATE and GEN alone. -/
def bolWords (d : Dev) (i : Nat) : List W64 :=
  let r := bolAt d i
  [mkW [(48, bit01 r.watchArm), (47, bit01 r.watchIrq), (46, bit01 r.hostSig), (34, r.ctxGen), (14, r.ctxIdx),
        (12, r.kind.code), (4, r.gen), (0, r.state.code)],
   r.value, r.param, r.watchValue, mkW [(0, r.watchVa)], 0, mkW [(32, r.rejects), (0, field16 1 (waiters d i))],
   mkW [(0, r.lastUpdate)]]

/-- A record as it stands in the harbour region (R371): the words that a window shows, and of a slot its capability. The SAVE and
SCHED areas have no stated form. [log 20 DESIGN CHOICE unsafe] -/
def recImage (d : Dev) : RecId → List W64
  | .ctx i => ctxWords (ctxAt d i.toNat)
  | .berth i => berthWords (berthAt d i.toNat)
  | .bollard i => (bolWords d i.toNat).set 5 (bolAt d i.toNat).cap

/-! ### Lines of the records (15 R263, R264) -/

/-- A line from its words. -/
def lineOfWords (ws : List W64) : Line :=
  (List.range 8).foldl (fun v n => v ||| ((ws.getD n 0).setWidth 512 <<< (64 * n))) 0

/-- Field `hi:lo` of word `n` of a line. -/
def lineFld (v : Line) (n hi lo : Nat) : Nat := getBits (lineWord v n) hi lo

def BerthSt.ofCode (n : Nat) (old : BerthSt) : BerthSt :=
  if n = 0 then .free else if n = 1 then .live else if n = 2 then .halted else if n = 3 then .draining
  else if n = 4 then .retired else old

def CtxSt.ofCode (n : Nat) (old : CtxSt) : CtxSt :=
  if n = 0 then .free else if n = 1 then .live else if n = 2 then .dying else if n = 3 then .retired else old

def Secrecy.ofCode (n : Nat) (old : Secrecy) : Secrecy :=
  if n = 0 then .open else if n = 1 then .confidential else if n = 2 then .sealed else old

/-- A berth record after a write of its line 0 (04, Records); a reserved code leaves its field. [log 21 DEDUCED unsafe] -/
def berthOfLine (r : BerthRec) (v : Line) : BerthRec :=
  { r with
    pin := lineFld v 0 48 48 = 1, prio := lineFld v 0 47 46, ctxGen := lineFld v 0 45 34, ctxIdx := lineFld v 0 33 14
    gen := lineFld v 0 13 4, state := BerthSt.ofCode (lineFld v 0 3 0) r.state
    ringBase := lineFld v 1 56 12 * 4096, ringLog2 := lineFld v 1 5 0, cons := lineFld v 2 63 32, prod := lineFld v 2 31 0
    done := lineFld v 3 63 32, acc := lineFld v 3 31 0, cplBase := lineFld v 4 56 12 * 4096, cplLog2 := lineFld v 4 4 0
    cplProd := lineFld v 5 31 0, progress := lineFld v 6 63 0, retireTime := lineFld v 7 63 0 }

/-- A context record after a write of its line 0. [log 21 DEDUCED unsafe] -/
def ctxOfLine0 (r : CtxRec) (v : Line) : CtxRec :=
  { r with
    pin := lineFld v 0 25 25 = 1, strictFence := lineFld v 0 24 24 = 1, prioFloor := lineFld v 0 23 22, pid := lineFld v 0 21 18
    secrecy := Secrecy.ofCode (lineFld v 0 17 16) r.secrecy, gen := lineFld v 0 15 4, state := CtxSt.ofCode (lineFld v 0 3 0) r.state
    keyid := lineFld v 1 31 20, asid := lineFld v 1 19 0, bollardLimit := lineFld v 2 56 32, berthLimit := lineFld v 2 22 0
    blockLimit := lineFld v 3 31 0, bollardCount := lineFld v 4 56 32, berthCount := lineFld v 4 22 0
    blocksPeak := lineFld v 5 63 32, blocksHeld := lineFld v 5 31 0, harbourBytes := lineFld v 6 63 0
    retireTime := lineFld v 7 63 0 }

/-- A context record after a write of its line 1, the counters of R62. [log 21 DEDUCED unsafe] -/
def ctxOfLine1 (r : CtxRec) (v : Line) : CtxRec :=
  { r with
    cmdsOk := lineFld v 0 63 0, cmdsFailed := lineFld v 1 63 0, tiles := lineFld v 2 63 0, stationTime := lineFld v 3 63 0
    manifestBytes := lineFld v 4 63 0, doorbells := lineFld v 5 63 0, drops := lineFld v 6 63 0
    mooringsHeld := lineFld v 7 15 0 }

/-! ### The manifest table (15, Manifest lines) -/

def ManSt.mstate : ManSt → Nat
  | .staging | .looking | .translating => 1
  | .translated | .requested | .logged => 2
  | .accepted => 3

/-- The commands of a manifest. -/
def manCmds (d : Dev) (m : Manifest) : List Cmd := d.cmds.filter fun c => c.berth = m.berthIdx && c.headIdx = m.headIdx

/-- NEXT_ISSUE: line number of the first command not issued, past the last line where all are. [log 21 DEDUCED unsafe] -/
def nextIssue (d : Dev) (m : Manifest) : Nat :=
  (((manCmds d m).filter fun c => c.phase = .waiting).map (·.spec.lineNo)).foldl min (m.lineCount + 1)

/-- COMPLETED: commands whose COMPLETE record is durable. -/
def completedOf (d : Dev) (m : Manifest) : Nat :=
  ((manCmds d m).filter fun c => match c.completeLsn with | some l => durableAt d l | none => false).length

/-- The words of a manifest's line. -/
def manWords (d : Dev) (m : Manifest) : List W64 :=
  let acc := m.st = .logged || m.st = .accepted
  [mkW [(60, m.st.mstate), (0, m.berth)], mkW [(32, m.headIdx), (0, m.lineCount)],
   mkW [(0, match m.entry with | some n => (Config.xcPlace n).toNat | none => 0)], mkW [(0, if acc then m.lsn else 0)],
   mkW [(48, if acc then nextIssue d m else 0)], mkW [(0, if acc then completedOf d m else 0)], m.id, 0]

/-- Address of a manifest's line from a mirror's base. -/
def Manifest.off (m : Manifest) : Nat := offMan + m.slot * 64

/-- A manifest's line is written to the harbour region. -/
def writeMan (d : Dev) (m : Manifest) : Dev := harbourWrite d m.off (manWords d m)

/-- The line of a manifest that is released is written FREE. -/
def freeMan (d : Dev) (m : Manifest) : Dev := harbourWrite d m.off [0, 0, 0, 0, 0, 0, 0, 0]

/-- May a manifest's line go to the harbour region: is the record of its last change durable (R266)? A line that is staged has none.
[log 21 DEDUCED unsafe] -/
def manDurable (d : Dev) (m : Manifest) : Bool :=
  m.st = .accepted && (manCmds d m).all fun c => match c.completeLsn with | some l => durableAt d l | none => true

/-- The harbour region's copy of a record becomes the one on chip, in both mirrors (R30). [log 18 DEDUCED unsafe] -/
def copyBack (d : Dev) (r : RecId) : Dev :=
  let h := d.harbour
  match r with
  | .ctx i => { d with harbour := { h with ctx := tset {} h.ctx i.toNat (ctxAt d i.toNat) } }
  | .berth i => { d with harbour := { h with berth := tset {} h.berth i.toNat (berthAt d i.toNat) } }
  | .bollard i => { d with harbour := { h with bol := tset {} h.bol i.toNat (bolAt d i.toNat) } }

/-- [log 18 DEDUCED unsafe] -/
def writeBack (d : Dev) (r : RecId) : Dev := harbourWrite (copyBack d r) (recOff r) (recImage d r)


end Sys2Proof.Machine
end

