-- ==== Sys2Proof/Machine/CohOps.lean ====
section
/-!
DEFINITION. The home agent and the agents' line states (15): the lines, the directory, the arbiter, transactions, home steps, pushes.
-/

namespace Sys2Proof.Machine

/-! ### Agents (R263) -/

/-- Page of an agent's unit. -/
def agentPage (x : Nat) : Nat :=
  if x < 8 then 0x10 + x else if x = 8 then 3 else if x = 9 then 4 else if x = 10 then 5 else 7

/-- Island of an agent's unit. -/
def agentUnit (x : Nat) : Nat := pageUnit (agentPage x)

/-- Lines an agent's cache holds. -/
def agentLines (x : Nat) : Nat := if x < 8 then 2048 else if x = 8 then 1024 else if x = 9 then 8192 else 4096

def lineEnt (d : Dev) (x l : Nat) : Option (LSt × Line) :=
  (d.coh.lines.find? fun e => e.1 = x && e.2.1 = l).map fun e => e.2.2

/-- State of a line in an agent. -/
def lineSt (d : Dev) (x l : Nat) : LSt := match lineEnt d x l with | some e => e.1 | none => .i

/-- Does an agent's line keep data of its own? An owner's line, C or D, is the newest and needs none. -/
def LSt.keeps : LSt → Bool
  | .s | .f | .sx | .wb => true
  | _ => false

/-- An agent's line takes a state and data; I holds no entry. -/
def setLine (d : Dev) (x l : Nat) (st : LSt) (v : Line) : Dev :=
  modCoh d fun c =>
    let rest := c.lines.filter fun e => !(e.1 = x && e.2.1 = l)
    { c with lines := if st = .i then rest else rest ++ [(x, l, st, if st.keeps then v else 0)] }

/-- Has an agent's cache no room for another line? -/
def cacheFull (d : Dev) (x : Nat) : Bool := agentLines x ≤ (d.coh.lines.filter fun e => e.1 = x).length

/-! ### The home -/

/-- Is an address that of a coherent line: of a berth or context record, or of the manifest table (R264)? -/
def cohLine (d : Dev) (l : Nat) : Bool := l % 64 = 0 && ((lineRec d.scu.cfg l).isSome || isManLine d.scu.cfg l)

/-- The manifest that stands on a line of the manifest table. -/
def manAt (d : Dev) (l : Nat) : Option Manifest :=
  if isManLine d.scu.cfg l then d.mfu.mans.find? fun m => baseA d.scu.cfg + m.off = l else none

/-- A line as it is: of a record, the newest words, which State holds wherever the line stands; of the manifest table, the fields of the
manifest on it; the areas without a form as `store` has them. While no agent owns the line it is the home's copy (R269, R271).
[log 21 DEDUCED unsafe] -/
def homeCopy (d : Dev) (l : Nat) : Line :=
  let o := l - baseA d.scu.cfg
  match lineRec d.scu.cfg l with
  | some (.ctx i) =>
    if o % 512 < 128 then lineOfWords ((ctxWords (ctxAt d i.toNat)).drop (o % 512 / 8)) else tget 0 d.coh.store l
  | some (.berth i) => if o % 128 = 0 then lineOfWords (berthWords (berthAt d i.toNat)) else tget 0 d.coh.store l
  | _ => match manAt d l with | some m => lineOfWords (manWords d m) | none => tget 0 d.coh.store l

/-- A write of a line at the home: the fields of the record that stand in it take their values (R268, R272).
[log 21 DEDUCED unsafe] -/
def putHome (d : Dev) (l : Nat) (v : Line) : Dev :=
  let o := l - baseA d.scu.cfg
  let keep := modCoh d fun c => { c with store := tset 0 c.store l v }
  match lineRec d.scu.cfg l with
  | some (.ctx i) =>
    if o % 512 = 0 then modCtx d i.toNat fun r => ctxOfLine0 r v
    else if o % 512 = 64 then modCtx d i.toNat fun r => ctxOfLine1 r v else keep
  | some (.berth i) => if o % 128 = 0 then modBerth d i.toNat fun r => berthOfLine r v else keep
  | _ => keep

/-- Data of an agent's line: an owner's line is the newest. -/
def lineData (d : Dev) (x l : Nat) : Line :=
  match lineEnt d x l with
  | some (st, v) => if st.keeps then v else if st = .c || st = .d then homeCopy d l else 0
  | none => 0

def dirOf (d : Dev) (l : Nat) : Option DirSt := tfind d.coh.dir l

/-- A directory entry; no sharer at all is I, which has no entry. -/
def setDir (d : Dev) (l : Nat) (s : Option DirSt) : Dev :=
  modCoh d fun c => { c with dir := match s with
    | none | some (.shared []) => tdel c.dir l
    | some v => tput c.dir l v }

/-- The entry without an agent (R269, Evc and RspI): SF whose F leaves becomes S. -/
def DirSt.drop (x : Nat) : DirSt → DirSt
  | .shared s => .shared (s.filter (· ≠ x))
  | .sharedF f s => if f = x then .shared s else .sharedF f (s.filter (· ≠ x))
  | .owner y => if y = x then .shared [] else .owner y

def dropAgent (d : Dev) (l x : Nat) : Dev := setDir d l ((dirOf d l).map (DirSt.drop x))

/-- Agents an entry names. -/
def DirSt.agents : DirSt → List Nat
  | .shared s => s
  | .sharedF f s => f :: s
  | .owner y => [y]

def lineBusy (d : Dev) (l : Nat) : Bool := (tfind d.coh.busy l).isSome

def setBusy (d : Dev) (l : Nat) (b : Option Busy) : Dev :=
  modCoh d fun c => { c with busy := match b with | none => tdel c.busy l | some v => tput c.busy l v }

/-- A message to an agent. -/
def sendMsg (d : Dev) (x l : Nat) (ev : CohEv) (v : Line := 0) : Dev :=
  modCoh d fun c => { c with msgs := c.msgs ++ [{ dst := x, line := l, ev := ev, data := v }] }

/-- Snoops and Invs are counted as they are sent (R277). -/
def sendSnoops (d : Dev) (l : Nat) (ss : List (Nat × CohEv)) : Dev :=
  ss.foldl (fun d s => incSat (sendMsg d s.1 l s.2) fBtcSnoops) d

/-- A write under byte enables (R268). -/
def mergeLine (be : BitVec 64) (old new : Line) : Line :=
  (List.range 64).foldl (fun v i =>
    if be.getLsbD i then (v &&& ~~~(0xFF#512 <<< (8 * i))) ||| (new &&& (0xFF#512 <<< (8 * i))) else v) old

/-- Word `w` of a line, and the line with it replaced. -/
def getW (v : Line) (w : Nat) : W64 := v.extractLsb' (64 * w) 64
def setW (v : Line) (w : Nat) (x : W64) : Line :=
  (v &&& ~~~((0xFFFFFFFFFFFFFFFF#64).setWidth 512 <<< (64 * w))) ||| (x.setWidth 512 <<< (64 * w))

/-- ADD and CAS of R30 on a line: the old value, the line afterwards, and whether a CAS failed. -/
def atomOp (op : AtmOp) (v : Line) : W64 × Line × Bool :=
  match op with
  | .add w k => let o := getW v w.toNat; (o, setW v w.toNat (o + k), false)
  | .cas w c s => let o := getW v w.toNat; if o = c then (o, setW v w.toNat s, false) else (o, v, true)

/-- Is the record of a line on chip at the home? Manifest lines count as spilled (R272). -/
def lineOnChip (d : Dev) (l : Nat) : Bool :=
  match lineRec d.scu.cfg l with
  | some r => onChip d r
  | none => false

/-- The snoops that the home sends for a granted request (R269). -/
def snoopsOf (dir : Option DirSt) (x : Nat) : CReq → List (Nat × CohEv)
  | .rds => match dir with
    | some (.sharedF f _) => [(f, .snpS)]
    | some (.owner y) => [(y, .snpS)]
    | _ => []
  | .rdx => match dir with
    | some (.shared s) => (s.filter (· ≠ x)).map fun a => (a, .inv)
    | some (.sharedF f s) => (f, .snpX) :: (s.filter (· ≠ x)).map fun a => (a, .inv)
    | some (.owner y) => [(y, .snpX)]
    | none => []
  | .upg => match dir with
    | some v => (v.agents.filter (· ≠ x)).map fun a => (a, .inv)
    | none => []
  | .wrpart .. => match dir with
    | some (.owner y) => if y = x then [] else [(y, .snpX)]
    | some v => (v.agents.filter (· ≠ x)).map fun a => (a, .inv)
    | none => []
  | .atm _ | .home true _ => match dir with
    | some (.owner y) => [(y, .snpX)]
    | some v => v.agents.map fun a => (a, .inv)
    | none => []
  | .home false _ => match dir with
    | some (.owner y) => [(y, .snpCur)]
    | _ => []
  | _ => []

/-! ### The harbour region -/

/-- The harbour read that a grant from the home's copy of a manifest line makes (R269, R34). -/
def readCopy (d : Dev) (l : Nat) (b : Busy) : Dev :=
  if isManLine d.scu.cfg l && !b.data then harbourRead d (l - baseA d.scu.cfg) else d

/-- A manifest line that the home has written goes to the harbour region, its copy (R269). -/
def writeCopy (d : Dev) (l : Nat) : Dev :=
  if isManLine d.scu.cfg l then harbourWrite d (l - baseA d.scu.cfg) (lineWords (homeCopy d l)) else d

/-- May dirty data of a line be written to its copy now (R266)? -/
def copyOpen (d : Dev) (l : Nat) : Bool :=
  match manAt d l with
  | some m => manDurable d m
  | none => true

/-- Word of an atomic. -/
def atomWord : AtmOp → Nat
  | .add w _ => w.toNat
  | .cas w _ _ => w.toNat

/-- Mirror that carries an atomic at memory: A, or the survivor (R272). -/
def atomMirror (d : Dev) : Nat := if mirrorSt d 0 = 0 then 0 else 1

/-- An atomic at memory (R272): to the mirror in use, then the new value as an 8-byte write to the other, or to the spare that is being
resilvered; a CAS that failed writes nothing. -/
def atMemory (d : Dev) (l : Nat) (op : AtmOp) (failed : Bool) : Dev :=
  let o := l - baseA d.scu.cfg + 8 * atomWord op
  let m := atomMirror d
  let d := memReq (incSat d fBtcAtMem) (.harbourAtomic (mirrorAddr d m o) op)
  if failed || mirrorSt d (1 - m) = 1 then d
  else memReq d (.harbourWrite (mirrorAddr d (1 - m) o) [getW (homeCopy d l) (atomWord op)])

/-- The harbour region's copy of a spilled record follows an atomic at memory. -/
def copyLine (d : Dev) (l : Nat) : Dev :=
  match lineRec d.scu.cfg l with
  | some r => copyBack d r
  | none => d

/-! ### Transactions (R267, R269) -/

/-- Is a queue entry the first for its line, and the line free? -/
def atHead (d : Dev) (e : Nat × Nat × CReq) : Bool := !lineBusy d e.1 && (d.coh.queue.find? fun f => f.1 = e.1) = some e

/-- A home step reaches its line: the copies are recalled, or the owner's data asked for. Number 17 stands for the home. -/
def serveHome (d : Dev) (l : Nat) (wr step : Bool) : Dev :=
  let ss := snoopsOf (dirOf d l) 17 (.home wr step)
  let b : Busy := { agent := 17, req := .home wr step, await := ss.map (·.1), granted := false }
  if ss.isEmpty then (if step then setBusy d l (some b) else d) else sendSnoops (setBusy d l (some b)) l ss

def CReq.isHome : CReq → Bool
  | .home .. => true
  | _ => false

/-- A home step that waits for a line is served when its turn has come. -/
def pumpHome (d : Dev) : Dev :=
  match takeFirst (fun e => e.2.2.isHome && atHead d e) d.coh.queue with
  | some (e, rest) => serveHome (modCoh d fun c => { c with queue := rest }) e.1 true false
  | none => d

/-- A line's busy period ends. -/
def endBusy (d : Dev) (l : Nat) : Dev := pumpHome (setBusy d l none)

/-- The grant after the last answer (R269). A requester of number 16 stands for a pilot that a lock-up reset took: the
transaction ends without recording a holder and without Done (R275). -/
def grantLine (d : Dev) (l : Nat) (b : Busy) : Dev :=
  let x := b.agent
  let gone := x = 16
  let copy := homeCopy d l
  let held : Busy := { b with await := [], granted := true }
  match b.req with
  | .rds =>
    if gone then endBusy (match dirOf d l with | some (.owner y) => setDir d l (some (.sharedF y [])) | _ => d) l
    else
      let d := readCopy d l b
      let (d, ev) := match dirOf d l with
        | some (.sharedF f s) => (setDir d l (some (.sharedF f (s ++ [x]))), CohEv.dataS)
        | some (.owner y) => (setDir d l (some (.sharedF y [x])), CohEv.dataS)
        | some (.shared s) => (setDir d l (some (.sharedF x s)), CohEv.dataF)
        | none => (setDir d l (some (.owner x)), CohEv.dataC)
      setBusy (sendMsg d x l ev copy) l (some held)
  | .rdx =>
    if gone then endBusy (setDir d l none) l
    else setBusy (sendMsg (setDir (readCopy d l b) l (some (.owner x))) x l .dataD copy) l (some held)
  | .upg =>
    if gone then endBusy (setDir d l none) l
    else setBusy (sendMsg (setDir d l (some (.owner x))) x l .cmp) l (some held)
  | .wrpart be v =>
    let has := !gone && (match dirOf d l with | some s => s.agents.contains x | none => false)
    let d := writeCopy (putHome d l (mergeLine be copy v)) l
    let d := setDir d l (if has then some (.owner x) else none)
    let d := if gone then d else modCoh d fun c => { c with wrCmp := c.wrCmp ++ [(x, l, has)] }
    endBusy d l
  | .atm op =>
    let (old, nv, failed) := atomOp op copy
    let d := setDir (putHome d l nv) l none
    let near := lineOnChip d l
    let d := if near then incSat d fBtcAtHome else copyLine (atMemory d l op failed) l
    let d := if gone then d else modCoh d fun c => { c with atmRsp := c.atmRsp ++ [(x, l, old)] }
    if near || gone then endBusy d l else setBusy d l (some held)
  | .home wr step =>
    let d := if wr then setDir d l none else d
    if step then setBusy d l (some held) else endBusy d l
  | _ => endBusy d l

/-- The home takes a request whose grant has come (R267, R269). A write-back whose sender is no longer the owner is dropped; the data of
the owner are the newest, which `homeCopy` shows. [log 22 DEDUCED safe] -/
def homeServe (d : Dev) (x l : Nat) (q : CReq) : Dev :=
  match q with
  | .wb _ =>
    if dirOf d l = some (.owner x) then sendMsg (writeCopy (setDir d l none) l) x l .wbAck
    else sendMsg (incSat d fBtcStaleWb) x l .wbAck
  | .evc => dropAgent d l x
  | .push | .home .. => d
  | q =>
    let q := match q with
      | .upg => match dirOf d l with
        | some (.shared s) => if s.contains x then .upg else .rdx
        | some (.sharedF f s) => if f = x || s.contains x then .upg else .rdx
        | _ => .rdx
      | q => q
    let ss := snoopsOf (dirOf d l) x q
    let b : Busy := { agent := x, req := q, await := ss.map (·.1), granted := false }
    if ss.isEmpty then grantLine d l b else sendSnoops (setBusy d l (some b)) l ss

/-- An answer reaches the home (R269): dirty data of a manifest line are written to the copy, a RspI removes the agent. -/
def takeAnswer (d : Dev) (x l : Nat) (data : Option Line) (miss : Bool) : Dev :=
  match tfind d.coh.busy l with
  | none => d
  | some b =>
    if !b.await.contains x then d
    else
      let d := if data.isSome then writeCopy d l else d
      let d := if miss then dropAgent d l x else d
      let b := { b with await := b.await.filter (· ≠ x), data := b.data || !miss, dirty := b.dirty || data.isSome }
      if b.await.isEmpty then grantLine d l b else setBusy d l (some b)

/-! ### Home steps (R267, R269) -/

/-- May a home step that reads, or writes, a line run: no agent holds what it would see stale or leave stale, or the copies have been
recalled for it? -/
def homeOpen (d : Dev) (wr : Bool) (l : Nat) : Bool :=
  match tfind d.coh.busy l with
  | some b => (match b.req with | .home w true => b.await.isEmpty && (w || !wr) | _ => false)
  | none => (match dirOf d l with | none => true | some (.owner _) => false | some _ => !wr)

/-- The arbiter takes a home step's line where it is free; otherwise the step waits. -/
def homeAsk (d : Dev) (wr : Bool) (l : Nat) : Dev :=
  if homeOpen d wr l then d
  else match tfind d.coh.busy l with
    | some b => (match b.req with
      | .home _ true => if b.await.isEmpty then serveHome d l wr true else d
      | _ => d)
    | none => if 256 ≤ d.coh.busy.length then d else serveHome d l wr true

/-- The lines held for a home step are free as it is made. -/
def homeEnd (d : Dev) (ls : List Nat) : Dev :=
  ls.foldl (fun d l => match tfind d.coh.busy l with
    | some b => (match b.req with | .home _ true => endBusy d l | _ => d)
    | none => d) d

/-- A home step over lines, each with whether the step writes it: it runs in one instant once every line is open to it; until then its
input stays where it is and the copies are recalled (R267, R269). [log 22 DEDUCED safe] -/
def homeStep (d : Dev) (ls : List (Bool × Nat)) (f : Dev → Dev) : Dev :=
  if ls.all (fun x => homeOpen d x.1 x.2) then f (homeEnd d (ls.map (·.2))) else ls.foldl (fun d x => homeAsk d x.1 x.2) d

/-- Lines of a record, each read or written. -/
def recSteps (d : Dev) (wr : Bool) (r : RecId) : List (Bool × Nat) := (recLines d.scu.cfg r).map fun l => (wr, l)

/-- Address of line `n` of a berth record or a context record. -/
def berthLine (d : Dev) (i n : Nat) : Nat := baseA d.scu.cfg + offBerth + i * 128 + n * 64
def ctxLine (d : Dev) (i n : Nat) : Nat := baseA d.scu.cfg + offCtx + i * 512 + n * 64

/-- A change of lines that a step of another unit makes at the home: it is made at once, and the copies are recalled behind it.
[log 22 DEDUCED safe] -/
def recallCopies (d : Dev) (ls : List Nat) : Dev :=
  ls.foldl (fun d l =>
    if (dirOf d l).isNone && !lineBusy d l then d
    else if !lineBusy d l && d.coh.busy.length < 256 && !d.coh.queue.any (fun e => e.1 = l) then serveHome d l true false
    else if d.coh.queue.any (fun e => e.1 = l && e.2.2.isHome) then d
    else modCoh d fun c => { c with queue := c.queue ++ [(l, 17, .home true false)] }) d

/-- Manifests are given up: their lines return to FREE, which their copies follow (R266). -/
def dropMans (d : Dev) (gone : Manifest → Bool) : Dev :=
  recallCopies (modMfu d fun m => { m with mans := m.mans.filter fun x => !gone x })
    ((d.mfu.mans.filter gone).map fun m => baseA d.scu.cfg + m.off)

/-- The first FREE line of the manifest table. [log 21 DEDUCED unsafe] -/
def freeManSlot (d : Dev) : Nat :=
  ((List.range (d.mfu.mans.length + 1)).find? fun n => !d.mfu.mans.any fun m => m.slot = n).getD 0

/-- The home pushes a line it shows I to an agent (R273); the line is busy until the answer. -/
def pushLine (d : Dev) (x l : Nat) : Dev :=
  if (dirOf d l).isSome || lineBusy d l || 256 ≤ d.coh.busy.length then d
  else sendMsg (setBusy d l (some { agent := x, req := .push, await := [x], granted := false })) x l .push (homeCopy d l)

/-! ### Agents that stop -/

/-- An agent's request joins the arbiter's queue for the line (R267). [log 22 DEDUCED safe] -/
def sendReq (d : Dev) (x l : Nat) (q : CReq) : Dev := modCoh d fun c => { c with queue := c.queue ++ [(l, x, q)] }

/-- An agent evicts every line it holds, with Evc (R356). -/
def evictAgent (d : Dev) (x : Nat) : Dev :=
  (d.coh.lines.filter fun e => e.1 = x && (e.2.2.1 = .s || e.2.2.1 = .f || e.2.2.1 = .c)).foldl
    (fun d e => sendReq (setLine d x e.2.1 .i 0) x e.2.1 .evc) d

/-- The home learns that a pilot is reset (R275). -/
def forgetAgent (d : Dev) (x : Nat) : Dev :=
  let d := d.coh.dir.foldl (fun d e => dropAgent d e.1 x) d
  let d := modCoh d fun c => { c with
    lines := c.lines.filter fun e => e.1 ≠ x
    msgs := c.msgs.filter fun m => m.dst ≠ x
    queue := c.queue.filter fun e => e.2.1 ≠ x
    answers := c.answers.filter fun a => a.1 ≠ x
    atmRsp := c.atmRsp.filter fun a => a.1 ≠ x
    wrCmp := c.wrCmp.filter fun a => a.1 ≠ x
    dones := c.dones.filter fun a => a.1 ≠ x
    busy := c.busy.filterMap fun b =>
      if b.2.agent = x then (if b.2.granted then none else some (b.1, { b.2 with agent := 16 })) else some b }
  let d := d.coh.busy.foldl (fun d b => if b.2.await.contains x then takeAnswer d x b.1 none true else d) d
  d.coh.queue.foldl (fun d _ => pumpHome d) d

end Sys2Proof.Machine
end

