-- ==== Sys2Proof/Machine/Words.lean ====
section
/-!
DEFINITION. Records as 64-bit words, in the layouts the chapters give: fault records (17 R296), trace records (21), and the
words every record is built from.
-/

namespace Sys2Proof.Machine

/-! ### The fault record (R296) -/

def engWords (e : Option EngEnt) : List W64 :=
  match e with
  | some e => [mkW [(63, 1), (62, bit01 e.fault), (56, e.quay), (46, e.station), (0, min e.tiles 0xFFFF)], e.info]
  | none => [0, 0]

/-- The 32 words of a fault record. -/
def faultWords (r : FaultRec) : List W64 :=
  let ws : List W64 :=
    [mkW [(32, r.seq), (24, r.cause), (16, r.unit), (8, r.kind), (3, bit01 r.slot), (2, bit01 (r.secrecy ≠ .open)),
          (0, r.secrecy.code)],
     mkW [(32, r.context), (0, r.berth)], r.manifestId, mkW [(32, r.headIdx), (16, r.line), (8, r.opcode)],
     mkW [(48, r.operatorId), (32, r.layerId), (0, r.tag)], mkW [(24, r.ref % 2 ^ 40), (0, r.following)],
     mkW [(0, r.addr)], mkW [(0, r.time)], mkW [(16, r.tile), (8, r.piece % 256)], mkW [(32, r.argA), (0, r.argB)], 0, 0] ++
    (List.range 8).flatMap (fun i => engWords (r.engines[i]?)) ++ [0, 0, 0]
  ws ++ [crcWords ws]

/-! ### The trace record (21) -/

/-- The 4 words of a trace record; RTYPE 0 is an empty record. -/
def traceWords (r : TraceRec) : List W64 :=
  [mkW [(60, r.rtype), (58, r.secrecy), (57, bit01 r.unaligned), (56, bit01 r.replayed), (48, bit01 r.perStation),
        (32, r.lap), (26, r.quay), (16, r.station), (0, r.count)],
   mkW [(0, r.time)], r.tags, r.addr]

/-- A LOSS record (R363): bit 0 of TAGS tells the stream. -/
def lossRec (d : Dev) (instr : Bool) (q n : Nat) : TraceRec :=
  { rtype := 4, secrecy := 0, unaligned := !flag d fTideAligned, replayed := false, perStation := false, lap := 0,
    quay := q, station := 0, count := min n 0xFFFF, time := tideW d, tags := BitVec.ofNat 64 (bit01 instr), addr := 0 }

end Sys2Proof.Machine
end

