-- ==== Sys2Proof/Machine/Debug.lean ====
section
/-!
DEFINITION. Halt, trace and counters (21), with what the security state admits of them (20 R348, R351).
-/

namespace Sys2Proof.Machine

/-! ### Pilots -/

/-- Is a pilot a translator (R119, PILOT_ROLE)? -/
def isTranslator (d : Dev) (p : Nat) : Bool := nbit d.scu.cfg.pilotRole p

/-- Does a sharing domain belong to a Sealed context (R351)? -/
def domSealed (d : Dev) : Domain → Bool
  | .pid _ => false
  | .ctx h => (ctxAt d (ctxIdx h)).secrecy = .sealed

/-- A translation running on a pilot returns to the queue, to start anew on another (R120). -/
def dropXlate (d : Dev) (p : Nat) (onlySealed : Bool) : Dev :=
  let stop := fun (t : Xlate) =>
    if t.pilot = some p && (!onlySealed || domSealed d t.domain) then { t with pilot := none, checked := t.own } else t
  modPlx d fun x => { x with queue := x.queue.map stop }

def fPilotMask (p : Nat) : Nat := 2 ^ p

/-- A pilot halts (R356, R351): it stops, discards a Sealed translation, evicts its coherent lines, sets its bit and
raises DTC event 0; a MARKER is written; its instruction trace ends (R362). -/
def haltPilot (d : Dev) (p : Nat) : Dev :=
  if !pilotRuns d p || inReset d 4 then d
  else
    let d := evictAgent (dropXlate (wakeUnit d 4) p true) p
    let d := setBit d fDtcHalted p
    let d := clrBit d fDtcInstrEn p
    marker (raiseEvent d 10 0) 4 (fPilotMask p)

/-- A halted pilot goes on (R358). -/
def resumePilot (d : Dev) (p : Nat) : Dev :=
  if !fbit d fDtcHalted p then d
  else
    let d := modPilot (clrBit d fDtcHalted p) p fun q => { q with runs := q.runs + 1, words := [] }
    marker (raiseEvent d 10 7) 5 (fPilotMask p)

def eachPilot (d : Dev) (mask : Nat) (f : Dev → Nat → Dev) : Dev :=
  (List.range 8).foldl (fun d p => if nbit mask p then f d p else d) d

/-- A refused halt, step or breakpoint write (R356, R350). -/
def refuseHalt (d : Dev) : Dev := countRefused (raiseEvent (setFld d fDtcRefused 1) 10 4)

/-- An entry into Retain or Off under way is abandoned (R338, R349). -/
def abandonPower (d : Dev) : Dev :=
  if fld d fPwrState = 5 then
    let d := incSat (setFld (setFld d fPwrTarget 0) fPwrState 0) fPwrAbandoned
    let d := modScu d fun s => { s with retainReq := false, rst := if s.goingOff then .none else s.rst, goingOff := false }
    raiseEvent d 0 6
  else d

/-- DTC_HALT_CMD HALT (R356, R348, R349). -/
def haltOp (d : Dev) (mask : Nat) : Dev :=
  if !admits d 0 1 then refuseHalt d
  else
    let d := abandonPower (retainWakeOp d)
    eachPilot d mask haltPilot

/-- DTC_HALT_CMD RESUME (R358). -/
def resumeOp (d : Dev) (mask : Nat) : Dev := eachPilot d mask resumePilot

/-- DTC_HALT_CMD STEP (R358): one instruction each, after which they are halted again without event 0. -/
def stepOp (d : Dev) (mask : Nat) : Dev :=
  if !admits d 0 1 then refuseHalt d
  else eachPilot d mask fun d p =>
    if fbit d fDtcHalted p then modPilot d p fun q => { q with runs := q.runs + 1, words := [] } else d

/-- HALT (R356). [log 9 DEDUCED safe] -/
def execHalt (pilots : BitVec 8) (s : State) : Host.Outcome State Fault Refusal :=
  onUnit 14 (fun d => haltOp d pilots.toNat) s

/-- RESUME (R358). -/
def execResume (pilots : BitVec 8) (s : State) : Host.Outcome State Fault Refusal :=
  onUnit 14 (fun d => resumeOp d pilots.toNat) s

/-- STEP (R358). -/
def execStepPilots (pilots : BitVec 8) (s : State) : Host.Outcome State Fault Refusal :=
  onUnit 14 (fun d => stepOp d pilots.toNat) s

/-- The first armed breakpoint of a pilot at an address (R358). -/
def bkptAt (d : Dev) (p addr : Nat) : Option Nat :=
  (List.range 4).find? fun n => flag d (fDtcBpEn n) && fld d (fDtcBpAddr n) = addr && fbit d (fDtcBpMask n) p

/-- BREAKPOINT_HIT (R358): the pilot halts before the instruction, with every pilot of the mask when GROUP is 1. -/
def execBreakpointHit (pilot : BitVec 3) (addr : BitVec 57) (s : State) : Host.Outcome State Fault Refusal :=
  onUnit 14 (fun d =>
    let p := pilot.toNat
    if !pilotRuns d p || inReset d 4 then d
    else match bkptAt d p addr.toNat with
      | none => d
      | some n =>
        let d := raiseEvent (haltPilot d p) 10 1
        if flag d (fDtcBpGroup n) then eachPilot d (fld d (fDtcBpMask n)) haltPilot else d) s

/-! ### The state of a halted pilot (R359) -/

/-- A register or memory word of a pilot: what a debugger wrote while it is halted, a free value otherwise.
[log 39 DESIGN CHOICE safe] -/
def pilotWordOf (d : Dev) (p space i : Nat) : W64 :=
  let q := at' {} d.dtc.pilots p
  match q.words.find? fun w => w.1 = space && w.2.1 = i with
  | some w => w.2.2
  | none => Config.pilotWord p q.runs space i

/-- Does the selection name a word of a halted pilot? 0 DONE, 2 BADSEL, 3 REFUSED. -/
def pdbgCheck (d : Dev) : Nat :=
  let p := fld d fDtcPdPilot
  if !admits d 0 1 then 3
  else if !fbit d fDtcHalted p || (!flag d fDtcPdSpace && 32 < fld d fDtcPdIndex) then 2 else 0

/-- A write of DTC_PDBG_SEL: the selection, then the read (R359). -/
def pdbgSel (d : Dev) (v : W64) : Dev :=
  let d := setFld (setFld (setFld d fDtcPdPilot (getBits v 63 61)) fDtcPdSpace (getBits v 60 60)) fDtcPdIndex (getBits v 14 0)
  let r := pdbgCheck d
  let d := setFld d fDtcPdResult r
  if r = 0 then setFld d fDtcPdData (pilotWordOf d (fld d fDtcPdPilot) (fld d fDtcPdSpace) (fld d fDtcPdIndex)).toNat
  else if r = 3 then countRefused d else d

/-- A write of DTC_PDBG_DATA: the selected word (R359). [log 39 DESIGN CHOICE safe] -/
def pdbgData (d : Dev) (v : W64) : Dev :=
  let r := pdbgCheck d
  let d := setFld d fDtcPdResult r
  let sp := fld d fDtcPdSpace; let i := fld d fDtcPdIndex
  if r = 0 then
    modPilot (setFld d fDtcPdData v.toNat) (fld d fDtcPdPilot) fun q =>
      { q with words := (q.words.filter fun w => !(w.1 = sp && w.2.1 = i)) ++ [(sp, i, v)] }
  else if r = 3 then countRefused d else d

/-- PDBG_SEL_WRITE (R359). -/
def execPdbgSelWrite (v : BitVec 64) (s : State) : Host.Outcome State Fault Refusal := onUnit 14 (fun d => pdbgSel d v) s

/-- PDBG_DATA_WRITE (R359). -/
def execPdbgDataWrite (v : BitVec 64) (s : State) : Host.Outcome State Fault Refusal := onUnit 14 (fun d => pdbgData d v) s

/-! ### The trace SRAM (R363) -/

/-- A record is written where WR points; the pointer moves on, a lap further at the end. -/
def sramWrite (d : Dev) (r : TraceRec) : Dev :=
  let i := fld d fDtcWr
  let r := { r with lap := fld d fDtcLap }
  let d := modDtc d fun t => { t with sram := tput t.sram i r }
  let d := if i + 1 = 65536 then incWrap (setFld d fDtcWr 0) fDtcLap else setFld d fDtcWr (i + 1)
  if r.rtype = 4 then raiseEvent d 10 3 else d

/-- Records the SRAM holds, as the pointer and the lap tell it. -/
def sramUsed (d : Dev) : Nat := fld d fDtcLap * 65536 + fld d fDtcWr

/-- A record that leaves its queue is written, or dropped and counted in STOP mode (R363). [log 61 DEDUCED unsafe] -/
def sramTake (d : Dev) (r : TraceRec) : Dev :=
  let instr := r.rtype = 3
  if !flag d fDtcMode then sramWrite d r
  else if instr then (if 57344 ≤ sramUsed d then incSat d fInstrLost else sramWrite d r)
  else if sramUsed d < 65535 then sramWrite d r
  else if sramUsed d = 65535 then raiseEvent (sramWrite (incSat d fCmdLost) (lossRec d false 0 1)) 10 2
  else incSat d fCmdLost

/-- Command records wait somewhere: at a quay, or a marker, or the LOSS record of a pilot (R363). [log 61 DEDUCED unsafe] -/
def cmdTraceWaits (d : Dev) : Bool :=
  (d.quays.any fun q => !q.traceQ.isEmpty) || !d.dtc.markers.isEmpty ||
    d.dtc.pilots.any fun p => match p.instrQ with | r :: _ => r.rtype = 4 | [] => false

/-- The quay whose turn it is: the next one, round, with a record waiting. [log 61 DEDUCED unsafe] -/
def traceTurn (d : Dev) : Option Nat :=
  ((List.range 56).map fun i => (d.dtc.rrQuay + 1 + i) % 56).find? fun q => !(quayAt d q).traceQ.isEmpty

/-- Is pilot `p` under instruction trace (R362)? [log 40 DESIGN CHOICE safe] -/
def instrTraced (d : Dev) (p : Nat) : Bool := fbit d fDtcInstrEn p && pilotRuns d p

/-- An INSTR record of the next branch of a traced pilot: source and target are free values. [log 40 DESIGN CHOICE safe] -/
def instrRec (d : Dev) (p : Nat) : TraceRec :=
  let b := Config.pilotBranch p d.freeCtr
  { rtype := 3, secrecy := 0, unaligned := !flag d fTideAligned, replayed := false, perStation := false, lap := 0,
    quay := p, station := 0, count := 0, time := tideW d, tags := b.1, addr := b.2 }

/-- The pilot writes its record into its queue of 16, or loses it. -/
def pushInstr (d : Dev) (p : Nat) : Dev :=
  let r := instrRec d p
  let d := { d with freeCtr := d.freeCtr + 1 }
  if (at' {} d.dtc.pilots p).instrQ.length < 16 then modPilot d p fun q => { q with instrQ := q.instrQ ++ [r] }
  else modPilot (incSat d fInstrLost) p fun q => { q with instrLost := q.instrLost + 1 }

/-- TRACE_RECORD (R362, R363): the record at the head of a source's queue goes to the SRAM. A traced pilot with nothing
queued first writes the record of its next branch. [log 61 DEDUCED unsafe] -/
def traceRecord (d : Dev) (src : TraceSrc) : Dev :=
  if flag d (fQuiesced 10) then d
  else match src with
  | .quay q =>
    let q := q.toNat
    if traceTurn d ≠ some q then d
    else match (quayAt d q).traceQ with
      | [] => d
      | r :: rest =>
        let d := modQuay d q fun u =>
          if u.traceLost = 0 then { u with traceQ := rest }
          else { u with traceQ := rest ++ [lossRec d false q u.traceLost], traceLost := 0 }
        sramTake (modDtc d fun t => { t with rrQuay := q }) r
  | .marker =>
    match d.dtc.markers with
    | [] => d
    | r :: rest => sramTake (modDtc d fun t => { t with markers := rest }) r
  | .pilot p =>
    let p := p.toNat
    let d := if (at' {} d.dtc.pilots p).instrQ.isEmpty && instrTraced d p then pushInstr d p else d
    match (at' {} d.dtc.pilots p).instrQ with
    | [] => d
    | r :: rest =>
      if r.rtype ≠ 4 && cmdTraceWaits d then d
      else
        let d := modPilot d p fun q =>
          if q.instrLost = 0 then { q with instrQ := rest }
          else { q with instrQ := rest ++ [lossRec d true p q.instrLost], instrLost := 0 }
        sramTake d r

def execTraceRecord (src : TraceSrc) (s : State) : Host.Outcome State Fault Refusal :=
  match src with
  | .quay q => if q.toNat < 56 then onUnit 14 (fun d => traceRecord d src) s else reservedOp
  | _ => onUnit 14 (fun d => traceRecord d src) s

/-- TRACE_RD_WRITE (R365). -/
def execTraceRdWrite (v : BitVec 64) (s : State) : Host.Outcome State Fault Refusal :=
  onUnit 14 (fun d => setFld d fDtcRd v.toNat) s

/-- A command record enters a quay's queue of 8, or is dropped and counted (R363); a quiesced DTC loses it (R370).
[log 61 DEDUCED unsafe] -/
def pushTrace (d : Dev) (q : Nat) (r : TraceRec) : Dev :=
  if flag d (fQuiesced 10) then incSat d fCmdLost
  else if (quayAt d q).traceQ.length < 8 then modQuay d q fun u => { u with traceQ := u.traceQ ++ [r] }
  else modQuay (incSat d fCmdLost) q fun u => { u with traceLost := u.traceLost + 1 }

/-! ### Counter sets (R367, R368) -/

/-- A query of a context is admitted by its class (R348): Open at Sealed, Confidential at Operator, Sealed never.
[log 68 DEDUCED unsafe] -/
def queryAdmitted (d : Dev) (c : Secrecy) : Bool :=
  match c with
  | .open => admits d 4 0
  | .confidential => admits d 4 1
  | .sealed => false

/-- Does a counter count cycles of a unit's own clock (R367): cycles of a sequencer stalled on index lines and on a full
descriptor buffer, and cycles of a quay with lch_valid high and lch_ready low? [log 60 DESIGN CHOICE safe] -/
def countsCycles (set n : Nat) : Bool := set = 1 && (n = 1 || n = 2) || set = 2 && n = 3

/-- The counters of the selection (R367). [log 59 DEDUCED unsafe, 60 DESIGN CHOICE safe] -/
def counterVals (d : Dev) (set inst b : Nat) : List Nat :=
  if set = 3 then tget [0, 0, 0, 0, 0] d.dtc.cmdCnt b
  else (List.range 12).map fun n =>
    if countsCycles set n then (Config.clockCycles set inst n d.now).toNat else tget 0 d.dtc.cnt (cntKey set inst n)

/-- TAG of R368, under the TAGS column of R361. [log 59 DEDUCED unsafe] -/
def tagOf (d : Dev) (b : Nat) : Nat :=
  if (ctxAt d (berthAt d b).ctxIdx).secrecy = .open && 1 ≤ d.scu.sec then tget 0 d.dtc.cmdTag b else 0

/-- Does an instance exist in a set? [log 59 DEDUCED unsafe] -/
def instOf (set inst : Nat) : Nat := if set = 0 then 0 else if set = 1 then inst % 16 else inst

/-- A sample of the selection (R367): counters, SEQ, RESULT, TAG and the tide time; DTC event 5. A quiesced DTC holds it (R53,
R370). [log 59 DEDUCED unsafe] -/
def sampleOp (d : Dev) : Dev :=
  if flag d (fQuiesced 10) then modDtc d fun t => { t with sampleDue := true }
  else
    let set := fld d fDtcCntSet
    let h := fld d fDtcCntHandle
    let b := berthIdx h
    let res :=
      if set = 3 then
        if !berthOk d h then 1
        else if queryAdmitted d (ctxAt d (berthAt d b).ctxIdx).secrecy then 0 else 3
      else if admits d 4 0 then 0 else 3
    if res = 3 then countRefused (setFld d fDtcCntResult 3)
    else if res = 1 then setFld d fDtcCntResult 1
    else
      let vs := counterVals d set (instOf set (fld d fDtcCntInst)) b
      let d := (List.range 16).foldl (fun d i => setFld d (fDtcCnt i) (vs.getD i 0)) d
      let d := setFld (setFld (setFld d fDtcCntResult 0) fDtcCntTag (if set = 3 then tagOf d b else 0)) fDtcCntTime (tideW d)
      raiseEvent (incWrap d fDtcCntSeq) 10 5

/-- SAMPLE (R367). -/
def execSample (s : State) : Host.Outcome State Fault Refusal := onUnit 14 sampleOp s

/-- PERIODIC_SAMPLE (R367): every PERIOD_US, when that is not 0. -/
def execPeriodicSample (s : State) : Host.Outcome State Fault Refusal :=
  onUnit 14 (fun d =>
    let p := fld d fDtcCntPeriod
    if p = 0 || flag d (fQuiesced 10) || d.now < d.dtc.lastPeriodic + us p then d
    else sampleOp (modDtc d fun t => { t with lastPeriodic := d.now })) s

/-- CLEAR (R367): the live counters of the selection. -/
def clearOp (d : Dev) : Dev :=
  let set := fld d fDtcCntSet
  let inst := instOf set (fld d fDtcCntInst)
  if set = 3 then modDtc d fun t => { t with cmdCnt := tdel t.cmdCnt (berthIdx (fld d fDtcCntHandle)) }
  else modDtc d fun t => { t with cnt := t.cnt.filter fun e => !(cntKey set inst 0 ≤ e.1 && e.1 ≤ cntKey set inst 15) }

def execClear (s : State) : Host.Outcome State Fault Refusal := onUnit 14 clearOp s

/-! ### Per-context queries (R369) -/

/-- The eight words of a query. [log 68 DEDUCED unsafe] -/
def queryWords (d : Dev) (h : Nat) : List Nat :=
  let i := ctxIdx h
  let r := ctxAt d i
  let berths := (d.btc.berth.filter fun b => b.2.ctxIdx = i && b.2.ctxGen = r.gen && b.2.state ≠ .free && b.2.state ≠ .retired).map (·.1)
  let bols := (d.blu.slots.filter fun s => s.2.state ≠ .free && s.2.state ≠ .retired && bolOwner s.2 = h).map (·.1)
  let outTiles := d.quays.foldl (fun n q => n + (q.out.filter fun t => t.desc.ctx = h).length) 0
  let waits := (d.blu.waits.filter fun w => match w.who with
    | .here k _ => d.cmds.any fun c => c.key = k && c.ctx = h
    | .away .. => false).length
  [r.berthCount * 2 ^ 32 + (berths.filter d.btc.hotBerth.contains).length,
   r.bollardCount * 2 ^ 32 + (bols.filter d.blu.hot.contains).length,
   outTiles, r.stationTime, r.tiles, r.blocksPeak * 2 ^ 32 + r.blocksHeld, r.harbourBytes,
   r.mooringsHeld * 2 ^ 32 + waits]

/-- A query of the context with handle `h` (R369): its words as of one instant, then RESULT, SEQ, BUSY and DTC event 6.
[log 15 DESIGN CHOICE unsafe, 68 DEDUCED unsafe] -/
def queryRun (d : Dev) (h : Nat) (resp : MemResp) : Dev :=
  let done := fun (d : Dev) (res : Nat) =>
    raiseEvent (setFld (incWrap (setFld d fDtcQResult res) fDtcQSeq) fDtcQBusy 0) 10 6
  if !ctxOk d h then done d 1
  else if !queryAdmitted d (ctxAt d (ctxIdx h)).secrecy then countRefused (done d 3)
  else if !onChip d (rCtx (ctxIdx h)) && resp ≠ .ok then done d 4
  else done ((List.range 8).foldl (fun d n => setFld d (fDtcQData n) ((queryWords d h).getD n 0)) d) 0

/-- DTC_CTXQ_CMD QUERY (R369): `resp` is the harbour read's answer when the record is spilled. While BUSY it is discarded and LOST
is set; a quiesced DTC holds it (R53, R370). [log 12 DEDUCED unsafe, 68 DEDUCED unsafe] -/
def queryOp (d : Dev) (resp : MemResp) : Dev :=
  let h := fld d fDtcQSel
  if flag d fDtcQBusy then setFld d fDtcQLost 1
  else if flag d (fQuiesced 10) then modDtc (setFld d fDtcQBusy 1) fun t => { t with ctxqOp := some (h, resp) }
  else queryRun d h resp

/-- A quiesce of the DTC ends: the query and the sample it held are made. -/
def dtcRelease (d : Dev) : Dev :=
  let op := d.dtc.ctxqOp; let due := d.dtc.sampleDue
  let d := modDtc d fun t => { t with ctxqOp := none, sampleDue := false }
  let d := match op with | some (h, r) => queryRun d h r | none => d
  if due then sampleOp d else d

def execQuery (r : MemResp) (s : State) : Host.Outcome State Fault Refusal := onUnit 14 (fun d => queryOp d r) s

end Sys2Proof.Machine
end

