-- ==== Sys2Proof/Machine/Net.lean ====
section
/-!
DEFINITION. Packets to other nodes (16 R283 to R288): reachability, queues, credits and the header that a packet carries
as it leaves; the export pairs of R290.
-/

namespace Sys2Proof.Machine

def partnerAt (d : Dev) (n : Nat) : Partner := tget {} d.fsa.partners n

def modPartner (d : Dev) (n : Nat) (f : Partner → Partner) : Dev :=
  modFsa d fun s => { s with partners := tset {} s.partners n (f (tget {} s.partners n)) }

/-- Can packets go to a node: ACTIVE, a route installed, and this node not ISOLATED (R280, R282)? -/
def reachable (d : Dev) (n : Nat) : Bool :=
  let p := partnerAt d n
  p.st = .active && p.primary.isSome && fld d fFsaState ≠ 2

/-- A partner holds packets (R286). -/
def Partner.active (p : Partner) : Bool := !p.queue.isEmpty || !p.inbox.isEmpty || !p.kept.isEmpty

def activePartners (d : Dev) : Nat := (d.fsa.partners.filter fun p => p.2.active).length

/-- All 1,024 partner entries hold packets and this node is none of them. -/
def entriesFull (d : Dev) (n : Nat) : Bool := !(partnerAt d n).active && 1024 ≤ activePartners d

/-- Is there room for a further packet of a unit: the partner's queue of 8, and one of 1,024 partner entries (R286)? -/
def queueRoom (d : Dev) (n : Nat) : Bool := (partnerAt d n).queue.length < 8 && !entriesFull d n

/-- A new partner that waits for an entry is counted once (R286). -/
def noteWait (d : Dev) (n : Nat) : Dev :=
  if entriesFull d n && !d.fsa.partWaiting.contains n then
    incSat (modFsa d fun s => { s with partWaiting := n :: s.partWaiting }) fFsaPartnerWaits
  else d

/-- LOW_REF of R283: REF of the oldest manifest that is not done; the end of the journal when there is none.
[log 56 DEDUCED unsafe] -/
def lowRef (d : Dev) : Nat :=
  (minBy d.lbu.nextLsn (fun m => m.lsn)
    (d.mfu.mans.filter fun m => m.st = .accepted || m.st = .logged)) % 2 ^ 40

/-- ACK: one past the highest PSEQ taken in order, a SIGNAL counting once it is durably applied (R283, R289). -/
def Partner.ack (p : Partner) : Nat := match p.waitAck with
  | (n, _) :: _ => n
  | [] => p.expect

/-- A packet with the header it bears as it leaves (R283). -/
def mkPacket (d : Dev) (n credit pseq : Nat) (body : Payload) : Packet :=
  { dest := BitVec.ofNat 32 n, src := BitVec.ofNat 32 (fld d fFsaId), credit := BitVec.ofNat 16 credit,
    pseq := BitVec.ofNat 32 pseq, ack := BitVec.ofNat 32 (partnerAt d n).ack, lowRef := BitVec.ofNat 40 (lowRef d),
    session := BitVec.ofNat 16 d.fsa.session, body := body }

/-- A packet leaves on a link: the link direction counts it (R284), and so does the BLOCK counter set.
[log 71 DESIGN CHOICE safe] -/
def emit (d : Dev) (link : Nat) (p : Packet) : Dev :=
  let d := modFsa d fun s => { s with sent := s.sent ++ [(link, p)],
                                      links := modAt s.links link fun l => { l with tx := l.tx + 1 } }
  count d 0 0 10

/-- The first queued packet of a partner leaves, if a credit and a route are there (R286). -/
def sendHead (d : Dev) (n : Nat) : Dev :=
  let p := partnerAt d n
  match p.primary, takeFirst (fun o => o.sent.isNone) p.queue with
  | some link, some (o, _) =>
    if fld d fFsaCredits ≤ p.used || !reachable d n then d
    else
      let d := emit d link (mkPacket d n p.owed p.nextSeq o.body)
      modPartner d n fun p =>
        { p with used := p.used + 1, nextSeq := (p.nextSeq + 1) % 2 ^ 32, owed := 0,
                 queue := (p.queue.takeWhile fun x => x.sent.isSome) ++
                   [{ o with pseq := p.nextSeq, credit := p.owed, sent := some (d.now, link) }] ++
                   ((p.queue.dropWhile fun x => x.sent.isSome).drop 1) }
  | _, _ => d

/-- A unit's packet joins its partner's queue and leaves at once where credits allow. Nothing is sent to a node that is
not reachable (R294). -/
def sendPkt (d : Dev) (n : Nat) (body : Payload) (of : Option (CmdId × Nat) := none) : Dev :=
  if !reachable d n then d
  else
    let first := (partnerAt d n).queue.all fun o => o.sent.isSome
    let d := modPartner d n fun p => { p with queue := p.queue ++ [{ pseq := 0, body := body, of := of, sent := none }] }
    let d := modFsa d fun s => { s with partWaiting := s.partWaiting.filter (· ≠ n) }
    if first then sendHead d n else d

/-- Has the packet of a command's entry left this node? -/
def hasLeft (d : Dev) (n : Nat) (k : CmdId) (entry : Nat) : Bool :=
  !((partnerAt d n).queue.any fun o => o.of = some (k, entry) && o.sent.isNone)

/-! ### Acknowledgement (R285, R289) -/

/-- An ACK_ONLY leaves: it takes no credit and no PSEQ of its own. [log 50 DEDUCED unsafe] -/
def ackNow (d : Dev) (n : Nat) : Dev :=
  let p := partnerAt d n
  match p.primary with
  | some link =>
    if !reachable d n then d
    else modPartner (emit d link (mkPacket d n p.owed p.nextSeq .ackOnly)) n fun p => { p with owed := 0 }
  | none => d

/-- The SIGNALs of partners whose records are durable are acknowledged (R289). [log 50 DEDUCED unsafe] -/
def fabricAcks (d : Dev) : Dev :=
  let due := fun (x : Nat × Option Nat) => match x.2 with | some l => decide (l ≤ d.lbu.durable) | none => false
  d.fsa.partners.foldl (fun d (e : Nat × Partner) =>
    match e.2.waitAck with
    | x :: _ => if due x then
        ackNow (modPartner d e.1 fun p => { p with waitAck := p.waitAck.dropWhile due }) e.1 else d
    | [] => d) d

/-! ### The inbound buffer (R286) -/

/-- The first packet of a partner in its inbound buffer. -/
def headIn (d : Dev) (n : Nat) : Option Packet := (partnerAt d n).inbox.head?

def firstIn (d : Dev) (n : Nat) : Option Payload := (headIn d n).map (·.body)

/-- The first packet of a partner is taken out, and its credit returned. -/
def takeIn (d : Dev) (n : Nat) : Dev :=
  ackNow (modPartner d n fun p => { p with inbox := p.inbox.drop 1, owed := p.owed + 1 }) n

/-! ### Export pairs (R290) -/

/-- Every export pair of a bollard is removed, each with a CAP_NOTE to its partner (R290). -/
def removePairs (d : Dev) (h : Nat) : Dev :=
  let ps := d.fsa.exports.filter fun e => e.1 = h
  let d := modFsa d fun s => { s with exports := s.exports.filter fun e => e.1 ≠ h }
  ps.foldl (fun d e => sendPkt d e.2 (.capNote (BitVec.ofNat 32 h) false)) d

end Sys2Proof.Machine
end

