-- ==== Sys2Proof/Machine/Bol.lean ====
section
/-!
DEFINITION. Bollard steps (10): what a signal, a take, an arrival or a setting by hand does to VALUE, the waits it meets,
the watch it fires, and the refusals of R178.
-/

namespace Sys2Proof.Machine

/-! ### VALUE by kind (R168) -/

def capacityOf (r : BolRec) : Nat := r.param.toNat % 2 ^ 63
def participantsOf (r : BolRec) : Nat := r.param.toNat % 2 ^ 16
def bgenOf (v : W64) : Nat := v.toNat / 2 ^ 32
def arrCurOf (v : W64) : Nat := v.toNat / 2 ^ 16 % 2 ^ 16
def arrNextOf (v : W64) : Nat := v.toNat % 2 ^ 16
def mkBarrier (g c x : Nat) : W64 := BitVec.ofNat 64 (g % 2 ^ 32 * 2 ^ 32 + c % 2 ^ 16 * 2 ^ 16 + x % 2 ^ 16)

/-- (a − b) modulo 2^64 and 2^32. -/
def sub64 (a b : W64) : Nat := (a - b).toNat
def sub32 (a b : Nat) : Nat := (a + 2 ^ 32 - b % 2 ^ 32) % 2 ^ 32

/-- The kind that a condition or operation code needs (R105). -/
def kindOfCode (code : Nat) : Option BolKind :=
  if code = 1 then some .fence else if code = 2 then some .counter else if code = 3 then some .barrier
  else if code = 4 || code = 5 then some .flag else none

/-! ### Operations (R179, R180, R182) -/

/-- What an operation on a bollard comes to: the new VALUE, or the row of R178 under which it is not applied. -/
inductive SigOut where
  | ok (v : W64)
  | no (row : RefuseRow)
  deriving DecidableEq, Repr

/-- FENCE_SET (R180). -/
def fenceSetOp (f v : W64) : SigOut := if sub64 v f < 2 ^ 63 then .ok v else .no .backward

/-- COUNTER_PUT (R179). -/
def counterPutOp (cap : Nat) (u v : W64) : SigOut :=
  if cap < u.toNat + v.toNat then .no .counterOver else .ok (u + v)

/-- An arrival for generation `v` at a barrier of `n` participants (R182). -/
def arriveOp (n : Nat) (b : W64) (v : Nat) : SigOut :=
  let g := bgenOf b; let c := arrCurOf b; let x := arrNextOf b
  let e := sub32 v g
  if e = 0 then (if n ≤ c + 1 then .ok (mkBarrier (g + 1) x 0) else .ok (mkBarrier g (c + 1) x))
  else if e = 1 then (if n ≤ x + 1 then .no .barrierOver else .ok (mkBarrier g c (x + 1)))
  else if e < 2 ^ 31 then .no .barrierOver else .no .barrierLate

/-- A signal operation on a slot (R179); a code that does not match KIND is refused (R105). -/
def sigOp (r : BolRec) (code : Nat) (v : W64) : SigOut :=
  if kindOfCode code ≠ some r.kind then .no .kind
  else match r.kind with
    | .fence => fenceSetOp r.value v
    | .counter => counterPutOp (capacityOf r) r.value v
    | .barrier => arriveOp (participantsOf r) r.value (v.toNat % 2 ^ 32)
    | .flag => .ok (if code = 4 then 1 else 0)

/-- Does a wait condition hold, a COUNTER_TAKE apart from its turn (R173)? -/
def condHolds (r : BolRec) (code : Nat) (v : W64) : Bool :=
  match r.kind with
  | .fence => sub64 r.value v < 2 ^ 63
  | .counter => v.toNat ≤ r.value.toNat
  | .barrier => let e := sub32 (bgenOf r.value) (v.toNat % 2 ^ 32); 1 ≤ e && e < 2 ^ 31
  | .flag => if code = 4 then r.value = 1 else r.value = 0

/-- Does a bollard meet its watch condition (R186)? -/
def watchHolds (r : BolRec) : Bool :=
  match r.kind with
  | .fence => sub64 r.value r.watchValue < 2 ^ 63
  | .counter => r.watchValue.toNat ≤ r.value.toNat
  | .barrier => sub32 (bgenOf r.value) (r.watchValue.toNat % 2 ^ 32) < 2 ^ 31
  | .flag => r.value.toNat % 2 = r.watchValue.toNat % 2

/-! ### A step of a slot -/

/-- Watch writes whose records are durable leave, and their events are raised (R186, R250). -/
def sendWatches (d : Dev) : Dev :=
  let due := d.blu.watches.filter fun w => !w.sent && w.need ≤ d.lbu.durable
  due.foldl (fun d w =>
    let c := ctxAt d (ctxIdx w.owner)
    let d := memReq d (.watchWrite c.asid c.keyid c.pid w.va w.value)
    let d := modBlu d fun b => { b with watches :=
      (b.watches.filter fun x => x ≠ w && !(x.sent && x.handle = w.handle)) ++ [{ w with sent := true }] }
    if w.irq then raiseEvent d 5 0 else d) d

/-- A watch fires where it is armed and its condition holds (R186); its write and event wait for the journal (R250). -/
def watchCheck (d : Dev) (i : Nat) : Dev :=
  let r := bolAt d i
  if r.state = .live && r.watchArm && watchHolds r then
    let h := bolHandle i r.gen
    let d := putBol d i { r with watchArm := false }
    let d := setFld (incWrap d fBluWatchSeq) fBluWatchHandle h
    sendWatches (modBlu d fun b => { b with watches := b.watches ++
      [{ handle := h, va := r.watchVa, value := r.value, owner := bolOwner r, irq := r.watchIrq,
         need := d.lbu.nextLsn }] })
  else d

/-- VALUE changes: LAST_UPDATE, the BOLLARD record and the graph version follow (R168, R245). -/
def setValue (d : Dev) (i : Nat) (v : W64) (entry ref line berth : Nat) : Dev :=
  let r := bolAt d i
  if r.value = v then d
  else
    let d := putBol d i { r with value := v, lastUpdate := tideW d }
    let h := bolHandle i r.gen
    bumpGraph (logBol d h entry v ref line berth) 0 h

/-- A signal is refused or discarded at a bollard: REJECTS saturates (R168, R178). A slot that is FREE or RETIRED holds no
count (R379). [log 30 DEDUCED unsafe] -/
def countReject (d : Dev) (i : Nat) : Dev :=
  let r := bolAt d i
  if r.state = .live || r.state = .abandoned then putBol d i { r with rejects := min (r.rejects + 1) (2 ^ 32 - 1) } else d

/-! ### Waits met (R172, R184) -/

/-- May the HMS grant sequencers: released by the replay, not quiesced, not held by a halt, no idle request or Retain
entry pending (R224, R255, R323, R338, R357)? -/
def hmsMayPick (d : Dev) : Bool :=
  d.hms.released && !flag d (fQreq 4) && d.scu.rst = .none && !d.scu.retainReq && fld d fPwrState ≠ 3 &&
    !(fld d ⟨10, 0x080, 0, 0⟩ = 1 && fld d ⟨10, 0x090, 7, 0⟩ ≠ 0)

/-- Wait `met` of a command is met. When it was the last, a spinning command issues with its sequencer at once; any other
raises the wake wire (R172, R184, R216). -/
def waitMet (d : Dev) (k : CmdId) : Dev :=
  withCmd d k fun c =>
    let last := c.spec.waits.length ≤ c.met + 1
    let d := modCmd d k fun c => { c with met := c.met + 1, regd := false, entrySince := d.now,
                                          woken := !last || c.spin.isSome,
                                          readySince := if last then d.now else c.readySince }
    let d := progress (modBlu d fun b => { b with searchAt := tdel b.searchAt c.berth }) c.berth
    match c.spin with
    | some s =>
      if last then
        if hmsMayPick d && canIssue d c then grantCmd d k (some s)
        else modCmd d k fun c => { c with spin := none }
      else d
    | none => d

/-- A wait entry is met: its owner's command goes on, or WAIT_MET leaves for the other node (R172, R175). -/
def entryMet (d : Dev) (w : WaitEnt) : Dev :=
  let d := modBlu d fun b => { b with waits := b.waits.filter (· ≠ w) }
  let d := bumpGraph d 0 (bolHandle w.bol (bolAt d w.bol).gen)
  match w.who with
  | .here k _ => waitMet d k
  | .away n b e => sendPkt d n (.waitMet (BitVec.ofNat 32 b) (BitVec.ofNat 3 e) (BitVec.ofNat 64 (tideW d)))

/-- A take of `v` units by a wait entry (R173, R174). -/
def takeUnits (d : Dev) (w : WaitEnt) : Dev :=
  let r := bolAt d w.bol
  match w.who with
  | .here k e =>
    withCmd d k fun c =>
      setValue (modCmd d k fun c => { c with applied := c.applied ++ [e] }) w.bol (r.value - w.value) e c.ref
        c.spec.lineNo c.berth
  | .away .. => setValue d w.bol (r.value - w.value) 0xFF 0 0 0

/-- Waits of a bollard in order of registration are evaluated after a step. Takes are served oldest first, and one that
cannot be met holds back the later ones (R172, R173). `blocked` says that such a take was found. -/
def serveList (d : Dev) (blocked : Bool) : List WaitEnt → Dev
  | [] => d
  | w :: ws =>
    let r := bolAt d w.bol
    if r.kind = .counter then
      if blocked then serveList d true ws
      else if condHolds r w.code w.value then serveList (entryMet (takeUnits d w) w) false ws
      else serveList d true ws
    else if condHolds r w.code w.value then serveList (entryMet d w) blocked ws
    else serveList d blocked ws

/-- The waits of a bollard are served, and what the step leaves may fire its watch (R183, R186). -/
def serveWaits (d : Dev) (i : Nat) : Dev := watchCheck (serveList d false (d.blu.waits.filter fun w => w.bol = i)) i

/-- A step sets VALUE and the waits registered on the bollard are evaluated again (R179). -/
def stepValue (d : Dev) (i : Nat) (v : W64) (entry ref line berth : Nat) : Dev :=
  serveWaits (setValue d i v entry ref line berth) i

/-- A command's registered waits are dropped, and those left on their bollards are looked at again: a take that it held back
may now be the oldest (R172, R173). -/
def withdrawWaits (d : Dev) (k : CmdId) : Dev :=
  let bs := d.blu.waits.filterMap fun w => match w.who with | .here c _ => if c = k then some w.bol else none | .away .. => none
  bs.foldl serveWaits (dropWaits d k)

/-! ### Checks of an entry (R57, R104, R178) -/

/-- Is the capability of an entry right: 0 for the command's own context, the exported one otherwise (R104)? -/
def capOk (r : BolRec) (ctx : Nat) (cap : W64) : Bool :=
  if bolOwner r = ctx then cap = 0 else cap ≠ 0 && r.cap = cap

/-- The outcome of a signal of a local command, checked in the order of R178; an ABANDONED bollard comes before the
capability, which its abandonment revoked (R70). -/
def localTest (d : Dev) (ctx : Nat) (e : SyncEnt) : SigOut :=
  let r := bolAt d (bolIdx e.handle)
  if !bolOk d e.handle then .no .stale
  else if r.state = .abandoned then .no .abandoned
  else if !capOk r ctx e.cap then .no .cap
  else sigOp r e.code e.value

/-- The status that a refused signal fixes and its fault cause: 0x40 to 0x45 (R178, R179). -/
def refusalStatus (row : RefuseRow) (strict : Bool) : Nat × Nat :=
  match row with
  | .stale | .cap => (stStale, 0)
  | .abandoned => (stOk, 0)
  | .kind => (stFaulted, 0x45)
  | .backward => if strict then (stFaulted, 0x40) else (stOk, 0)
  | .counterOver => (stFaulted, 0x41)
  | .barrierOver => (stFaulted, 0x43)
  | .barrierLate => (stFaulted, 0x44)

/-- A refusal at a local bollard is counted (R104, R178, R180, R189). [log 30 DEDUCED unsafe] -/
def countRefusal (d : Dev) (h : Nat) (row : RefuseRow) : Dev :=
  match row with
  | .stale => countReject (incSat d fBluRejStale) (bolIdx h)
  | .cap => countReject (incSat d fBluRejCap) (bolIdx h)
  | .abandoned => countReject (incSat d fBluSigAbandoned) (bolIdx h)
  | .backward => countReject (incSat d fBluBackward) (bolIdx h)
  | _ => countReject d (bolIdx h)

/-- The signal of a command at a local bollard: applied, or refused and counted. -/
def localSignal (d : Dev) (c : Cmd) (idx : Nat) (e : SyncEnt) : Dev :=
  match localTest d c.ctx e with
  | .ok v => count (stepValue d (bolIdx e.handle) v (4 + idx) c.ref c.spec.lineNo c.berth) 0 0 8
  | .no row => countRefusal d e.handle row

end Sys2Proof.Machine
end

