-- ==== Sys2Proof/Machine/Fault.lean ====
section
/-!
DEFINITION. Faults, drains and teardown: what fixes a fault record (17 R296 to R300), what a drain request does at a quay
(08 R149), what begins the forced abort of a context (04 R65, R69, R70), and how signals end a command (10 R176 to R178).
-/

namespace Sys2Proof.Machine

/-! ### Drains (R149) -/

/-- Does a descriptor fall under a drain's scope? -/
def inScope (s : DrainScope) (x : Desc) : Bool :=
  match s with
  | .ctx h => x.ctx = h.toNat
  | .berth b => x.berth = b.toNat
  | .cmd k => x.cmd = k
  | .all => true

/-- The slice of a command that holds a tile number. -/
def sliceOf (c : Cmd) (tile : Nat) : Option Nat := (List.range c.slices.length).find? fun i =>
  match c.slices[i]? with | some s => tile < s.stop | none => false

/-- A descriptor that was not transferred returns as a tile number kept with the command (R210, R211). -/
def keepTile (d : Dev) (x : Desc) : Dev :=
  modCmd d x.cmd fun c =>
    match sliceOf c x.tile with
    | some i => { c with slices := modAt c.slices i fun s => { s with redo := s.redo ++ [x.tile] } }
    | none => c

/-- A descriptor returns to the sequencer that formed it, to be assigned to another quay (R150, R213; 64 stands for none); without one it stays
with the command as a tile number. -/
def returnDesc (d : Dev) (x : Desc) : Dev :=
  match cmdAt d x.cmd with
  | some c =>
    if c.phase = .issued && c.grant.contains x.seq then modSeq d x.seq fun q => { q with buf := q.buf ++ [{ x with quay := 64 }] }
    else keepTile d x
  | none => d

/-- Is a quay ONLINE or DRAINING: does it run drains (R149 point 6)? -/
def quayRuns (d : Dev) (q : Nat) : Bool := fld d (fQptState q) = 1 || fld d (fQptState q) = 2

/-- A drain request (R149): the quay stops offering the scope, its queued descriptors return, the timer starts with the
first request. A quay in FAILED, STOPPED or ABSENT completes it at once. [log 35 DEDUCED unsafe] -/
def requestDrain (d : Dev) (q : Nat) (s : DrainScope) (by_ : DrainBy) : Dev :=
  if !quayRuns d q then d
  else
    let u := quayAt d q
    let back := u.queue.filter (inScope s)
    let d := modQuay d q fun u =>
      { u with queue := u.queue.filter fun x => !inScope s x
               drains := u.drains ++ [(s, by_)]
               drainStart := if u.drains.isEmpty then d.now else u.drainStart
               drainTmo := if u.drains.isEmpty then fld d (fQptTmoUs q) else u.drainTmo }
    let d := setFld d (fQptState q) 2
    match by_ with
    | .preempt | .teardown => back.foldl keepTile d
    | .reclaim => back.foldl returnDesc d
    | _ => d

/-- Does a quay hold tiles of a scope: launched, offered or queued? -/
def quayHolds (u : Quay) (s : DrainScope) : Bool :=
  u.queue.any (inScope s) || u.out.any (fun t => inScope s t.desc) ||
    (match u.offered with | some (x, _) => inScope s x | none => false)

/-- A drain of a scope is requested at every quay that holds tiles of it. -/
def drainEverywhere (d : Dev) (s : DrainScope) (by_ : DrainBy) : Dev :=
  (List.range 56).foldl (fun d q => if quayHolds (quayAt d q) s then requestDrain d q s by_ else d) d

/-- Tiles of a scope launched or offered and not retired. -/
def scopeOut (d : Dev) (s : DrainScope) : Nat :=
  d.quays.foldl (fun n q => n + (q.out.filter fun t => inScope s t.desc).length +
    (match q.offered with | some (x, _) => if inScope s x then 1 else 0 | none => 0)) 0

/-! ### Abandonment (R65, R70) -/

/-- A command ends with a failure status and the entry at fault; none of its signals is applied (R112, R176). -/
def endCmdWith (d : Dev) (k : CmdId) (st detail : Nat) : Dev := completeCmd d k st detail

/-- What becomes of a wait entry when its bollard is ABANDONED (R70): withdrawn with its own context, met for a command
that continues, ABANDONED otherwise. -/
def abandonWait (dying : Nat) (d : Dev) (w : WaitEnt) : Dev :=
  let d := modBlu d fun b => { b with waits := b.waits.filter (· ≠ w) }
  match w.who with
  | .here k e =>
    withCmd d k fun c =>
      if c.ctx = dying then d else if w.cont then waitMet d k else endCmdWith d k stAbandoned e
  | .away n b e =>
    if w.cont then sendPkt d n (.waitMet (BitVec.ofNat 32 b) (BitVec.ofNat 3 e) (BitVec.ofNat 64 (tideW d)))
    else sendPkt d n (.waitEnd (BitVec.ofNat 32 b) (BitVec.ofNat 3 e) .abandoned)

/-- A bollard becomes ABANDONED: its watch is cleared without firing, its capability and pairs are revoked, its waits end
(R70, R186, R187, R290). -/
def abandonBol (dying : Nat) (d : Dev) (i : Nat) : Dev :=
  let r := bolAt d i
  let h := bolHandle i r.gen
  let d := bumpGraph (putBol d i { r with state := .abandoned, watchArm := false, cap := 0 }) 0 h
  (d.blu.waits.filter fun w => w.bol = i).foldl (abandonWait dying) (removePairs d h)

/-! ### Teardown begins (R65) -/

/-- The waits of a command at other nodes are withdrawn: their owners are told, and the shares come back (R175, R286). -/
def withdrawAway (d : Dev) (c : Cmd) (st : WaitEndStatus) : Dev :=
  let d := (d.blu.away.filter fun a => a.2.1 = c.key).foldl (fun d a =>
    modPartner (sendPkt d a.1 (.waitEnd (BitVec.ofNat 32 (berthHandle c.berth (berthAt d c.berth).gen)) (BitVec.ofNat 3 a.2.2) st))
      a.1 fun p => { p with shares := p.shares - 1 }) d
  modBlu d fun b => { b with away := b.away.filter fun a => a.2.1 ≠ c.key }

/-- Descriptors of a command in the sequencers' buffers. -/
def buffered (d : Dev) (k : CmdId) : List Desc := d.seqs.flatMap fun s => s.buf.filter fun x => x.cmd = k

/-- A command of a dying context: its wait is withdrawn, its spin and its save slot end, and it emits nothing more. The tiles whose
descriptors are discarded stay open, so that the command cannot end as if they had run (R67). [log 55 DEDUCED unsafe] -/
def stopCmd (d : Dev) (c : Cmd) : Dev :=
  let d := withdrawAway d c .withdrawn
  let d := (c.spec.waits ++ c.spec.sigs).foldl (fun d e => if c.regd then bumpGraph d e.node e.handle else d) d
  let d := withdrawWaits d c.key
  let d := stopSequencers ((buffered d c.key).foldl keepTile d) c.key
  let d := modHms d fun h => { h with save := h.save.filter fun s => s.2 ≠ c.key }
  let d := modCtx d (ctxIdx c.ctx) fun r => { r with save := r.save.filter fun n => some n ≠ c.saveSlot }
  let d := modFsa d fun f => { f with partners := f.partners.map fun p =>
    (p.1, { p.2 with queue := p.2.queue.filter fun o =>
      o.sent.isSome || (match o.of with | some (k, _) => k ≠ c.key | none => true) }) }
  let d := modLev d fun l => { l with pools := l.pools.map fun p =>
    (p.1, { p.2 with waiters := p.2.waiters.filter (· ≠ c.key) }) }
  modCmd d c.key fun c => { c with regd := false, spin := none, saveSlot := none }

/-- Has the LBU assigned an LSN to a manifest (R249)? -/
def ManSt.isLogged : ManSt → Bool
  | .logged | .accepted => true
  | _ => false

/-- Lines fetched and not accepted are discarded without a record (R65, R90). -/
def discardFetched (d : Dev) (own : Nat → Bool) : Dev :=
  let gone := fun (m : Manifest) => own m.berthIdx && !m.st.isLogged
  let d := modMfu (dropMans d gone) fun m => { m with fetches := m.fetches.filter fun f => !own f.berth
                                                      idle := m.idle.filter fun x => !own x.1 }
  let d := modBtc d fun b => { b with toMfu := b.toMfu.filter fun x =>
    match x with | .wake i _ => !own i | .close i => !own i | .cont i _ => !own i }
  modPlx d fun p => { p with sights := p.sights.filter fun s => d.mfu.mans.any fun m => m.berthIdx = s.1 && m.headIdx = s.2
                             toLbu := p.toLbu.filter fun s => d.mfu.mans.any fun m => m.berthIdx = s.1 && m.headIdx = s.2 }

/-- The berths of a context. -/
def berthsOf (d : Dev) (ci gen : Nat) : List Nat :=
  (d.btc.berth.filter fun b => b.2.ctxIdx = ci && b.2.ctxGen = gen &&
    (b.2.state = .live || b.2.state = .halted || b.2.state = .draining)).map (·.1)

/-- The LIVE pools of a context that dies become DYING (R160). -/
def dyingPools (d : Dev) (h : Nat) : Dev :=
  (d.lev.pools.filter fun p => p.2.st = .live && p.2.owner = h).foldl (fun d p =>
    logState (modLev d fun l => { l with pools := tset {} l.pools p.1 { p.2 with st := .dying, waiters := [] } }) 4 2 p.1) d

/-- t0 of a teardown: the context enters DYING (R59, R65). A second start changes nothing (R69). [log 55 DEDUCED unsafe] -/
def startTeardown (d : Dev) (ci : Nat) : Dev :=
  let r := ctxAt d ci
  if r.state ≠ .live then d
  else
    let h := ctxHandle ci r.gen
    let d := logState (recallCopies (putCtx d ci { r with state := .dying }) [ctxLine d ci 0]) 2 CtxSt.dying.code h
    let d := modBtc d fun b => { b with teardowns := tput b.teardowns ci { handle := h, stopped := false } }
    let mine := berthsOf d ci r.gen
    let d := discardFetched d fun b => mine.contains b
    let d := mine.foldl (fun d b => modBerth d b fun r => { r with fopen := false, rung := false }) d
    let d := (ctxCmds d h).foldl stopCmd d
    let d := drainEverywhere d (.ctx (BitVec.ofNat 32 h)) .teardown
    let d := dyingPools d h
    (d.blu.slots.filter fun s => s.2.state = .live && bolOwner s.2 = h).foldl (fun d s => abandonBol h d s.1) d

/-! ### Fault records (R296 to R300) -/

/-- Engines that hold tiles of a command: quay, station, tiles held; lowest quay, then lowest station, first. -/
def engineTiles (d : Dev) (k : CmdId) : List (Nat × Nat × Nat) :=
  (List.range 56).flatMap fun q =>
    let mine := (quayAt d q).out.filter fun t => t.desc.cmd = k
    (List.range 1024).filterMap fun s =>
      let n := (mine.filter fun t => t.station = s).length
      if n = 0 then none else some (q, s, n)

/-- The engine entries of a fault record: `first` is the engine of the first faulted packet with its info (R296).
[log 44 DEDUCED unsafe] -/
def engineEntries (d : Dev) (k : CmdId) (first : Option (Nat × Nat × W64)) : List EngEnt :=
  let held := engineTiles d k
  let isFirst := fun (e : Nat × Nat × Nat) => match first with | some (q, s, _) => e.1 = q && e.2.1 = s | none => false
  let head := match first with
    | some (q, s, info) =>
      [{ fault := true, quay := q, station := s, tiles := (held.filter isFirst).foldl (fun n (e : Nat × Nat × Nat) => n + e.2.2) 0,
         info := info }]
    | none => []
  let rest := (held.filter fun e => !isFirst e).map fun e =>
    { fault := false, quay := e.1, station := e.2.1, tiles := e.2.2, info := 0 }
  (head ++ rest).take 8

/-- What the secrecy class withholds from a record (R297). [log 54 DEDUCED unsafe] -/
def suppress (r : FaultRec) : FaultRec :=
  match r.secrecy with
  | .open => r
  | .confidential => { r with operatorId := 0, layerId := 0 }
  | .sealed => { r with operatorId := 0, layerId := 0
                        engines := r.engines.map fun e => { e with info := e.info &&& 0xFE00000000000000 } }

/-- The record of a command's fault (R296, R298). [log 54 DEDUCED unsafe] -/
def cmdFaultRec (d : Dev) (c : Cmd) (kind seq : Nat) (f : FaultInfo) (first : Option (Nat × Nat × W64)) : FaultRec :=
  let b := berthAt d c.berth
  let man := (d.mfu.mans.find? fun m => m.berthIdx = c.berth && m.headIdx = c.headIdx).map (·.id)
  suppress
    { seq := seq, cause := f.cause, unit := f.unit, kind := kind, secrecy := (ctxAt d (ctxIdx c.ctx)).secrecy,
      context := c.ctx, berth := berthHandle c.berth b.gen, manifestId := man.getD 0, headIdx := c.headIdx,
      line := c.spec.lineNo, opcode := c.spec.op.code, operatorId := c.spec.operatorId, layerId := c.spec.layerId,
      tag := c.spec.tag, ref := c.ref, addr := f.addr, time := tideW d, tile := f.tile, piece := f.piece,
      argA := f.argA,
      argB := if f.cause = 0x10 || f.cause = 0x11 then (engineEntries d c.key first).length else f.argB,
      engines := engineEntries d c.key first }

/-- A fault is counted in a record of the berth that is already fixed. [log 54 DEDUCED unsafe] -/
def bumpFollowing (d : Dev) (p : FaultRec → Bool) : Dev :=
  let inc := fun (r : FaultRec) => if p r then { r with following := min (r.following + 1) 0xFFFF } else r
  modScu d fun s => { s with open_ := s.open_.map inc
                             queue := s.queue.map fun e => (e.1, inc e.2)
                             slots := s.slots.map fun e => (e.1, inc e.2) }

/-- A fault is fixed in the berth `b`: SEQ is assigned and a record opened, unless the berth's slot is PENDING, whose record
then counts it (R299, R300). Answers the SEQ that a completion names. [log 54 DEDUCED unsafe] -/
def fixFault (d : Dev) (b : Nat) (mk : Nat → FaultRec) : Dev × Nat :=
  match tfind d.scu.slots b with
  | some r => (bumpFollowing d fun x => x.slot && x.seq = r.seq, r.seq)
  | none =>
    let seq := d.scu.faultSeq
    (modScu d fun s => { s with faultSeq := (s.faultSeq + 1) % 2 ^ 32, open_ := s.open_ ++ [mk seq] }, seq)

/-- Is a manifest staged and its accept request not yet sent (R381)? -/
def ManSt.early : ManSt → Bool
  | .staging | .looking | .translating | .translated => true
  | _ => false

/-- A berth that moves to HALTED fetches nothing more (R381): its fetch ends, its staged manifests are discarded, and
IDLE_CHECK leaves with the index from which a fetch would resume. -/
def haltFetch (d : Dev) (b : Nat) : Dev :=
  let gone := fun (m : Manifest) => m.berthIdx = b && m.st.early
  let first := d.mfu.mans.find? gone
  let d := modPlx (dropMans d gone) fun p => { p with sights := p.sights.filter fun s => s.1 ≠ b }
  match d.mfu.fetches.find? fun f => f.berth = b with
  | none => d
  | some f =>
    let r := match first with
      | some m => m.headIdx
      | none => match f.lines with
        | (i, _) :: _ => i
        | [] => f.next
    let d := modMfu d fun m => { m with fetches := m.fetches.map fun x =>
      if x.berth = b then { x with lines := [], halting := true, idleSent := true } else x }
    if (berthAt d b).fopen then modMfu d fun m => { m with idle := (m.idle.filter fun x => x.1 ≠ b) ++ [(b, f.next, r)] }
    else d

/-- The berth's first fault halts it (R59); a DRAINING berth too (R89, R300). -/
def haltBerth (d : Dev) (b : Nat) : Dev :=
  let r := berthAt d b
  if r.state = .live || r.state = .draining then
    haltFetch (logState (recallCopies (putBerth d b { r with state := .halted }) [berthLine d b 0]) 1 BerthSt.halted.code
      (berthHandle b r.gen)) b
  else d

/-- A command faults (R147, R296): FAULTED is fixed, the record opened, the command stopped and its launched tiles left to
drain, and its context enters DYING. A later fault of the same command is only counted. -/
def faultCmdAt (d : Dev) (k : CmdId) (f : FaultInfo) (first : Option (Nat × Nat × W64)) : Dev :=
  withCmd d k fun c =>
    if c.completeLsn.isSome then d
    else if c.status = some stFaulted then bumpFollowing d fun r => r.seq = c.faultSeq
    else
      let (d, seq) := match tfind d.scu.slots c.berth with
        | some _ =>
          let (d', seq) := fixFault d c.berth fun s => cmdFaultRec d c 1 s f first
          (modScu d' fun s => { s with open_ := s.open_ ++ [{ cmdFaultRec d c 1 seq f first with counted := true }] }, seq)
        | none => fixFault d c.berth fun s => cmdFaultRec d c 1 s f first
      let d := modCmd d k fun c => { c with status := some stFaulted, detail := seq % 2 ^ 16, fixTime := tideW d,
                                            phase := .closing, fault := some f, faultSeq := seq, sigRes := [],
                                            pre := [], spin := none }
      let d := discardQueued (stopSequencers (dropWaits d k) k) k
      startTeardown (haltBerth d c.berth) (ctxIdx c.ctx)

def faultCmd (d : Dev) (k : CmdId) (f : FaultInfo) : Dev := faultCmdAt d k f none

/-- Cause of the BLU: entry in ARG_A, bollard handle in ARG_B (R298). -/
def bluFault (cause entry handle : Nat) : FaultInfo :=
  { cause := cause, unit := 6, argA := entry, argB := handle }

/-! ### The end of a command that ran to OK (R176, R251) -/

/-- The status that the outcomes of a command's signals leave (R176): status, DETAIL, fault cause. -/
def sigVerdict (rs : List (Nat × Nat × Nat)) : Nat × Nat × Nat :=
  let bad := rs.filter fun r => r.2.1 ≠ stOk
  match bad.find? (fun r => r.2.1 = stFaulted) with
  | some r => (stFaulted, 4 + r.1, r.2.2)
  | none => match bad with
    | r :: _ => (r.2.1, 4 + r.1, 0)
    | [] => (stOk, 0, 0)

/-- The outcomes are in: the command completes, or faults for its first faulting signal (R176). -/
def concludeSignals (d : Dev) (k : CmdId) : Dev :=
  withCmd d k fun c =>
    let (st, det, cause) := sigVerdict c.sigRes
    if st = stFaulted then
      faultCmd d k (bluFault cause det ((c.spec.sigs.getD (det - 4) ⟨0, 0, 0, 0, 0, false⟩).handle))
    else completeCmd d k st (if st = stOk then 0 else det)

/-- The outcome of signal `idx` is known. -/
def signalDone (d : Dev) (k : CmdId) (idx st cause : Nat) : Dev :=
  withCmd d k fun c =>
    let d := modCmd d k fun c => { c with sigNext := idx + 1, sigRes := c.sigRes ++ [(idx, st, cause)] }
    if c.spec.sigs.length ≤ idx + 1 then
      if c.completeLsn.isSome then modCmd d k fun c => { c with phase := .complete } else concludeSignals d k
    else d

/-- The checks that can refuse a signal, made in the step that fixes the status of a non-replayable command that launches
tiles (R251). [log 29 DEDUCED unsafe] -/
def preCheck (d : Dev) (c : Cmd) (idx : Nat) (e : SyncEnt) : Nat × Nat × Nat :=
  if e.node ≠ 0 then (idx, if reachable d e.node then stOk else stUnreachable, 0)
  else match localTest d c.ctx e with
    | .ok _ => (idx, stOk, 0)
    | .no row => (idx, refusalStatus row (ctxAt d (ctxIdx c.ctx)).strictFence)

/-- A command ran to its end with status OK: its signals follow, or for a non-replayable command that launches tiles the
COMPLETE record first and the signals once it is durable (R176, R251). Of two signals, the one that passes is applied where the
other faults the command (R176). -/
def finishOk (d : Dev) (k : CmdId) : Dev :=
  withCmd d k fun c =>
    if c.spec.sigs.isEmpty then completeCmd d k stOk 0
    else if c.needsBegin && !c.skipped then
      let rs := (List.range c.spec.sigs.length).map fun i =>
        preCheck d c i (c.spec.sigs.getD i ⟨0, 0, 0, 0, 0, false⟩)
      let (st, det, cause) := sigVerdict rs
      let ok := (rs.filter fun r => r.2.1 = stOk).map (·.1)
      let d := (List.range c.spec.sigs.length).foldl (fun d i =>
        let e := c.spec.sigs.getD i ⟨0, 0, 0, 0, 0, false⟩
        if e.node ≠ 0 then d else match localTest d c.ctx e with
          | .no row => if (refusalStatus row (ctxAt d (ctxIdx c.ctx)).strictFence).1 = stOk then d else countRefusal d e.handle row
          | .ok _ => d) d
      if st = stFaulted then
        modCmd (faultCmd d k (bluFault cause det ((c.spec.sigs.getD (det - 4) ⟨0, 0, 0, 0, 0, false⟩).handle))) k fun c =>
          { c with sigOk := ok }
      else
        modCmd (completeCmd d k st (if st = stOk then 0 else det)) k fun c =>
          { c with phase := .closing, sigNext := 0, sigOk := ok }
    else modCmd d k fun c => { c with phase := .closing, sigNext := 0, sigRes := [], status := none }

end Sys2Proof.Machine
end

