-- ==== Sys2Proof/Machine/ConfigItems.lean ====
section
/-!
DEFINITION. The configuration manifest (19 R328, 20 R343, 22 R372): its form, its items, and what each item sets.
-/

namespace Sys2Proof.Machine

/-- 64-bit words of a 32-byte chunk. -/
def chunkWords (c : BitVec 256) : List Nat := (List.range 4).map fun i => c.toNat / 2 ^ (64 * i) % 2 ^ 64

/-- The clock of an island in MHz, by unit number (R10). -/
def islandMHz (u : Nat) : Nat :=
  if u = 1 || u = 10 then 1000 else if u = 2 || u = 3 || u = 6 || u = 8 then 1600 else if u = 4 then 2400
  else if u = 5 || u = 7 || u = 12 then 1200 else if u = 11 || u = 14 then 800 else 0

/-- The pair list with the value at an index replaced. -/
def putPair (l : List (Nat × Nat)) (i v : Nat) : List (Nat × Nat) := l.filter (fun p => p.1 ≠ i) ++ [(i, v)]

def when (b : Bool) (c : ChipCfg) : Option ChipCfg := if b then some c else none

/-- One item: TAG, INDEX, VALUE (R328, R343); none for a reserved tag or a value out of range. -/
def cfgItem (c : ChipCfg) (tag i v : Nat) : Option ChipCfg :=
  if tag = 0x0001 then when (1 ≤ v && v ≤ islandMHz i) { c with islandClk := putPair c.islandClk i v }
  else if tag = 0x0002 then when (i = 0 && v < 2 ^ 56) { c with quayAbsent := v }
  else if tag = 0x0003 then when (i = 0 && v ≠ 0 && v < 255) { c with pilotRole := v }
  else if tag = 0x0004 then
    when (32 ≤ i && i ≤ 55 && 1 ≤ v && v ≤ 1024) { c with quayEngines := putPair c.quayEngines i v }
  else if tag = 0x0010 then
    when (i ≤ 2 && v < 2 ^ 51)
      { c with harbour := c.harbour.filter (fun h => h.1 ≠ i) ++ [(i, v % 2 ^ 48, v / 2 ^ 48)] }
  else if tag = 0x0011 then when (i = 0) { c with harbourSize := v }
  else if tag = 0x0012 then when (i = 0 && 1 ≤ v && v < 2 ^ 32) { c with logUnits := v }
  else if tag = 0x0013 then when (i = 0) { c with xcHarbour := v }
  else if tag = 0x0014 then when (i = 0) { c with poolArea := v }
  else if tag = 0x0015 then when (i = 0) { c with shareArea := v }
  else if tag = 0x0016 then when (i = 0) { c with sparePool := v }
  else if tag = 0x0017 then when (i < 16) { c with stackRange := putPair c.stackRange i v }
  else if tag = 0x0020 then
    if i = 0 then some { c with arenaBase := v } else if i = 1 then some { c with arenaSize := v }
    else if i = 2 then when (v < 2 ^ 57) { c with arenaVa := v }
    else when (i = 3 && v < 2 ^ 57) { c with loadVa := v }
  else if tag = 0x0030 then
    if i = 0 then when (v ≤ 1) { c with root := v = 1 } else if i = 1 then when (v < 2 ^ 32) { c with base := v }
    else if i = 2 then when (v < 2 ^ 32) { c with fixedId := v } else when (i = 3) { c with unitSerial := v }
  else if tag = 0x0040 then
    if i = 0 then when (v < 2 ^ 16) { c with iSus := v } else when (i = 1 && v < 2 ^ 16) { c with iPeak := v }
  else if tag = 0x0050 then when (i = 0 && v ≤ 1) { c with wdog := v = 1 }
  else if tag = 0x0051 then when (i = 0 && v ≤ 1) { c with logFormat := v = 1 }
  else if tag = 0x0F00 then when (i = 0 && v ≤ 1) { c with secBase := v }
  else if tag = 0x0F01 then when (i = 0 && v ≤ 2) { c with secMax := v }
  else if tag = 0x0F02 then when (i = 0 && 1 ≤ v && v ≤ 0xFFF) { c with arenaKeyid := v }
  else if tag = 0x0F03 then when (i = 0 && 1 ≤ v && v ≤ 0xFFF) { c with harbourKeyid := v }
  else none

/-- `n` items from a list of words. -/
def cfgItems (c : ChipCfg) : Nat → List Nat → Option ChipCfg
  | 0, _ => some c
  | n + 1, w0 :: w1 :: r =>
    match cfgItem c (w0 % 2 ^ 16) (w0 / 2 ^ 16 % 2 ^ 16) w1 with
    | some c => cfgItems c n r
    | none => none
  | _ + 1, _ => none

def pairAt (l : List (Nat × Nat)) (i : Nat) : Option Nat := (l.find? fun p => p.1 = i).map (·.2)

/-- The spans of the layout, from the mirror base: offset and end. [log 66 DEDUCED unsafe] -/
def mirrorFits (c : ChipCfg) (h : Nat × Nat × Nat) : Bool :=
  match pairAt c.stackRange (2 * h.2.2), pairAt c.stackRange (2 * h.2.2 + 1) with
  | some lo, some hi => h.2.1 % mib2 = 0 && lo ≤ h.2.1 && h.2.1 + layoutEnd c ≤ hi
  | _, _ => false

/-- The checks of R372, R287 and R343, and R278's range of BASE. -/
def cfgOk (c : ChipCfg) : Bool :=
  let a := c.harbour.find? fun h => h.1 = 0
  let b := c.harbour.find? fun h => h.1 = 1
  let sp := c.harbour.find? fun h => h.1 = 2
  (match a, b with
   | some a, some b => mirrorFits c a && mirrorFits c b && a.2.2 ≠ b.2.2 &&
      (match sp with
       | some s => mirrorFits c s && s.2.2 ≠ a.2.2 && s.2.2 ≠ b.2.2
       | none => true)
   | _, _ => false) &&
  layoutEnd c ≤ c.harbourSize && 8388608 ≤ c.shareArea && c.secBase ≤ c.secMax &&
  (!c.root || (1 ≤ c.base && c.base ≤ 0xFFFEFFFE))

/-- The configuration that a delivered manifest holds; none where its form, an item or a check fails (R328). -/
def parseConfig (cs : List (BitVec 256)) : Option ChipCfg :=
  match cs with
  | [] => none
  | h :: r =>
    match chunkWords h with
    | [w0, w1, w2, w3] =>
      if w0 % 2 ^ 24 = 0x014B43 && w0 / 2 ^ 24 % 2 ^ 8 = 0 && w1 = 0 && w2 = 0 && w3 = 0 then
        match cfgItems {} (w0 / 2 ^ 32) (r.flatMap chunkWords) with
        | some c => if cfgOk c then some c else none
        | none => none
      else none
    | _ => none

/-! ### What the configuration places in registers -/

def fLbuSpare : Fld := ⟨7, 0x080, 11, 8⟩
def fLbuStackB : Fld := ⟨7, 0x080, 7, 4⟩
def fLbuStackA : Fld := ⟨7, 0x080, 3, 0⟩

/-- Stack of a mirror or of the spare. -/
def stackOf (c : ChipCfg) (i : Nat) : Nat := ((c.harbour.find? fun h => h.1 = i).map (·.2.2)).getD 0xF

/-- B_max of R218. -/
def bMax (d : Dev) : Nat := (fld d fHmsIPeak - fld d fHmsISus) * 10000

/-- The fields marked "from configuration" of every island but the SCU. -/
def applyConfig (d : Dev) : Dev :=
  let c := d.scu.cfg
  let d := setFld (setFld (setFld (setFld d fLbuCapacity c.logUnits) fLbuSpare (stackOf c 2)) fLbuStackB (stackOf c (d.lbu.place.getD 1 1)))
    fLbuStackA (stackOf c (d.lbu.place.getD 0 0))
  let d := setFld (setFld d fMmgArenaVa c.arenaVa) fMmgLoadVa c.loadVa
  let d := setFld (setFld d fHmsISus c.iSus) fHmsIPeak c.iPeak
  let d := setFld d fHmsBudget (bMax d)
  let d := setFld (setFld d fFsaPinned (if c.fixedId ≠ 0 then 1 else 0)) fFsaRoot (if c.root then 1 else 0)
  let d := if c.root then setFld d fFsaId c.base else d
  let d := modFsa d fun f => { f with next := if c.root then c.base + 1 else 0, rootId := if c.root then c.base else 0,
                                      base := if c.root then c.base else 0 }
  (List.range 24).foldl (fun d i => modQuay d (32 + i) fun q =>
    { q with engines := (pairAt c.quayEngines (32 + i)).getD 8 }) d

end Sys2Proof.Machine
end

