-- ==== Sys2Proof/Machine/Irq.lean ====
section
/-!
DEFINITION. Interrupt gathering and delivery (18): sources and their levels, the delivery engine, batches and hold-offs, the
local wires, and writes of PEND and MASK.
-/

namespace Sys2Proof.Machine

/-- The page events that feed a source (R308). -/
def srcFeeds (n : Nat) : List (Nat × Nat) :=
  if n = 0 || n = 1 then [(0, n)] else if n ≤ 5 then [(0, n + 2)] else if n = 6 then [(1, 0)] else if n = 7 then [(0x10, 0)]
  else if n = 8 then [(0, 3)] else if n < 16 then []
  else if n = 16 then [(0, 2)] else if n ≤ 18 then [(2, n - 17)] else if n ≤ 20 then [(3, n - 19)] else if n = 21 then [(6, 0)]
  else if n ≤ 23 then [(5, n - 22)] else if n ≤ 28 then [(4, n - 24)] else if n ≤ 31 then [(8, n - 29)]
  else if n ≤ 35 then [(7, n - 32)] else if n < 40 then [] else if n ≤ 45 then [(9, n - 40)] else if n < 48 then []
  else if n ≤ 55 then [(10, n - 48)]
  else if n < 72 then [(0x20 + (n - 56), 0), (0x20 + (n - 56), 1)]
  else [(0x40 + (n - 72), 0), (0x40 + (n - 72), 1)]

/-- The level of a source (R309). -/
def srcLevel (d : Dev) (n : Nat) : Bool :=
  (srcFeeds n).any fun e => fbit d (fIrqRaw e.1) e.2 && !fbit d (fPageMask e.1) e.2

/-- The level has been seen by the edge detector. [log 58 DEDUCED unsafe] -/
def levelSeen (d : Dev) (n : Nat) : Bool := nbit d.scu.levelSeen n

/-- Levels that have fallen are no longer held as seen, so that their next rise is one. [log 58 DEDUCED unsafe] -/
def dropLevels (d : Dev) : Dev :=
  modScu d fun s => { s with levelSeen := (List.range 128).foldl (fun m n =>
    if nbit m n && !srcLevel d n then nclr m n else m) s.levelSeen }

def irqPend (d : Dev) (n : Nat) : Bool := fbit d (fIrqPend (n / 64)) (n % 64)
def irqMask (d : Dev) (n : Nat) : Bool := fbit d (fIrqMask (n / 64)) (n % 64)
def irqRoute (d : Dev) (n : Nat) : Nat := fld d (fGrpRoute (n / 8))

/-- A group is open while its timer is idle (R312). -/
def grpOpen (d : Dev) (g : Nat) : Bool := d.scu.holdoff.getD g 0 = 0

/-- [log 58 DEDUCED unsafe] -/
def setHoldoff (d : Dev) (g t : Nat) : Dev := modScu d fun s => { s with holdoff := modAt s.holdoff g fun _ => t }

/-- [log 58 DEDUCED unsafe] -/
def marked (d : Dev) (n : Nat) : Bool := nbit d.scu.marks n

def mark (d : Dev) (n : Nat) : Dev := modScu d fun s => { s with marks := nset s.marks n }

/-- Delivery runs while kcp_loaded is 1 and no reset is in progress (R323, R331). -/
def deliveryOn (d : Dev) : Bool := loaded d && d.scu.rst = .none

/-- A pending, unmasked source of an open group that this batch has not delivered. -/
def waiting (d : Dev) (n : Nat) : Bool := irqPend d n && !irqMask d n && grpOpen d (n / 8) && !marked d n

/-- Eligible under R311. [log 58 DEDUCED unsafe] -/
def eligible (d : Dev) (n : Nat) : Bool := waiting d n && irqRoute d n = 0

/-- A source may join its wire under R313. [log 58 DEDUCED unsafe] -/
def mayJoin (d : Dev) (n : Nat) : Bool :=
  waiting d n && 4 ≤ irqRoute d n && !(d.scu.joined.any fun j => j.1 = n)

/-- A delivery starts: SCU_IRQ_LAST (R320). -/
def delivered (d : Dev) (n : Nat) : Dev := setFld (incWrap d fIrqLastSeq) fIrqLastSrc n

/-- The level of local wire `w` (R313): low while delivery is stopped. -/
def irqLocal (d : Dev) (w : Nat) : Bool := deliveryOn d && d.scu.joined.any fun j => j.2 = w

/-- Sources whose PEND bit is cleared or whose MASK bit is set leave their wires (R313). -/
def leaveWires (d : Dev) : Dev :=
  modScu d fun s => { s with joined := s.joined.filter fun j => irqPend d j.1 && !irqMask d j.1 }

/-! ### Rows -/

/-- IRQ_SOURCE_RISE (R309): a level that rises sets its PEND bit once. [log 58 DEDUCED unsafe] -/
def sourceRise (d : Dev) (n : Nat) : Dev :=
  if srcLevel d n && !levelSeen d n then
    setBit (modScu d fun s => { s with levelSeen := nset s.levelSeen n }) (fIrqPend (n / 64)) (n % 64)
  else d

def execIrqSourceRise (src : BitVec 7) (s : State) : Host.Outcome State Fault Refusal :=
  onUnit 13 (fun d => sourceRise d src.toNat) s

/-- MSIX_DELIVERY (R311): the free engine takes the lowest eligible source, clears its PEND bit and sends the vector. -/
def execMsixDelivery (s : State) : Host.Outcome State Fault Refusal :=
  onUnit 13 (fun d =>
    if !deliveryOn d || d.scu.crossing.isSome then d
    else match (List.range 128).find? (eligible d) with
      | some n => mark (modScu (clrBit d (fIrqPend (n / 64)) (n % 64)) fun s => { s with crossing := some n }) n
      | none => d) s

/-- MSIX_SEND (R310, R311): the HPU captures the vector, which starts the delivery, and sends it on an outbound lane. -/
def execMsixSend (s : State) : Host.Outcome State Fault Refusal :=
  onUnit 1 (fun d =>
    match d.scu.crossing with
    | some n =>
      let d := delivered (modScu d fun s => { s with crossing := none }) n
      modHpu d fun h => { h with out := h.out ++ [.msix n] }
    | none => d) s

/-- Does group 15's timer serve the watchdog (R314)? [log 58 DEDUCED unsafe] -/
def timerLost (d : Dev) (g : Nat) : Bool := g = 15 && (flag d fWdogEn || d.scu.timerOwed)

/-- BATCH_END (R312): no source of the group is left that the batch has not delivered; the timer starts from HOLDOFF. After
the watchdog is disabled, group 15 takes its timer back here (R314). [log 58 DEDUCED unsafe] -/
def batchEnd (d : Dev) (g : Nat) : Dev :=
  let ns := (List.range 8).map fun i => 8 * g + i
  if !ns.any (marked d) || ns.any (fun n => eligible d n || mayJoin d n) then d
  else
    let d := modScu d fun s => { s with marks := ns.foldl nclr s.marks,
                                        timerOwed := if g = 15 && !flag d fWdogEn then false else s.timerOwed }
    let h := fld d (fGrpHoldoff g)
    if h = 0 || timerLost d g then d else setHoldoff d g (d.now + 100 * h)

def execBatchEnd (g : BitVec 4) (s : State) : Host.Outcome State Fault Refusal :=
  onUnit 13 (fun d => batchEnd d g.toNat) s

/-- HOLDOFF_EXPIRY (R312): once the timer has run out, the group opens. -/
def execHoldoffExpiry (g : BitVec 4) (s : State) : Host.Outcome State Fault Refusal :=
  onUnit 13 (fun d => if !grpOpen d g.toNat && d.scu.holdoff.getD g.toNat 0 ≤ d.now then setHoldoff d g.toNat 0 else d) s

/-- WIRE_JOIN (R313): counts as the source's delivery. -/
def execWireJoin (src : BitVec 7) (s : State) : Host.Outcome State Fault Refusal :=
  onUnit 13 (fun d =>
    let n := src.toNat
    if deliveryOn d && mayJoin d n then
      delivered (mark (modScu d fun s => { s with joined := s.joined ++ [(n, irqRoute d n - 4)] }) n) n
    else d) s

/-- A write of SCU_IRQ_PEND (R315): the bits whole, and after them the sets that hardware makes in the same cycle.
[log 58 DEDUCED unsafe] -/
def pendWrite (d : Dev) (r : Nat) (v hw : W64) : Dev :=
  let d := setFld d (fIrqPend r) v.toNat
  leaveWires ((List.range 64).foldl (fun d i => if hw.getLsbD i then sourceRise d (64 * r + i) else d) d)

/-- IRQ_PEND_WRITE (R315): `hw` names the sources whose level rises in the write's cycle. -/
def execIrqPendWrite (r : BitVec 1) (v : BitVec 64) (hw : BitVec 64) (s : State) : Host.Outcome State Fault Refusal :=
  onUnit 13 (fun d => pendWrite d r.toNat v hw) s

/-- A write of SCU_IRQ_MASK (R315, R316): a source masked before its choice is not delivered and stays pending; one that
is on its way already is delivered. -/
def maskWrite (d : Dev) (r : Nat) (v : W64) : Dev := leaveWires (setFld d (fIrqMask r) v.toNat)

/-- IRQ_MASK_WRITE (R316). -/
def execIrqMaskWrite (r : BitVec 1) (v : BitVec 64) (s : State) : Host.Outcome State Fault Refusal :=
  onUnit 13 (fun d => maskWrite d r.toNat v) s

end Sys2Proof.Machine
end

