-- ==== Sys2Proof/Machine/ResetOps.lean ====
section
/-!
DEFINITION. What a reset keeps and what it takes (19 R321 to R324, R330, R332), the write-back of records to the harbour
region (14 R250), and changes of power state (R337 to R340).
-/

namespace Sys2Proof.Machine

/-! ### Write-back (R63, R250) -/

/-- Journal units that are not durable. [log 17 DEDUCED unsafe] -/
def undurable (d : Dev) : List LogUnit := d.lbu.journal.filter fun u => d.lbu.durable ≤ u.lsn

/-- The record whose line a unit records a change of. -/
def LogUnit.changes (u : LogUnit) : Option RecId :=
  match u.body with
  | .state 2 _ h _ => some (rCtx (ctxIdx h))
  | .state 1 _ h _ => some (rBerth (berthIdx h))
  | .evalOut _ => some (rBerth u.berth)
  | .bollard h _ _ => some (rBol (bolIdx h))
  | _ => none

/-- Does a unit record a change of a pool? -/
def LogUnit.ofPool (u : LogUnit) : Bool :=
  match u.body with
  | .pool .. | .index _ | .state 4 _ _ _ => true
  | _ => false

/-- A record's line may be written back: the record of its last change is durable (R250). [log 18 DEDUCED unsafe] -/
def mayWriteBack (d : Dev) (r : RecId) : Bool := !(undurable d).any fun u => u.changes = some r

/-- Does the harbour copy of a record differ from the block's? -/
def dirty (d : Dev) : RecId → Bool
  | .ctx i => tget {} d.harbour.ctx i.toNat ≠ ctxAt d i.toNat
  | .berth i => tget {} d.harbour.berth i.toNat ≠ berthAt d i.toNat
  | .bollard i => tget {} d.harbour.bol i.toNat ≠ bolAt d i.toNat

/-- Do pool changes wait for the journal or for their index writes (R161, R250)? -/
def poolsOpen (d : Dev) : Bool := (undurable d).any LogUnit.ofPool || !d.lev.allocs.isEmpty

/-- The line of a place in the reference store (R230): context handle, mooring, BACKING_VA; zero where it is free.
[log 66 DEDUCED unsafe] -/
def refWords (d : Dev) (n : Nat) : List W64 :=
  match d.mmg.refs.find? fun x => x.slot = n with
  | some x => [mkW [(32, x.moor), (0, x.ctx)], mkW [(0, x.backing)]]
  | none => [0, 0]

/-- Reference lines that have changed go out, where no MOOR record is open (R250). [log 18 DEDUCED unsafe] -/
def flushRefs (d : Dev) : Dev :=
  if d.mmg.moors.any fun e => moorRecOpen d e.1 then d
  else d.mmg.dirtyRefs.foldl (fun d n => harbourWrite d (offRef + n * 16) (refWords d n)) (modMmg d fun g => { g with dirtyRefs := [] })

/-- Every dirty line whose last change is durable goes to the harbour region (R252 step 1, R323 step 1). -/
def writeBackAll (d : Dev) : Dev :=
  let pick := fun (mk : Nat → RecId) (t : List Nat) => (t.map mk).filter fun r => dirty d r && mayWriteBack d r
  let rs := pick rCtx ((d.btc.ctx.map (·.1) ++ d.harbour.ctx.map (·.1)).eraseDups) ++
    pick rBerth ((d.btc.berth.map (·.1) ++ d.harbour.berth.map (·.1)).eraseDups) ++
    pick rBol ((d.blu.slots.map (·.1) ++ d.harbour.bol.map (·.1)).eraseDups)
  let d := rs.foldl writeBack d
  let d := flushRefs d
  let d := (d.mfu.mans.filter (manDurable d)).foldl writeMan d
  let h := d.harbour
  { d with harbour := { h with waits := d.blu.waits, pools := if poolsOpen d then h.pools else d.lev.pools } }

/-! ### What a reset leaves (R322) -/

/-- The durable part of the journal, whole groups only (R255 step 4). [log 17 DEDUCED unsafe] -/
def durableJournal (d : Dev) : List LogUnit :=
  ((d.lbu.journal.filter fun u => u.lsn < d.lbu.durable).reverse.dropWhile fun u => !u.last).reverse

/-- A take, arrival or signal of a command whose BOLLARD record is durable or is no longer in the journal.
[log 17 DEDUCED unsafe] -/
def appliedDurable (d : Dev) (c : Cmd) (e : Nat) : Bool :=
  !(undurable d).any fun u => u.ref = c.ref && u.line = c.spec.lineNo && (match u.body with
    | .bollard _ e' _ => e' = e
    | _ => false)

/-- A manifest whose accept group is durable is what the logbook and the manifest table keep of it. [log 17 DEDUCED unsafe] -/
def keptMans (d : Dev) : List Manifest :=
  d.mfu.mans.filter fun m => (m.st = .logged || m.st = .accepted) && m.groupEnd < d.lbu.durable

/-- An accepted command as the durable log knows it: complete with the signals still to be applied, or as it was accepted,
with the takes, arrivals and signals and the BEGIN record that are durable (R256). [log 17 DEDUCED unsafe] -/
def keptCmd (d : Dev) (c : Cmd) : Cmd :=
  let ap := c.applied.filter (appliedDurable d c)
  match c.completeLsn with
  | some l =>
    if l < d.lbu.durable then
      { c with applied := ap, phase := if c.phase = .closing then .closing else .complete, sigNext := 0, sigRes := [],
               durable := true, regd := false, spin := none, sent := [], step := 0, moors := [] }
    else { key := c.key, berth := c.berth, ctx := c.ctx, headIdx := c.headIdx, ref := c.ref, spec := c.spec, applied := ap,
           beginLsn := c.beginLsn.filter (· < d.lbu.durable) }
  | none => { key := c.key, berth := c.berth, ctx := c.ctx, headIdx := c.headIdx, ref := c.ref, spec := c.spec, applied := ap,
              beginLsn := c.beginLsn.filter (· < d.lbu.durable) }

/-- A SIGNAL_HOST whose COMPLETE is durable and whose write was not acknowledged (R259). -/
def hostOwed (d : Dev) (c : Cmd) : Bool :=
  (match c.spec.op with | .signalHost .. => true | _ => false) && c.status = some 0 && !c.skipped && c.step < 2 &&
    (match c.completeLsn with | some l => l < d.lbu.durable | none => false)

/-- The accepted commands as the durable log knows them. [log 17 DEDUCED unsafe] -/
def keptCmds (d : Dev) : List Cmd :=
  (d.cmds.filter fun c => ((keptMans d).any fun m => m.berthIdx = c.berth && m.headIdx = c.headIdx) || hostOwed d c).map (keptCmd d)

/-- Registers that keep their value: those `keep` names. -/
def keepRegs (d : Dev) (keep : Nat → Nat → Bool) : Dev :=
  { d with regs := d.regs.filter fun e => keep (e.1 / 0x1000) (e.1 % 0x1000) }

/-- Moorings as their write-through leaves them, and the references without what is not durable; a load or repair in progress starts
again (R229, R250). [log 48 DEDUCED unsafe] -/
def keptMmg (d : Dev) : Mmg :=
  let lost := (undurable d).filterMap fun u => match u.body with
    | .moor c i created _ b => some (c, i, created, b)
    | _ => none
  let refs := lost.reverse.foldl (fun (rs : List MoorRef) (x : Nat × Nat × Bool × Nat) =>
    if x.2.2.1 then rs.filter fun r => !(r.ctx = x.1 && r.moor = x.2.1)
    else rs ++ [{ ctx := x.1, moor := x.2.1, backing := x.2.2.2, slot := freeSlot rs }]) d.mmg.refs
  let ms := d.harbour.moors.map fun (e : Nat × Mooring) =>
    (e.1, { e.2 with uses := 0, loaded := 0, fullReported := false })
  { moors := ms.filter fun e => !((e.2.st = .queued || e.2.st = .loading) && !refs.any fun r => r.moor = e.1), refs := refs, order := d.mmg.order }

/-- Watches that fired and whose write replay issues again (R259): the write had left and the written-back slot still shows the watch
armed, or the write still waited for the journal and the slot was written with its watch cleared. [log 56 DEDUCED unsafe] -/
def keptWatches (d : Dev) : List Watch :=
  d.blu.watches.filter fun w =>
    let i := bolIdx w.handle
    let c := tget {} d.harbour.bol i
    c.gen = bolGen w.handle && c.state = .live && (bolAt d i).state = .live && !(bolAt d i).watchArm &&
      (if c.watchArm then w.need ≤ d.lbu.durable else !w.sent)

/-- The on-chip SRAM of every island but the SCU is lost; the harbour region and what it holds stay (R322).
[log 17 DEDUCED unsafe] -/
def dropBlock (d : Dev) : Dev :=
  let h := d.harbour
  let j := durableJournal d
  { d with
    hpu := { held := d.hpu.held, out := d.hpu.out }
    btc := { ctx := h.ctx, berth := h.berth }
    mfu := { mans := keptMans d }
    plx := { entries := (d.plx.entries.filter fun e => e.harbour).map fun e => { e with onChip := false, inUse := 0 }
             nextEntry := d.plx.nextEntry }
    cmds := keptCmds d
    seqs := List.replicate 16 {}
    quays := d.quays.map fun q => { clock := q.clock }
    lev := { pools := h.pools }
    blu := { slots := h.bol, waits := h.waits.filter fun w => match w.who with | .here .. => false | .away .. => true
             gver := d.blu.gver, watches := keptWatches d }
    hms := { held := d.hms.held, therm := d.hms.therm }
    lbu := { journal := j, nextLsn := d.lbu.durable, durable := d.lbu.durable
             tail := d.lbu.tail, anchor := d.lbu.anchor, place := d.lbu.place, history := d.lbu.history
             redirected := d.lbu.redirected, rings := d.lbu.rings }
    mmg := keptMmg d
    fsa := { held := d.fsa.held, idents := d.fsa.idents.filter (fun i => i.lsn < d.lbu.durable), exports := d.fsa.exports,
             links := d.fsa.links.map fun l => { up := l.up }, sent := d.fsa.sent, lastEpoch := d.fsa.lastEpoch,
             session := (d.fsa.session + 1) % 2 ^ 16 }
    dtc := { dapHeld := d.dtc.dapHeld, dapOut := d.dtc.dapOut
             pilots := d.dtc.pilots.map fun p => { runs := p.runs + 1 } }
    coh := {} }

/-- Every island but the SCU parks and is held in reset (R23, R323 step 2); `hpu` says whether the HPU too. -/
def holdIslands (d : Dev) (hpu : Bool) : Dev := setFld d fInReset (if hpu then 0x5FFE else 0x5FFC)

/-- Quays whose drain under the idle request has not ended (R323). -/
def drainsOpen (d : Dev) : List Nat := (List.range 56).filter fun q => (quayAt d q).drains.any fun x => x.2 = .reset

/-- A block-alone reset is asserted (R322, R323 step 4): register fields of the reached islands take their Reset column,
PAGE_SCRATCH and the SCU page stay, what comes from configuration is placed again. The states of the mirrors stay too: only a
configuration that is loaded changes them (R260). [log 20 DESIGN CHOICE unsafe] -/
def assertReset (d : Dev) (hpu : Bool) : Dev :=
  let failed := drainsOpen d
  let d := keepRegs (dropBlock d) fun p o => p = 0 || o = 0x048 || (!hpu && p = 1) || (p = 7 && o = 0x0A0)
  dropLevels (applyConfig (holdIslands (modScu d fun s => { s with quayFailed := failed, open_ := [] }) hpu))

/-- A cold reset (R322, R324): the SCU's state goes too; the configuration is delivered again; S is Sealed until then. -/
def coldReset (d : Dev) (cause : Nat) : Dev :=
  let h := { d.harbour with fqProd := fld d fFqProd, fqCons := fld d fFqCons, fqOvf := fld d fFqOverflows }
  let q := d.scu
  let d := dropBlock { d with harbour := h }
  let d := { d with
    regs := []
    tide := 0
    hpu := { held := d.hpu.held, out := d.hpu.out }
    scu := { queue := q.queue, slots := q.slots, pendList := q.pendList, faultSeq := q.faultSeq, imgCopy := q.imgCopy,
             rtOut := q.rtOut } }
  setFld d fRstCause cause

/-- The fault queue's registers come from the harbour region at load (R307). -/
def loadFq (d : Dev) : Dev :=
  let h := d.harbour
  setFld (setFld (setFld (setFld d fFqProd h.fqProd) fFqCons h.fqCons) fFqOverflows h.fqOvf) fFqPending d.scu.slots.length

/-- A load fails (R332): UNLOADED with its reason; every island but the SCU and the HPU returns to reset. -/
def failLoad (d : Dev) (reason : Nat) : Dev :=
  let hpuHeld := fbit d fInReset 1
  let d := setFld (setFld d fLoadState 4) fLoadReason reason
  let d := assertReset d false
  let d := if hpuHeld then setFld d fInReset 0x5FFE else d
  let d := if fld d fPwrState = 5 then setFld (setFld d fPwrTarget 0) fPwrState 0 else d
  modScu d fun s => { s with load := .none, rst := if hpuHeld then .release else .none, lastOrder := if hpuHeld then 1 else 2,
                             rstStart := d.now, formatDue := false, goingOff := false }

/-- A load starts from the harbour copy or from the root of trust (R321, R328, R329). [log 57 DEDUCED unsafe] -/
def startLoad (d : Dev) (fromHarbour : Bool) : Dev :=
  let d := incSat (setFld (setFld d fLoadState 1) fLoadReason 0) fLoadAttempts
  let d := setFld d fLoadLog 0
  modScu d fun s => { s with load := .image, loadStart := d.now, fromHarbour := fromHarbour, imgCount := 0,
                             imgDone := false, imgVerdict := false,
                             rtOut := if fromHarbour then s.rtOut else s.rtOut ++ [(0, 2)] }

/-- The configuration is requested (R328). [log 57 DEDUCED unsafe] -/
def requestConfig (d : Dev) : Dev :=
  let d := incSat (setFld (setFld d fLoadState 1) fLoadReason 0) fLoadAttempts
  let d := setFld d fLoadLog 0
  modScu d fun s => { s with load := .config, loadStart := d.now, cfgChunks := [], cfgDone := false, cfgVerified := false,
                             imgDone := false, imgVerdict := false, imgCount := 0, fromHarbour := false,
                             rtOut := s.rtOut ++ [(0, 1)] }

/-- The load after a block-alone reset (R321, R322): with the configuration the SCU keeps, or, where none has been verified,
from the configuration request on. [log 57 DEDUCED unsafe] -/
def reload (d : Dev) (fromHarbour : Bool) : Dev := if d.scu.cfgVerified then startLoad d fromHarbour else requestConfig d

/-! ### Power (R337 to R340) -/

def anyHalted (d : Dev) : Bool := fld d fDtcHalted ≠ 0

/-- An entry is abandoned before it begins, because a pilot is halted (R349). [log 62 DEDUCED unsafe] -/
def refuseEntry (d : Dev) : Dev := raiseEvent (incSat (setFld d fPwrTarget 0) fPwrAbandoned) 0 6

/-- A TARGET takes effect (R337 to R340). [log 62 DEDUCED unsafe] -/
def applyTarget (d : Dev) (t : Nat) : Dev :=
  let d := setFld d fPwrTarget t
  if t = 0 then
    if fld d fPwrState = 3 then retainWakeOp d else setFld d fPwrState 0
  else if t = 1 then setFld (if fld d fPwrState = 3 then retainWakeOp d else d) fPwrState 1
  else if anyHalted d then refuseEntry d
  else if t = 2 then
    if fld d fPwrState = 3 then d
    else modScu (setFld d fPwrState 5) fun s => { s with retainReq := true, retainStart := d.now }
  else
    modScu (setFld (if fld d fPwrState = 3 then retainWakeOp d else d) fPwrState 5) fun s =>
      { s with goingOff := true, rst := .ask, rstStart := d.now, rstReload := false }

/-- A write of TARGET (R337 to R340): held over during a reset, a load or another change; in OFF_READY only RUN acts.
[log 62 DEDUCED unsafe] -/
def writeTarget (d : Dev) (t : Nat) : Dev :=
  if fld d fPwrState = 4 then
    let d := setFld d fPwrTarget t
    if t ≠ 0 then d
    else reload (modScu (setFld d fPwrState 0) fun s => { s with rst := .release, lastOrder := 2, rstStart := d.now }) true
  else if fld d fPwrState = 5 || d.scu.rst ≠ .none || (fld d fLoadState ≠ 3 && fld d fLoadState ≠ 4) then
    modScu (setFld d fPwrTarget t) fun s => { s with targetLater := some t }
  else applyTarget d t

/-- The TARGET held over takes effect. [log 62 DEDUCED unsafe] -/
def laterTarget (d : Dev) : Dev :=
  match d.scu.targetLater with
  | some t =>
    let d := modScu d fun s => { s with targetLater := none }
    if fld d fPwrState = 4 then writeTarget d t else applyTarget d t
  | none => d

/-! ### Pilots (R334) -/

/-- Pilots of a role still in service. -/
def rolePilots (d : Dev) (xlate : Bool) : List Nat :=
  (List.range 8).filter fun p => isTranslator d p = xlate && !fbit d fPilotOut p

/-- A pilot is locked up (R334, R275): the home forgets it, its translation starts anew elsewhere, and it is reset; on a
repeat within a second it stays out of service. -/
def lockupPilot (d : Dev) (p : Nat) : Dev :=
  if fbit d fPilotOut p || (at' {} d.dtc.pilots p).reset || inReset d 4 then d
  else
    let rel := d.scu.pilotRel.getD p 0
    let d := forgetAgent (dropXlate d p false) p
    let d := clrBit (clrBit d fDtcHalted p) fDtcInstrEn p
    let d := dropLevels (keepRegs d fun pg o => pg ≠ 0x10 + p || o = 0x048)
    let d := modPilot d p fun q => { q with reset := true, since := d.now, words := [], runs := q.runs + 1 }
    if rel ≠ 0 && tideW d < rel + 1000000000 then
      let d := setBit d fPilotOut p
      if (rolePilots d (isTranslator d p)).isEmpty then
        fatalCheck d (0x10 + p) 0x22 (if isTranslator d p then 1 else 0)
      else d
    else d

end Sys2Proof.Machine
end

