-- ==== Sys2Proof/Machine/Journal.lean ====
section
/-!
DEFINITION. The journal's durable point, checkpoints, and the mirrors (14 R243, R252, R260, R261).
-/

namespace Sys2Proof.Machine

/-! ### Mirrors -/

/-- A spare range is configured and not yet in use (R260, R262). [log 20 DESIGN CHOICE unsafe] -/
def spareFree (d : Dev) : Bool := fld d fLbuSpare ≠ 0xF && !d.lbu.place.contains 2

/-- What a mirror whose place is new, or that is LOST, keeps of failing pages: nothing (R260, R261). -/
def forgetPages (d : Dev) (m : Nat) : Dev :=
  modLbu d fun l => { l with history := l.history.filter fun x => x.1 ≠ decide (m = 1)
                             redirected := l.redirected.filter fun x => x.1 ≠ decide (m = 1) }

/-- A mirror is LOST (R260): LBU event 1; with a spare, the survivor is copied into it. [log 20 DESIGN CHOICE unsafe] -/
def loseMirror (d : Dev) (m : Nat) : Dev :=
  if mirrorSt d m ≠ 0 then d
  else
    let copy := spareFree d && mirrorSt d (1 - m) = 0
    let d := raiseEvent (setFld (forgetPages d m) (fLbuMirror m) (if copy then 2 else 1)) 7 1
    if copy then memReq d (.harbourCopy (mirrorBase d (1 - m)) (mirrorBase d m) (layoutEnd d.scu.cfg)) else d

/-- MIRROR_LOST (R260): a stack that holds one mirror reports lost. -/
def execMirrorLost (mirror : Bool) (s : State) : Host.Outcome State Fault Refusal :=
  onUnit 10 (fun d => loseMirror d (if mirror then 1 else 0)) s

/-- LBU_LOG_CFG's stack of a mirror. -/
def fLbuStack (m : Nat) : Fld := if m = 0 then fLbuStackA else fLbuStackB

/-- RESILVER_DONE (R260): the spare is the mirror that was lost, in state OK, with no page retired. [log 57 DEDUCED unsafe] -/
def execResilverDone (s : State) : Host.Outcome State Fault Refusal :=
  onUnit 10 (fun d =>
    match [0, 1].find? fun m => mirrorSt d m = 2 with
    | some m =>
      let d := setFld (setFld (setFld d (fLbuMirror m) 0) (fLbuStack m) (fld d fLbuSpare)) (fLbuRetired m) 0
      modLbu d fun l => { l with place := l.place.set m 2 }
    | none => d) s

/-- The second failure of a page in the history (R261): the page goes from the other mirror to a page of the spare pool, RETIRED and
LBU_RETIRE_LAST follow, LBU event 2; a mirror with 4,096 retired pages is LOST. [log 20 DESIGN CHOICE unsafe] -/
def retirePage (d : Dev) (m page : Nat) : Dev :=
  let key := (decide (m = 1), page)
  let d := modLbu d fun l => { l with history := l.history.filter (· ≠ key)
                                      redirected := l.redirected.filter (· ≠ key) ++ [key] }
  let d := memReq d (.harbourCopy (mirrorAddr d (1 - m) (page * 4096)) (mirrorAddr d m (page * 4096)) 4096)
  let d := incSat d (fLbuRetired m)
  let d := setFld (setFld (incWrap d fLbuRetSeq) fLbuRetMirror m) fLbuRetPage page
  let d := raiseEvent d 7 2
  if 4096 ≤ fld d (fLbuRetired m) then loseMirror d m else d

/-- A page of mirror `m` has answered poison and the other mirror has answered (R261): into the history, with the good copy
written back, or, there already, retired. [log 20 DESIGN CHOICE unsafe] -/
def noteFailure (d : Dev) (m page : Nat) : Dev :=
  if mirrorSt d m ≠ 0 then d
  else if d.lbu.history.contains (decide (m = 1), page) then retirePage d m page
  else
    let d := modLbu d fun l => { l with history :=
      (if l.history.length < 1024 then l.history else l.history.drop 1) ++ [(decide (m = 1), page)] }
    memReq d (.harbourCopy (mirrorAddr d (1 - m) (page * 4096)) (mirrorAddr d m (page * 4096)) 4096)

/-- A harbour read at an offset that mirror `m` answers with poison (R261, R306): the other mirror answers; without it the machine check
of code 0x23 follows. [log 20 DESIGN CHOICE unsafe] -/
def poisonRead (d : Dev) (m o : Nat) (other : MemResp) : Dev :=
  let d := memErr (memErr d 7 .poison o) 7 other o
  if other ≠ .ok || mirrorSt d (1 - m) ≠ 0 then mirrorsFailed d 7 o else noteFailure d m (o / 4096)

/-! ### The durable point (R243) -/

/-- One past the last unit of the prefix that is acknowledged. -/
def advance (acked : List Nat) : Nat → Nat → Nat
  | 0, n => n
  | k + 1, n => if acked.contains n then advance acked k (n + 1) else n

/-- What becomes of a checkpoint whose CKPT record is durable (R242, R252 step 4): the anchor of both mirrors names it, and the
journal before its tail is free. -/
def ckptDurable (d : Dev) (u : LogUnit) : Dev :=
  match u.body with
  | .ckpt tail _ =>
    let a : W64 × W64 := (BitVec.ofNat 64 u.lsn, crcWords [BitVec.ofNat 64 u.lsn])
    let d := harbourWrite d offLog [a.1, a.2]
    lowCheck (modLbu d fun l => { l with tail := tail, anchor := a, journal := l.journal.filter fun u => tail ≤ u.lsn })
  | .complete .. => incSat d fLbuCompletions
  | _ => d

/-! ### Checkpoints (R252) -/

/-- Is a unit one that a checkpoint copies forward: ACCEPT, BEGIN or EVAL_OUT of a manifest that is not done? -/
def copiedForward (d : Dev) (u : LogUnit) : Bool :=
  (match u.body with | .accept .. | .acceptEnd .. | .begin_ _ | .evalOut _ => true | _ => false) &&
    d.mfu.mans.any fun m => (m.st = .accepted || m.st = .logged) && m.lsn % 2 ^ 40 = u.ref

/-- The copies, each once, with their REF values. -/
def forwardCopies (d : Dev) : List LogIn :=
  ((d.lbu.journal.filter (copiedForward d)).map fun u =>
    ({ ref := u.ref, line := u.line, berth := u.berth, body := u.body } : LogIn)).eraseDups

/-- Steps 1 to 3 of a checkpoint whose start is `start`: dirty lines go out, the copies and the CKPT record are appended; its tail
is the start, below every copy. [log 18 DEDUCED unsafe] -/
def ckptOp (d : Dev) (start : Nat) : Dev :=
  let d := modLbu (writeBackAll d) fun l => { l with ckptStart := none }
  logGroup (logGroup d (forwardCopies d)) [{ body := .ckpt start (tideW d) }]

/-- A checkpoint under way goes on once every record before its start is durable. [log 18 DEDUCED unsafe] -/
def ckptGoOn (d : Dev) : Dev :=
  match d.lbu.ckptStart with
  | some n => if n ≤ d.lbu.durable then ckptOp d n else d
  | none => d

/-- A checkpoint is due: CKPT_US has passed since the last one started, or free space is low; both under the settings that the last one
found (R252, R262). -/
def ckptDue (d : Dev) : Bool := d.lbu.lastCkpt + us d.lbu.ckptUs ≤ d.now || logLow d

/-- A checkpoint starts: at the end of the journal, with the settings of now (R262). [log 18 DEDUCED unsafe] -/
def ckptStartOp (d : Dev) : Dev :=
  ckptGoOn (modLbu d fun l => { l with ckptStart := some l.nextLsn, lastCkpt := d.now, ckptUs := fld d fLbuCkptUs
                                       lowWater := fld d fLbuLowWater })

/-- CHECKPOINT (R252): every CKPT_US, and at once when free space is low. [log 18 DEDUCED unsafe] -/
def execCheckpoint (s : State) : Host.Outcome State Fault Refusal :=
  onUnit 10 (fun d =>
    if loaded d && d.scu.rst = .none && d.lbu.ckptStart.isNone && ckptDue d then ckptStartOp d else d) s

/-- The final checkpoint of an idle request that completes (R323 step 1): all of its records are durable. -/
def finalCkpt (d : Dev) : Dev :=
  let d := ckptOp d d.lbu.nextLsn
  let n := d.lbu.nextLsn
  (d.lbu.journal.filter fun u => d.lbu.durable ≤ u.lsn).foldl ckptDurable (modLbu d fun l => { l with durable := n, acked := [] })

/-! ### Acknowledgements -/

/-- A unit's write is acknowledged by every mirror that is not lost: the durable prefix may grow, watch writes that waited for it
leave, and a checkpoint that waited goes on (R243, R250, R252). [log 20 DESIGN CHOICE unsafe] -/
def unitAcked (d : Dev) (lsn : Nat) : Dev :=
  if lsn < d.lbu.durable || d.lbu.nextLsn ≤ lsn || d.lbu.acked.contains lsn || (mirrorSt d 0 ≠ 0 && mirrorSt d 1 ≠ 0) then d
  else
    let acked := d.lbu.acked ++ [lsn]
    let old := d.lbu.durable
    let new := advance acked acked.length old
    let d := modLbu d fun l => { l with durable := new, acked := acked.filter fun n => new ≤ n }
    let us := d.lbu.journal.filter fun u => old ≤ u.lsn && u.lsn < new
    ckptGoOn (flushMoors (fabricAcks (sendWatches (us.foldl ckptDurable d))))

/-- LOG_UNIT_DURABLE (R243): the mirrors have acknowledged the write of unit `lsn`. -/
def execLogUnitDurable (lsn : BitVec 64) (s : State) : Host.Outcome State Fault Refusal :=
  onUnit 10 (fun d => unitAcked d lsn.toNat) s

end Sys2Proof.Machine
end

