-- ==== Sys2Proof/Machine/Bcl.lean ====
section
/-!
DEFINITION. The Bexso command language (06): header checks (R97), the body rules of R110 split as R117 splits them, the content
hash (R111, R115), and the commands that a body spells.
-/

namespace Sys2Proof.Machine

/-! ### Lines and words -/

/-- Bits hi:lo of word `w` of line `i` of a manifest; 0 outside it. -/
def lf (ls : List Line) (i w hi lo : Nat) : Nat := getBits (lineWord (ls.getD i 0) w) hi lo

/-- LKIND of a line (R95). -/
def lkind (ls : List Line) (i : Nat) : Nat := lf ls i 7 31 24

/-- Does a line carry its CRC-32C in bytes 60 to 63 (R79, R87)? -/
def lineCrcOk (l : Line) : Bool := crc32c (lineBytes l 0 60) = (lineWord l 7).toNat / 2 ^ 32

/-- The line with bytes 60 to 63 cleared (R87). -/
def clearCrc (l : Line) : Line := BitVec.ofNat 512 (l.toNat % 2 ^ 480)

/-- The HEADER check (R97). -/
def headerOk (l : Line) : Bool :=
  let g := fun w hi lo => getBits (lineWord l w) hi lo
  g 0 63 48 = 0x4243 && g 7 31 24 = 0x10 && g 0 47 40 = 1 && g 0 39 32 = 0 && g 0 15 0 ≠ 0 && g 0 31 17 = 0 &&
    g 2 63 0 = 0 && g 3 63 0 = 0 && g 4 63 0 = 0 && g 5 63 0 = 0 && g 6 63 0 = 0 && g 7 23 0 = 0

/-! ### Fields (R98, R104, R107, R109) -/

def opOf (ls : List Line) (i : Nat) : Nat := lf ls i 0 63 56
def extOf (ls : List Line) (i : Nat) : Nat := lf ls i 0 55 52
def nwaitOf (ls : List Line) (i : Nat) : Nat := lf ls i 0 49 47
def nsigOf (ls : List Line) (i : Nat) : Nat := lf ls i 0 46 45
def argcOf (ls : List Line) (i : Nat) : Nat := lf ls i 2 45 40
def nloopOf (ls : List Line) (i : Nat) : Nat := lf ls i 3 51 49
def nopndOf (ls : List Line) (i : Nat) : Nat := lf ls i 3 48 45

/-- Fields marked I in a HEAD line beside word 1: (word, high, low), by opcode (R107, R109). -/
def headI (op : Nat) : List (Nat × Nat × Nat) :=
  if op = 1 then [(2, 56, 0), (4, 63, 0), (5, 63, 0)] else if op = 2 then [(2, 56, 0), (3, 56, 0)]
  else if op = 3 then [(3, 63, 0), (4, 63, 0), (5, 63, 0), (6, 63, 0)]
  else if op = 4 then [(2, 63, 52), (3, 56, 0), (4, 56, 0)] else if op = 5 then [(2, 63, 52), (3, 56, 0)]
  else if op = 6 then [(2, 56, 0), (3, 56, 0), (4, 56, 0)] else if op = 8 then [(2, 56, 0), (3, 63, 0)]
  else if op = 9 then [(2, 63, 0), (3, 56, 0)] else if op = 10 then [(2, 63, 0)] else []

/-- Reserved bits of a HEAD line by opcode: (word, high, low, in a word that holds an I field). -/
def headReserved (op : Nat) : List (Nat × Nat × Nat × Bool) :=
  [(0, 42, 32, false), (0, 15, 0, false), (7, 23, 0, false)] ++
  (if op = 1 then [(2, 63, 57, true), (3, 40, 24, false), (6, 63, 0, false)]
   else if op = 2 then [(2, 63, 57, true), (3, 63, 57, true), (4, 63, 40, false), (5, 63, 4, false), (6, 63, 0, false)]
   else if op = 3 then [(2, 47, 46, false), (2, 39, 0, false)]
   else if op = 4 then [(2, 50, 32, true), (3, 63, 57, true), (4, 63, 57, true), (5, 63, 0, false), (6, 63, 0, false)]
   else if op = 5 then [(2, 51, 32, true), (3, 63, 57, true), (4, 63, 0, false), (5, 63, 0, false), (6, 63, 0, false)]
   else if op = 6 then [(2, 63, 57, true), (3, 63, 57, true), (4, 63, 57, true), (5, 51, 0, false), (6, 63, 0, false)]
   else if op = 8 then [(2, 63, 57, true), (2, 2, 0, true), (4, 63, 1, false), (5, 63, 0, false), (6, 63, 0, false)]
   else if op = 9 then [(3, 63, 57, true), (4, 63, 40, false), (5, 63, 0, false), (6, 63, 0, false)]
   else if op = 10 then [(3, 63, 0, false), (4, 63, 0, false), (5, 63, 0, false), (6, 63, 0, false)]
   else if op = 7 || op = 11 || op = 12 then
     [(2, 63, 0, false), (3, 63, 0, false), (4, 63, 0, false), (5, 63, 0, false), (6, 63, 0, false)]
   else [])

/-- Extension lines that a HEAD line's fields call for, in order (R99, R106). -/
def extDue (ls : List Line) (i : Nat) : List Nat :=
  (if opOf ls i = 1 then 0x02 :: List.replicate (nopndOf ls i) 0x03
   else if opOf ls i = 3 then List.replicate ((argcOf ls i - 4 + 6) / 7) 0x04 else []) ++
  List.replicate ((nwaitOf ls i + nsigOf ls i + 1) / 2) 0x05

/-! ### Body rules (R110) -/

/-- A breach: line, rule number, and whether it is checked on every sight (R117). -/
structure Breach where
  line : Nat
  rule : Nat
  sight : Bool
  deriving DecidableEq, Repr

def breach (b : Bool) (line rule : Nat) (sight : Bool := false) : List Breach := if b then [⟨line, rule, sight⟩] else []

/-- A dynamic field is a literal, or a reference to a register that an earlier EVAL sets (R101). -/
def dynOk (psets v : Nat) : Bool := v < 2 ^ 31 || (v < 2 ^ 31 + 4 && nbit' psets (v - 2 ^ 31))
where nbit' (m i : Nat) : Bool := m / 2 ^ i % 2 = 1

/-- The kind of station at a position of a core (R107). -/
def posKind (station : Nat) : Nat := if station % 4 < 2 then 0 else station % 4 - 1

/-- Non-SYNC lines after line `i`: those that the hash covers. -/
def hashedAfter (ls : List Line) (n i : Nat) : Nat := ((List.range (n - i)).filter fun q => lkind ls (i + 1 + q) ≠ 0x05).length

/-- Rules on a HEAD line at line `i` of a manifest of `n` command lines. What hangs on the place of SYNC lines is checked on every sight.
[log 25 DEDUCED unsafe] -/
def headBreaches (ls : List Line) (n psets i : Nat) : List Breach :=
  let op := opOf ls i
  let br := lf ls i 0 44 43
  let tgt := lf ls i 0 31 16
  let known := 1 ≤ op && op ≤ 12
  let nowait := op = 4 && lf ls i 2 51 51 = 1
  breach (!known || (known && extOf ls i ≠ (extDue ls i).length)) i 2 ++
  breach (n < i + extOf ls i) i 2 (hashedAfter ls n i ≥ ((extDue ls i).filter (· ≠ 0x05)).length) ++
  breach (4 < nwaitOf ls i || 2 < nsigOf ls i) i 3 ++
  breach (op = 12 && i + extOf ls i < n) i 4 (hashedAfter ls n i = 0) ++
  breach ((br = 0 && tgt ≠ 0) || (br = 1 && !nowait) || (br = 2 && !(op = 6 && lf ls i 5 52 52 = 1)) || (nowait && br ≠ 1) ||
    ((br = 1 || br = 2) && !(i < tgt && tgt ≤ n && lkind ls tgt = 0x01))) i 5 ++
  breach ((lf ls i 0 51 51 = 1 && !(op = 1 || op = 2 || op = 6 ||
      (op = 3 && lf ls i 2 63 48 ≠ 2 && lf ls i 2 63 48 ≠ 5))) ||
    (lf ls i 0 50 50 = 1 && (op = 7 || op = 12))) i 6 ++
  breach ((op = 4 || op = 5) && !dynOk psets (lf ls i 2 31 0)) i 7 ++
  breach (op = 1 && (nloopOf ls i = 0 || 6 < nloopOf ls i || nopndOf ls i = 0 || 8 < nopndOf ls i ||
    lf ls i 3 63 62 = 3 || nloopOf ls i ≤ lf ls i 3 44 42 ||
    (lf ls i 3 41 41 = 0 && lf ls i 3 61 52 ≠ 0) ||
    (lf ls i 3 41 41 = 1 && lf ls i 3 63 62 ≠ posKind (lf ls i 3 61 52)))) i 8 ++
  breach (op = 3 && (lf ls i 2 63 48 = 0 || 6 < lf ls i 2 63 48 || 32 < argcOf ls i)) i 9 ++
  breach ((op = 6 && (lf ls i 5 63 56 = 0 || 64 < lf ls i 5 63 56)) || (op = 2 && lf ls i 4 39 0 = 0)) i 10 ++
  breach (br = 3) i 11 ++
  (headReserved op).flatMap fun r => breach (lf ls i r.1 r.2.1 r.2.2.1 ≠ 0) i 11 r.2.2.2

/-- Rules on a LOOP line `j` of the command at `i`. [log 25 DEDUCED unsafe] -/
def loopBreaches (ls : List Line) (psets i j : Nat) : List Breach :=
  let trip := fun l => lf ls j (l / 2) (32 * (l % 2) + 31) (32 * (l % 2))
  let o := lf ls j 4 63 60
  breach (!(List.range (min 6 (nloopOf ls i))).all fun l => dynOk psets (trip l)) j 7 ++
  breach ((o ≠ 0xF && nopndOf ls i ≤ o) || lf ls j 5 31 0 % 4 ≠ 0) j 8 ++
  breach ((List.range 6).any fun l => nloopOf ls i ≤ l && trip l ≠ 0) j 11 ++
  breach (lf ls j 4 59 32 ≠ 0 || lf ls j 5 63 32 ≠ 0 || lf ls j 6 63 0 ≠ 0 || lf ls j 7 23 0 ≠ 0) j 11 ++
  breach (lf ls j 3 63 57 ≠ 0 || lf ls j 3 1 0 ≠ 0) j 11 true

/-- Rules on an OPERAND line `j` of the command at `i`; `prev` are its OPERAND lines before it. [log 25 DEDUCED unsafe] -/
def opndBreaches (ls : List Line) (prev : List Nat) (j : Nat) : List Breach :=
  let send := fun l => lf ls l 1 63 56
  breach (send j = 0xFF || 3 < lf ls j 1 54 52 || prev.any fun k => send k = send j) j 8 ++
  breach (lf ls j 1 49 32 ≠ 0 || lf ls j 4 63 32 ≠ 0 || lf ls j 6 63 0 ≠ 0 || lf ls j 7 23 0 ≠ 0) j 11 ++
  breach (lf ls j 0 63 57 ≠ 0 || (lf ls j 5 63 0 ≠ 0 && lf ls j 1 55 55 = 1)) j 11 true

/-- Rules on the `a`-th ARGS line `j` of the command at `i`: words beyond ARGC are reserved (R109). [log 25 DEDUCED unsafe] -/
def argsBreaches (ls : List Line) (i a j : Nat) : List Breach :=
  breach (lf ls j 7 23 0 ≠ 0 || (List.range 7).any fun x => argcOf ls i ≤ 4 + 7 * a + x && lf ls j x 63 0 ≠ 0) j 11

/-- Entry `k` of a command whose first SYNC line is `s`: node, handle, VALUE, CAP, FLAGS (R104). -/
def syncAt (ls : List Line) (s k : Nat) : Nat × Nat × Nat × Nat × Nat :=
  let j := s + k / 2
  let b := 3 * (k % 2)
  (lf ls j b 63 32, lf ls j b 31 0, lf ls j (b + 1) 63 0, lf ls j (b + 2) 63 0, lf ls j 6 (16 * (k % 2) + 15) (16 * (k % 2)))

/-- The FLAGS and VALUE of an entry keep to R105 and R173. -/
def entryOk (isWait : Bool) (e : Nat × Nat × Nat × Nat × Nat) : Bool :=
  let fl := e.2.2.2.2; let v := e.2.2.1; let code := fl % 16
  1 ≤ code && code ≤ 5 && fl / 32 = 0 && (isWait || fl / 16 % 2 = 0) && !((code = 4 || code = 5) && v ≠ 0) &&
    !(code = 3 && 2 ^ 32 ≤ v)

/-- Rules on the `p`-th SYNC line `j` of the command at `i`. -/
def syncBreaches (ls : List Line) (i p j : Nat) : List Breach :=
  let nw := nwaitOf ls i
  let total := nw + nsigOf ls i
  let bad := fun k =>
    let e := syncAt ls (j - p) k
    if k < total then !entryOk (k < nw) e else e.1 ≠ 0 || e.2.1 ≠ 0 || e.2.2.1 ≠ 0 || e.2.2.2.1 ≠ 0 || e.2.2.2.2 ≠ 0
  breach (bad (2 * p) || bad (2 * p + 1) || lf ls j 6 63 32 ≠ 0 || lf ls j 7 23 0 ≠ 0) j 11 true

/-- Rules on an extension line `j` of the kind `k` that is due; `prev` are the lines of that kind before it. -/
def lineBreaches (ls : List Line) (psets i k : Nat) (prev : List Nat) (j : Nat) : List Breach :=
  if k = 0x02 then loopBreaches ls psets i j
  else if k = 0x03 then opndBreaches ls prev j
  else if k = 0x04 then argsBreaches ls i prev.length j
  else syncBreaches ls i prev.length j

/-- Rules on the extension lines of the command at `i` from line `j` on, and the line after them. A kind that is not the one due breaks
rule 1. SYNC lines lie outside the hash (R115): the place of one is checked on every sight, and the walk goes on over the lines that the
hash covers, so that the cached checks answer alike for every body of a key (R117). [log 25 DEDUCED unsafe] -/
def extWalk (ls : List Line) (n psets i : Nat) : Nat → List Nat → Nat → List Nat → Nat → List Breach × Nat
  | 0, _, _, _, j => ([], j)
  | _, [], _, _, j => ([], j)
  | f + 1, k :: due, last, prev, j =>
    let prev := if k = last then prev else []
    if n < j then ([], j)
    else if lkind ls j = k then
      let r := extWalk ls n psets i f due k (prev ++ [j]) (j + 1)
      (lineBreaches ls psets i k prev j ++ r.1, r.2)
    else if lkind ls j = 0x05 then
      let r := extWalk ls n psets i f (k :: due) k prev (j + 1)
      (⟨j, 1, true⟩ :: r.1, r.2)
    else if k = 0x05 then ([⟨j, 1, true⟩], j)
    else
      let r := extWalk ls n psets i f due k prev (j + 1)
      (⟨j, 1, false⟩ :: r.1, r.2)

/-- Breaches from line `i` on. A cached breach on which the shape of the rest hangs ends the walk. [log 25 DEDUCED unsafe] -/
def walkBody (ls : List Line) (n : Nat) : Nat → Nat → Nat → List Breach
  | 0, _, _ => []
  | k + 1, i, psets =>
    if n < i then []
    else if lkind ls i ≠ 0x01 then
      if lkind ls i = 0x05 then ⟨i, 1, true⟩ :: walkBody ls n k (i + 1) psets else [⟨i, 1, false⟩]
    else
      let hb := headBreaches ls n psets i
      if hb.any fun b => b.rule = 2 && !b.sight then hb
      else
        let ps := if opOf ls i = 6 then psets ||| lf ls i 5 55 52 else psets
        let (eb, j) := extWalk ls n psets i (n + 1) (extDue ls i) 0 [] (i + 1)
        let endRule := breach (hashedAfter ls n (j - 1) = 0 && opOf ls i ≠ 12) n 4
        hb ++ eb ++ endRule ++ walkBody ls n k j ps

/-- LINE_COUNT of a header line. -/
def lineCountOf (h : Line) : Nat := getBits (lineWord h 0) 15 0

/-- Every breach of a manifest. [log 25 DEDUCED unsafe] -/
def breaches (ls : List Line) : List Breach :=
  let n := ls.length - 1
  walkBody ls n ls.length 1 0

/-- The first of a list of breaches: lowest line, then lowest rule. [log 25 DEDUCED unsafe] -/
def firstBreach (bs : List Breach) : Option (Nat × Nat) :=
  bs.foldl (fun m b => match m with
    | none => some (b.rule, b.line)
    | some (r, l) => if b.line < l || (b.line = l && b.rule < r) then some (b.rule, b.line) else m) none

/-- The first breach of the cached checks: rule and line. -/
def cachedBreach (ls : List Line) : Option (Nat × Nat) := firstBreach ((breaches ls).filter fun b => !b.sight)

/-- The first breach over the per-sight checks and the outcome that an entry holds (R117). -/
def sightBreach (ls : List Line) (held : Option (Nat × Nat)) : Option (Nat × Nat) :=
  firstBreach ((breaches ls).filter (·.sight) ++ (match held with | some (r, l) => [⟨l, r, false⟩] | none => []))

/-! ### The content hash (R111, R115) -/

/-- A line with bits hi:lo of word `w` zero. -/
def zeroBits (l : Line) (w hi lo : Nat) : Line :=
  BitVec.ofNat 512 (l.toNat - getBits (lineWord l w) hi lo * 2 ^ (64 * w + lo))

def zeroI (l : Line) (fs : List (Nat × Nat × Nat)) : Line := fs.foldl (fun l f => zeroBits l f.1 f.2.1 f.2.2) l

/-- Lines as they enter the hash, from line `i` on: `argc` and `na` follow the CALL whose ARGS lines come next. -/
def hashBody : List Line → Nat → Nat → List Line
  | [], _, _ => []
  | l :: r, argc, na =>
    let k := getBits (lineWord l 7) 31 24
    let op := getBits (lineWord l 0) 63 56
    if k = 0x05 then hashBody r argc na
    else if k = 0x01 then
      zeroI l ((1, 63, 0) :: headI op) :: hashBody r (if op = 3 then getBits (lineWord l 2) 45 40 else 0) 0
    else if k = 0x02 then zeroI l [(3, 56, 0)] :: hashBody r argc na
    else if k = 0x03 then zeroI l [(0, 56, 0), (5, 63, 0)] :: hashBody r argc na
    else if k = 0x04 then
      zeroI l (((List.range 7).filter fun x => 4 + 7 * na + x < argc).map fun x => (x, 63, 0)) :: hashBody r argc (na + 1)
    else l :: hashBody r argc na

/-- The 256-bit content hash of a manifest. -/
def contentHash (ls : List Line) : Nat :=
  match ls with
  | [] => sha256 []
  | h :: r => sha256 ((zeroBits h 1 63 0 :: hashBody r 0 0).flatMap fun l => lineBytes l 0 60)

/-! ### The commands of a body -/

/-- A 32-bit stride as a signed number (R107). -/
def signed32 (v : Nat) : Int := if v < 2 ^ 31 then Int.ofNat v else Int.ofNat v - 2 ^ 32

def opndOf (ls : List Line) (j : Nat) : Opnd :=
  let f := lf ls j
  { base := f 0 56 0, send := f 1 63 56, dir := f 1 55 55 = 1, elem := f 1 54 52, hint := f 1 51 50
    strides := [signed32 (f 1 31 0), signed32 (f 2 31 0), signed32 (f 2 63 32), signed32 (f 3 31 0), signed32 (f 3 63 32),
      signed32 (f 4 31 0)]
    moorKey := BitVec.ofNat 64 (f 5 63 0) }

def launchOf (ls : List Line) (i : Nat) : LaunchOp :=
  let f := lf ls i; let g := lf ls (i + 1)
  { kernelVa := f 2 56 0, skind := f 3 63 62, station := f 3 61 52, nloop := f 3 51 49, splitLevel := f 3 44 42
    named := f 3 41 41 = 1, tileNs := f 3 23 0, karg0 := BitVec.ofNat 64 (f 4 63 0), karg1 := BitVec.ofNat 64 (f 5 63 0)
    trips := [g 0 31 0, g 0 63 32, g 1 31 0, g 1 63 32, g 2 31 0, g 2 63 32]
    idxVa := g 3 56 0, idxOpnd := g 4 63 60, idxScale := g 4 31 0, idxRow := g 5 31 0
    opnds := (List.range (f 3 48 45)).map fun k => opndOf ls (i + 2 + k) }

/-- Arguments of a CALL: ARG0 to ARG3 from the HEAD line, the rest from ARGS lines. [log 26 PRESUMED unsafe] -/
def callArgs (ls : List Line) (i : Nat) : List W64 :=
  (List.range (argcOf ls i)).map fun a =>
    if a < 4 then BitVec.ofNat 64 (lf ls i (3 + a) 63 0)
    else BitVec.ofNat 64 (lf ls (i + 1 + (a - 4) / 7) ((a - 4) % 7) 63 0)

/-- [log 26 PRESUMED unsafe] -/
def cmdOpOf (ls : List Line) (i : Nat) : CmdOp :=
  let f := lf ls i
  let op := opOf ls i
  if op = 1 then .launch (launchOf ls i)
  else if op = 2 then .copy (f 2 56 0) (f 3 56 0) (f 4 39 0) (f 5 3 2) (f 5 1 0)
  else if op = 3 then .call (f 2 63 48) (callArgs ls i)
  else if op = 4 then .alloc (f 2 63 52) (f 2 51 51 = 1) (f 2 31 0) (f 3 56 0) (f 4 56 0)
  else if op = 5 then .free (f 2 63 52) (f 2 31 0) (f 3 56 0)
  else if op = 6 then .eval (f 2 56 0) (f 3 56 0) (f 4 56 0) (f 5 63 56) (f 5 55 52)
  else if op = 7 then .barrier
  else if op = 8 then .signalHost (f 2 56 0) (BitVec.ofNat 64 (f 3 63 0)) (f 4 0 0 = 1)
  else if op = 9 then .moor (BitVec.ofNat 64 (f 2 63 0)) (f 3 56 0) (f 4 39 0)
  else if op = 10 then .unmoor (BitVec.ofNat 64 (f 2 63 0))
  else if op = 11 then .nop else .endOp

def entOf (e : Nat × Nat × Nat × Nat × Nat) : SyncEnt :=
  { node := e.1, handle := e.2.1, value := BitVec.ofNat 64 e.2.2.1, cap := BitVec.ofNat 64 e.2.2.2.1,
    code := e.2.2.2.2 % 16, cont := e.2.2.2.2 / 16 % 2 = 1 }

/-- The command whose HEAD line is line `i` of a body that breaks no rule. -/
def specOf (ls : List Line) (i : Nat) : CmdSpec :=
  let f := lf ls i
  let nw := nwaitOf ls i
  let s := i + 1 + (extDue ls i).findIdx (· = 0x05)
  { op := cmdOpOf ls i, lineNo := i, replay := f 0 51 51 = 1, concurrent := f 0 50 50 = 1, brCond := f 0 44 43
    brTarget := f 0 31 16, operatorId := f 1 63 48, layerId := f 1 47 32, tag := f 1 31 0
    waits := (List.range nw).map fun k => entOf (syncAt ls s k)
    sigs := (List.range (nsigOf ls i)).map fun k => entOf (syncAt ls s (nw + k)) }

/-- The commands from line `i` on. -/
def walkSpecs (ls : List Line) : Nat → Nat → List CmdSpec
  | 0, _ => []
  | k + 1, i => if ls.length ≤ i then [] else specOf ls i :: walkSpecs ls k (i + 1 + extOf ls i)

/-- The commands of a manifest in order. -/
def specs (ls : List Line) : List CmdSpec := walkSpecs ls ls.length 1

end Sys2Proof.Machine
end

