-- ==== Sys2Proof/WellFormed.lean ====
section
/-!
DEFINITION. Which commands carry operands the manual defines: links 0 to 47 (02, Fabric port), quays Q00 to Q55
(R10, R38), caching agents 0x0 to 0xB (R264), islands by unit number 1 to 14 (R10), stash targets other than 0b00
(02, Host port), and the island pages of R38 where a command names a page that can be quiesced (R53).
-/

namespace Sys2Proof

/-- Link 0 to 47; 48 to 63 are reserved. [log 5 DEDUCED safe] -/
def linkOk (l : BitVec 6) : Bool := l.toNat < 48
/-- Quay 0 to 55. [log 5 DEDUCED safe] -/
def quayOk (q : BitVec 6) : Bool := q.toNat < 56
/-- Caching agent 0x0 to 0xB (R264). [log 5 DEDUCED safe] -/
def agentOk (x : BitVec 4) : Bool := x.toNat < 12
/-- Island by unit number, 1 to 14 (R10). [log 5 DEDUCED safe] -/
def islandOk (u : BitVec 4) : Bool := 1 ≤ u.toNat && u.toNat ≤ 14
/-- Stash target; 0b00 is reserved. [log 5 DEDUCED safe] -/
def stashOk (t : BitVec 2) : Bool := t.toNat != 0

/-- The operands of a command are ones the manual defines. [log 5 DEDUCED safe] -/
def Instr.wellFormed : Instr → Bool
  | .stashWrite t _ _ _ => stashOk t
  | .reclaim q | .descriptorLaunch q | .completionPacket q _ | .drainRequest q _ | .drainDone q | .drainTimeout q
  | .quayClockStopped q | .quayClockReturn q | .revive q => quayOk q
  | .stallReport (.quay q) => quayOk q
  | .traceRecord (.quay q) => quayOk q
  | .enumToken l | .enumReply l | .census l | .route l | .isolate l | .linkDown l | .linkUp l
  | .fabricPacketReceive l _ _ | .tideSync l | .departureStamp l _ => linkOk l
  | .linkSessionKey sel _ => linkOk (sel.extractLsb' 0 6) && linkOk (sel.extractLsb' 6 6)
  | .rds x _ _ | .rdx x _ _ | .upg x _ _ | .wb x _ _ | .evc x _ _ | .wrpart x _ _ _ _ | .atm x _ _ _
  | .snoopResponse x _ | .pushAnswer x _ | .done x _ | .snps x _ | .snpx x _ | .inv x _ | .snpcur x _ | .push x _
  | .dataGrant x _ | .cmp x _ | .wrcmp x _ | .wback x _ | .atmrsp x _ => agentOk x
  | .protocolError m => agentOk m.dst
  | .clockFailure u | .parkEscalation u | .islandRelease u | .retainWake u | .dozeEntry u | .dozeWake u => islandOk u
  | _ => true

end Sys2Proof
end

