-- ==== Sys2Proof/Machine/Coherence.lean ====
section
/-!
DEFINITION. Internal coherence (15): requests as agents send them and the home grants them, the agents' answers to every
message (R270), and the home's side of answers, pushes and Done.
-/

namespace Sys2Proof.Machine

/-! ### Requests -/

/-- The arbiter grants the oldest request for a line that is not busy, with at most 256 lines busy (R267); an agent's requests reach it in
the order in which they were sent (R20). A line of a berth or context record is given only while the record is on chip (R265); the data
of a write-back of a manifest line wait for the journal (R266). [log 22 DEDUCED safe] -/
def grantReq (d : Dev) (x l : Nat) (isKind : CReq → Bool) : Dev :=
  match takeFirst (fun e => e.1 = l) d.coh.queue with
  | none => d
  | some (e, rest) =>
    if e.2.1 ≠ x || !isKind e.2.2 || lineBusy d l || 256 ≤ d.coh.busy.length ||
        (d.coh.queue.takeWhile (· ≠ e)).any (fun f => f.2.1 = x && atHead d f) then d
    else
      let go := pumpHome (homeServe (modCoh d fun c => { c with queue := rest }) x l e.2.2)
      match e.2.2, lineRec d.scu.cfg l with
      | .rds, some r | .rdx, some r | .upg, some r | .wrpart .., some r =>
        if onChip d r then go else askRecord d r
      | .wb _, none => if copyOpen d l then go else d
      | _, _ => go

/-- A request row: the agent's own step when it sends, for a coherent line only (R264), and the home's when it grants.
[log 22 DEDUCED safe] -/
def reqRow (x : BitVec 4) (l : BitVec 48) (p : ReqPhase) (send grant : Dev → Dev) (s : State) : Host.Outcome State Fault Refusal :=
  if !agentOk x then reservedOp
  else match p with
    | .send => onUnit (agentUnit x.toNat) (fun d => if (x.toNat < 8 && !pilotRuns d x.toNat) || !cohLine d l.toNat then d else send d) s
    | .grant => onUnit 2 grant s

/-- RDS (R269, R270 Load): a load that misses sends RdS. -/
def execRds (x : BitVec 4) (l : BitVec 48) (p : ReqPhase) (s : State) : Host.Outcome State Fault Refusal :=
  reqRow x l p
    (fun d => if lineSt d x.toNat l.toNat = .i && !cacheFull d x.toNat then
        sendReq (setLine d x.toNat l.toNat .is 0) x.toNat l.toNat .rds else d)
    (fun d => grantReq d x.toNat l.toNat fun q => match q with | .rds => true | _ => false) s

/-- RDX (R269, R270 Store in I): not sent by a pilot (R268). -/
def execRdx (x : BitVec 4) (l : BitVec 48) (p : ReqPhase) (s : State) : Host.Outcome State Fault Refusal :=
  reqRow x l p
    (fun d => if 8 ≤ x.toNat && lineSt d x.toNat l.toNat = .i && !cacheFull d x.toNat then
        sendReq (setLine d x.toNat l.toNat .ix 0) x.toNat l.toNat .rdx else d)
    (fun d => grantReq d x.toNat l.toNat fun q => match q with | .rdx => true | _ => false) s

/-- UPG (R269, R270 Store in S or F); in C the store moves to D without a request. Not sent by a pilot. -/
def execUpg (x : BitVec 4) (l : BitVec 48) (p : ReqPhase) (s : State) : Host.Outcome State Fault Refusal :=
  reqRow x l p
    (fun d =>
      let v := lineData d x.toNat l.toNat
      if x.toNat < 8 then d
      else match lineSt d x.toNat l.toNat with
        | .s | .f => sendReq (setLine d x.toNat l.toNat .sx v) x.toNat l.toNat .upg
        | .c => setLine d x.toNat l.toNat .d v
        | _ => d)
    (fun d => grantReq d x.toNat l.toNat fun q => match q with | .upg => true | _ => false) s

/-- WB (R271, R270 Eviction of D). -/
def execWb (x : BitVec 4) (l : BitVec 48) (p : ReqPhase) (s : State) : Host.Outcome State Fault Refusal :=
  reqRow x l p
    (fun d =>
      let v := lineData d x.toNat l.toNat
      if lineSt d x.toNat l.toNat = .d then sendReq (setLine d x.toNat l.toNat .wb v) x.toNat l.toNat (.wb v) else d)
    (fun d => grantReq d x.toNat l.toNat fun q => match q with | .wb _ => true | _ => false) s

/-- EVC (R269, R270 Eviction of S, F or C). -/
def execEvc (x : BitVec 4) (l : BitVec 48) (p : ReqPhase) (s : State) : Host.Outcome State Fault Refusal :=
  reqRow x l p
    (fun d => match lineSt d x.toNat l.toNat with
      | .s | .f | .c => sendReq (setLine d x.toNat l.toNat .i 0) x.toNat l.toNat .evc
      | _ => d)
    (fun d => grantReq d x.toNat l.toNat fun q => match q with | .evc => true | _ => false) s

/-- WRPART (R268): a pilot's store, sent in any state. -/
def execWrpart (x : BitVec 4) (l : BitVec 48) (be : BitVec 64) (data : Line) (p : ReqPhase) (s : State) :
    Host.Outcome State Fault Refusal :=
  reqRow x l p
    (fun d => if x.toNat < 8 then sendReq d x.toNat l.toNat (.wrpart be data) else d)
    (fun d => grantReq d x.toNat l.toNat fun q => match q with | .wrpart .. => true | _ => false) s

/-- ATM (R272). -/
def execAtm (x : BitVec 4) (l : BitVec 48) (op : AtmOp) (p : ReqPhase) (s : State) :
    Host.Outcome State Fault Refusal :=
  reqRow x l p (fun d => sendReq d x.toNat l.toNat (.atm op))
    (fun d => grantReq d x.toNat l.toNat fun q => match q with | .atm _ => true | _ => false) s

/-! ### The home's side of answers -/

/-- SNOOP_RESPONSE (R269): RspData, RspI or Ack, in the order in which the agent sent its answers (R20); dirty data of a manifest line wait
until they may be written to the harbour region (R266). -/
def execSnoopResponse (x : BitVec 4) (l : BitVec 48) (s : State) : Host.Outcome State Fault Refusal :=
  if !agentOk x then reservedOp
  else onUnit 2 (fun d =>
    match takeFirst (fun a => a.1 = x.toNat) d.coh.answers with
    | none => d
    | some (a, rest) =>
      if a.2.1 ≠ l.toNat || (a.2.2.1.isSome && !copyOpen d l.toNat) then d
      else match tfind d.coh.busy l.toNat with
        | some { req := .push, .. } => d
        | some _ => takeAnswer (modCoh d fun c => { c with answers := rest }) x.toNat l.toNat a.2.2.1 a.2.2.2
        | none => modCoh d fun c => { c with answers := rest }) s

/-- PUSH_ANSWER (R273): PushAck records the target as the owner in C; PushNack leaves the line I. -/
def execPushAnswer (x : BitVec 4) (l : BitVec 48) (s : State) : Host.Outcome State Fault Refusal :=
  if !agentOk x then reservedOp
  else onUnit 2 (fun d =>
    match tfind d.coh.busy l.toNat, takeFirst (fun a => a.1 = x.toNat) d.coh.answers with
    | some { req := .push, .. }, some (a, rest) =>
      if a.2.1 ≠ l.toNat then d
      else
        let d := modCoh d fun c => { c with answers := rest }
        if a.2.2.2 then incSat (endBusy d l.toNat) fBtcPushRefused
        else incSat (endBusy (setDir d l.toNat (some (.owner x.toNat))) l.toNat) fBtcPushTaken
    | _, _ => d) s

/-- DONE (R267): the line's busy period ends; an agent's Dones arrive in their order (R20). -/
def execDone (x : BitVec 4) (l : BitVec 48) (s : State) : Host.Outcome State Fault Refusal :=
  if !agentOk x then reservedOp
  else onUnit 2 (fun d =>
    match takeFirst (fun a => a.1 = x.toNat) d.coh.dones with
    | some (a, rest) =>
      if a.2 ≠ l.toNat then d
      else
        let d := modCoh d fun c => { c with dones := rest }
        (match tfind d.coh.busy l.toNat with
         | some b => if b.granted && b.agent = x.toNat then endBusy d l.toNat else d
         | none => d)
    | none => d) s

/-! ### The agents (R270) -/

/-- What an agent does with a message: the state it takes, the answer it sends (data when dirty, miss), whether it sends
Done; `none` is a cell marked "error". -/
structure AgentStep where
  st : LSt
  answer : Option (Bool × Bool) := none
  done : Bool := false
  keep : Bool := true
  deriving DecidableEq, Repr

/-- The table of R270. In `answer`, the first Bool says RspData with dirty data, the second RspI or PushNack. -/
def agentTable (full : Bool) : CohEv → LSt → Option AgentStep
  | .dataC, .is => some { st := .c, done := true, keep := false }
  | .dataF, .is => some { st := .f, done := true, keep := false }
  | .dataS, .is => some { st := .s, done := true, keep := false }
  | .dataD, .ix => some { st := .d, done := true, keep := false }
  | .dataD, .sx => some { st := .d, done := true, keep := false }
  | .cmp, .sx => some { st := .d, done := true }
  | .snpS, .i => some { st := .i, answer := some (false, true) }
  | .snpS, .f => some { st := .f, answer := some (false, false) }
  | .snpS, .c => some { st := .f, answer := some (false, false) }
  | .snpS, .d => some { st := .f, answer := some (true, false) }
  | .snpS, .sx => some { st := .sx, answer := some (false, false) }
  | .snpS, .wb => some { st := .wb, answer := some (true, false) }
  | .snpX, .i => some { st := .i, answer := some (false, true) }
  | .snpX, .f => some { st := .i, answer := some (false, false) }
  | .snpX, .c => some { st := .i, answer := some (false, false) }
  | .snpX, .d => some { st := .i, answer := some (true, false) }
  | .snpX, .sx => some { st := .ix, answer := some (false, false) }
  | .snpX, .wb => some { st := .wb, answer := some (true, false) }
  | .inv, .i => some { st := .i, answer := some (false, false) }
  | .inv, .s => some { st := .i, answer := some (false, false) }
  | .inv, .f => some { st := .i, answer := some (false, false) }
  | .inv, .sx => some { st := .ix, answer := some (false, false) }
  | .snpCur, .i => some { st := .i, answer := some (false, true) }
  | .snpCur, .c => some { st := .c, answer := some (false, false) }
  | .snpCur, .d => some { st := .d, answer := some (true, false) }
  | .snpCur, .wb => some { st := .wb, answer := some (true, false) }
  | .wbAck, .wb => some { st := .i }
  | .push, .i => some (if full then { st := .i, answer := some (false, true) }
                       else { st := .c, answer := some (false, false), keep := false })
  | .push, .is => some { st := .is, answer := some (false, true) }
  | .push, .ix => some { st := .ix, answer := some (false, true) }
  | _, _ => none

/-- A message that meets a cell marked "error" (R270): CLASS 0x03, CODE 0x10 in the receiver's page, and the machine
check, which resets the block. -/
def protocolViolation (d : Dev) (x l : Nat) : Dev := fatalCheck d (agentPage x) 0x10 l

/-- The agent takes a message: the line's state, the answer and Done as the table gives them. [log 22 DEDUCED safe] -/
def agentTake (d : Dev) (m : CMsg) : Dev :=
  match agentTable (cacheFull d m.dst) m.ev (lineSt d m.dst m.line) with
  | none => protocolViolation d m.dst m.line
  | some t =>
    let old := lineData d m.dst m.line
    let d := setLine d m.dst m.line t.st (if t.keep then old else m.data)
    let d := match t.answer with
      | some (dirty, miss) => modCoh d fun c => { c with
          answers := c.answers ++ [(m.dst, m.line, if dirty then some old else none, miss)] }
      | none => d
    if t.done then modCoh d fun c => { c with dones := c.dones ++ [(m.dst, m.line)] } else d

/-- Does a message travel with the responses, apart from the snoops and pushes (R268)? -/
def isRsp : CohEv → Bool
  | .dataC | .dataF | .dataS | .dataD | .cmp | .wbAck => true
  | _ => false

/-- Messages of one crossing reach an agent in the order they were sent (R20, R268); the row takes the first of its crossing when it is of its
line and kind. [log 22 DEDUCED safe] -/
def msgRow (x : BitVec 4) (l : BitVec 48) (isKind : CohEv → Bool) (rsp : Bool) (s : State) : Host.Outcome State Fault Refusal :=
  if !agentOk x then reservedOp
  else onUnit (agentUnit x.toNat) (fun d =>
    match takeFirst (fun (m : CMsg) => m.dst = x.toNat && isRsp m.ev = rsp) d.coh.msgs with
    | some (m, rest) => if m.line = l.toNat && isKind m.ev then agentTake (modCoh d fun c => { c with msgs := rest }) m else d
    | none => d) s

/-- SNPS (R270). -/
def execSnps (x : BitVec 4) (l : BitVec 48) (s : State) : Host.Outcome State Fault Refusal := msgRow x l (· = .snpS) false s
/-- SNPX (R270). -/
def execSnpx (x : BitVec 4) (l : BitVec 48) (s : State) : Host.Outcome State Fault Refusal := msgRow x l (· = .snpX) false s
/-- INV (R270). -/
def execInv (x : BitVec 4) (l : BitVec 48) (s : State) : Host.Outcome State Fault Refusal := msgRow x l (· = .inv) false s
/-- SNPCUR (R270). -/
def execSnpcur (x : BitVec 4) (l : BitVec 48) (s : State) : Host.Outcome State Fault Refusal :=
  msgRow x l (· = .snpCur) false s
/-- PUSH (R270). -/
def execPush (x : BitVec 4) (l : BitVec 48) (s : State) : Host.Outcome State Fault Refusal := msgRow x l (· = .push) false s
/-- DATA_GRANT (R270): Data_C, Data_F, Data_S or Data_D. -/
def execDataGrant (x : BitVec 4) (l : BitVec 48) (s : State) : Host.Outcome State Fault Refusal :=
  msgRow x l (fun e => e = .dataC || e = .dataF || e = .dataS || e = .dataD) true s
/-- CMP (R270). -/
def execCmp (x : BitVec 4) (l : BitVec 48) (s : State) : Host.Outcome State Fault Refusal := msgRow x l (· = .cmp) true s
/-- WBACK (R270). -/
def execWback (x : BitVec 4) (l : BitVec 48) (s : State) : Host.Outcome State Fault Refusal := msgRow x l (· = .wbAck) true s

/-- WRCMP (R268): the pilot's copy changes as the home states; a copy it keeps is C with the home's data. -/
def execWrcmp (x : BitVec 4) (l : BitVec 48) (s : State) : Host.Outcome State Fault Refusal :=
  if !agentOk x then reservedOp
  else onUnit (agentUnit x.toNat) (fun d =>
    match takeFirst (fun a => a.1 = x.toNat) d.coh.wrCmp with
    | some (a, rest) =>
      if a.2.1 ≠ l.toNat then d else
      let d := modCoh d fun c => { c with wrCmp := rest }
      if a.2.2 then setLine d x.toNat l.toNat .c 0 else d
    | none => d) s

/-- The harbour port's answers to an atomic at memory (R272, R383, R306): every write is acknowledged and the line is free again; a poisoned
answer, or an access error, is one mirror's failure of R261. -/
def atomAnswer (d : Dev) (l : Nat) (resp : MemResp) : Dev :=
  let o := l - baseA d.scu.cfg
  let m := atomMirror d
  let d := endBusy d l
  if resp = .ok then d
  else
    let d := memErr d 2 resp (mirrorAddr d m o)
    if mirrorSt d (1 - m) = 0 then noteFailure d m (o / 4096) else mirrorsFailed d 2 o

/-- ATMRSP (R272): the requester takes the old value, which its unit consumes; for an atomic at memory `l` says what the harbour port
answered to it. [log 22 DEDUCED safe] -/
def execAtmrsp (x : BitVec 4) (l : LineAns) (s : State) : Host.Outcome State Fault Refusal :=
  if !agentOk x then reservedOp
  else onUnit (agentUnit x.toNat) (fun d =>
    match takeFirst (fun a => a.1 = x.toNat) d.coh.atmRsp with
    | some (a, rest) =>
      if a.2.1 ≠ l.line.toNat then d
      else
        let d := modCoh d fun c => { c with atmRsp := rest }
        (match tfind d.coh.busy l.line.toNat with
         | some { req := .atm _, granted := true, .. } => atomAnswer d l.line.toNat l.resp
         | _ => d)
    | none => d) s

/-- PROTOCOL_ERROR (R270): a message, from the crossing or not, in a state for which the table gives "error". -/
def execProtocolError (m : CohMsg) (s : State) : Host.Outcome State Fault Refusal :=
  if !agentOk m.dst then reservedOp
  else onUnit (agentUnit m.dst.toNat) (fun d =>
    let x := m.dst.toNat; let l := m.line.toNat
    match agentTable (cacheFull d x) m.ev (lineSt d x l) with
    | some _ => d
    | none =>
      let d := match takeFirst (fun (q : CMsg) => q.dst = x && isRsp q.ev = isRsp m.ev) d.coh.msgs with
        | some (q, rest) => if q.line = l && q.ev = m.ev then modCoh d fun c => { c with msgs := rest } else d
        | none => d
      protocolViolation d x l) s

end Sys2Proof.Machine
end

