-- ==== Sys2Proof/Machine/Doorbell.lean ====
section
/-!
DEFINITION. Doorbells (05 R73 to R81): the checks of the HPU and those of the home agent.
-/

namespace Sys2Proof.Machine

/-- An access error of the HPU page (R40, R92): HPU event 0 with the first capture. -/
def hpuErr (d : Dev) (code addr : Nat) : Dev := logErr d 1 1 code addr

/-- A doorbell that the HPU drops. -/
def dropDoorbell (d : Dev) (f : Fld) (code : Nat) (addr : BitVec 57) : Dev := hpuErr (incSat d f) code addr.toNat

/-- The 12 bytes that CHECK covers (R74). -/
def doorbellBytes (data : BitVec 128) : List Nat := (List.range 12).map fun i => data.toNat / 256 ^ i % 256

/-- A doorbell write at the HPU (R73, R74): form, reserved bits, CHECK; one that passes crosses to the BTC. -/
def takeDoorbell (d : Dev) (addr : BitVec 57) (be : BitVec 64) (data : BitVec 128) : Dev :=
  let v := data.toNat
  if be ≠ 0xFFFF || addr.toNat % 0x1000 ≠ 0 || 2 ^ 32 ≤ addr.toNat || v / 2 ^ 66 % 2 ^ 30 ≠ 0 then
    dropDoorbell d fHpuFormDrops 5 addr
  else if crc32c (doorbellBytes data) ≠ v / 2 ^ 96 then dropDoorbell d fHpuCheckDrops 6 addr
  else
    let b : Doorbell := { ctx := addr.toNat / 0x1000, handle := v % 2 ^ 32, prod := v / 2 ^ 32 % 2 ^ 32, hint := v / 2 ^ 64 % 4 }
    modHpu (count (incWrap d fHpuTaken) 0 0 0) fun h => { h with toBtc := h.toBtc ++ [b] }

/-- DOORBELL_WRITE (R73): while the HPU is in reset the request stays raised (R43). -/
def execDoorbellWrite (addr : BitVec 57) (be : BitVec 64) (data : BitVec 128) (s : State) :
    Host.Outcome State Fault Refusal :=
  onDev (fun d =>
    if inReset d 1 then modHpu d fun h => { h with held := h.held ++ [.doorbell addr be data] }
    else takeDoorbell (wakeUnit d 1) addr be data) s

/-- What a doorbell is at the home agent (R76, R77). -/
inductive DbClass where
  | dropped | foreign | taken | covered | overrun | forward
  deriving DecidableEq, Repr

/-- The table of R76 with the producer index rule of R77. -/
def dbClass (d : Dev) (b : Doorbell) : DbClass :=
  let c := ctxAt d b.ctx
  let r := berthAt d (berthIdx b.handle)
  if c.state ≠ .live then .dropped
  else if !berthOk d b.handle then .dropped
  else if r.ctxIdx ≠ b.ctx || r.ctxGen ≠ c.gen then .foreign
  else match r.state with
    | .draining => .dropped
    | .halted => .taken
    | _ =>
      let adv := (b.prod + 2 ^ 32 - r.prod) % 2 ^ 32
      let room := (b.prod + 2 ^ 32 - r.done) % 2 ^ 32
      if adv = 0 || 2 ^ 31 ≤ adv then .covered
      else if room ≤ 2 ^ r.ringLog2 then .forward else .overrun

/-- DOORBELLS or DROPS of a context. -/
def countDoorbell (d : Dev) (c : Nat) : Dev := modCtx d c fun r => { r with doorbells := (r.doorbells + 1) % 2 ^ 64 }
/-- [log 75 DEDUCED unsafe] -/
def countDrop (d : Dev) (c : Nat) : Dev := modCtx d c fun r => { r with drops := (r.drops + 1) % 2 ^ 64 }

/-- The home step of a forward doorbell (R80, R273): with FOPEN 0 the lines are pushed and the wake leaves behind them. The FETCH_HINT of a
doorbell that finds FOPEN 1 counts for nothing. [log 23 DEDUCED unsafe] -/
def forwardDoorbell (d : Dev) (b : Doorbell) : Dev :=
  let i := berthIdx b.handle
  let r := berthAt d i
  let d := putBerth d i { r with prod := b.prod, rung := true, fopen := true }
  if r.fopen then d
  else
    let d := pushLine (pushLine d 8 (berthLine d i 0)) 8 (ctxLine d b.ctx 0)
    modBtc d fun x => { x with toMfu := x.toMfu ++ [.wake i b.hint] }

/-- The home step of a doorbell (R76 to R80). -/
def applyDoorbell (d : Dev) (b : Doorbell) : Dev :=
  match dbClass d b with
  | .dropped => countDrop d b.ctx
  | .foreign => incSat d fBtcForeign
  | .taken | .covered => countDoorbell d b.ctx
  | .overrun => incSat d fBtcOverrun
  | .forward => forwardDoorbell (countDoorbell d b.ctx) b

/-- Lines of a doorbell's home step (R267): it reads both records and writes the counters, and on a forward doorbell PROD_IDX and the
fetch state. -/
def dbLines (d : Dev) (b : Doorbell) : List (Bool × Nat) :=
  let i := berthIdx b.handle
  let cls := dbClass d b
  let rung := decide (cls = .forward)
  [(false, ctxLine d b.ctx 0), (!(cls = .foreign || cls = .overrun), ctxLine d b.ctx 1), (rung, berthLine d i 0), (rung, berthLine d i 1)]

/-- DOORBELL_CHECK (R76): the oldest doorbell on the crossing, once its records are on chip and their lines open to the step. -/
def execDoorbellCheck (s : State) : Host.Outcome State Fault Refusal :=
  onUnit 2 (fun d =>
    match d.hpu.toBtc with
    | [] => d
    | b :: rest => withRecs d [rCtx b.ctx, rBerth (berthIdx b.handle)] fun d => homeStep d (dbLines d b) fun d =>
      applyDoorbell (modHpu d fun h => { h with toBtc := rest }) b) s

end Sys2Proof.Machine
end

