-- ==== Sys2Proof/Machine/Fetch.lean ====
section
/-!
DEFINITION. Manifest fetch (05 R80 to R90; 15 R266, R274): fetch windows, line checks, staging, rejection, the stash.
-/

namespace Sys2Proof.Machine

/-! ### Fetches -/

def fetchAt (d : Dev) (b : Nat) : Option Fetch := d.mfu.fetches.find? fun f => f.berth = b

def modFetch (d : Dev) (b : Nat) (f : Fetch → Fetch) : Dev :=
  modMfu d fun m => { m with fetches := m.fetches.map fun x => if x.berth = b then f x else x }

/-- Address of ring line `i` of a berth (R73). -/
def ringAddr (r : BerthRec) (i : Nat) : Nat := r.ringBase + i % 2 ^ r.ringLog2 * 64

/-- Ring indices wrap at 2^32. -/
def idxAdd (i n : Nat) : Nat := (i + n) % 2 ^ 32
def idxSub (a b : Nat) : Nat := (a + 2 ^ 32 - b) % 2 ^ 32

/-- The manifest of a berth that is in fetch (R82). -/
def inFetch (d : Dev) (b : Nat) : Option Manifest := d.mfu.mans.find? fun m => m.berthIdx = b && m.st = .staging

def modMan (d : Dev) (b head : Nat) (f : Manifest → Manifest) : Dev :=
  modMfu d fun m => { m with mans := m.mans.map fun x => if x.berthIdx = b && x.headIdx = head then f x else x }

/-! ### Rejection (R88, R89) -/

/-- A manifest is rejected: its record is opened, the berth halts, and MFU event 0 is raised. [log 24 DEDUCED unsafe] -/
def rejectManifest (d : Dev) (b : Nat) (head : Nat) (id : W64) (cause unit addr line argA argB : Nat) : Dev :=
  let r := berthAt d b
  let c := ctxAt d r.ctxIdx
  let mk := fun seq : Nat => suppress
    { seq := seq, cause := cause, unit := unit, kind := 2, secrecy := c.secrecy, context := ownerOf r,
      berth := berthHandle b r.gen, manifestId := id, headIdx := head, line := line, addr := addr, time := tideW d,
      argA := argA, argB := argB }
  let d := (fixFault d b mk).1
  incSat (raiseEvent (haltBerth d b) 3 0) fMfuRejects

/-- MANIFEST_ID of a manifest whose header is staged. -/
def headerId (l : Line) : W64 := lineWord l 1

/-! ### Staging (R82, R87, R266) -/

/-- Manifest lines (R371). -/
def manLines : Nat := 8388608

/-- The front line of a fetch has been dealt with. -/
def popLine (d : Dev) (b : Nat) : Dev := modFetch d b fun f => { f with lines := f.lines.drop 1 }

/-- A manifest is complete: its hash goes to the PLX with its last line (R115, R118). -/
def handOn (d : Dev) (b : Nat) (m : Manifest) : Dev :=
  let d := modMan d b m.headIdx fun m => { m with st := .looking, hash := contentHash m.lines }
  modPlx d fun p => { p with sights := p.sights ++ [(b, m.headIdx)] }

/-- A checked line joins its manifest. [log 23 DEDUCED unsafe] -/
def stageLine (d : Dev) (b : Nat) (m : Manifest) (l : Line) : Dev :=
  let m' := { m with lines := m.lines ++ [clearCrc l] }
  let d := popLine (modMan d b m.headIdx fun _ => m') b
  if m.lineCount + 1 ≤ m'.lines.length then handOn d b m' else d

/-- A checked header line opens a manifest, or rejects it (R97, R88), or waits for a free manifest line (R266).
[log 23 DEDUCED unsafe] -/
def openManifest (d : Dev) (b i : Nat) (l : Line) (waited : Bool) : Dev :=
  let r := berthAt d b
  if !headerOk l then rejectManifest d b i (headerId l) 2 3 (ringAddr r i) 0 0 0
  else if 2 ^ r.ringLog2 < 1 + lineCountOf l then rejectManifest d b i (headerId l) 3 3 (ringAddr r i) 0 0 0
  else if manLines ≤ d.mfu.mans.length then
    if waited then d
    else incSat (modFetch d b fun f => { f with lines := (i, .held l (Config.lineCode l)) :: f.lines.drop 1 }) fBtcManWaits
  else
    let m : Manifest := { berth := berthHandle b r.gen, berthIdx := b, ctx := ownerOf r, headIdx := i,
                          lineCount := lineCountOf l, id := headerId l, slot := freeManSlot d }
    stageLine (modMfu d fun x => { x with mans := x.mans ++ [m] }) b m l

/-- A line whose turn has come is bad for good (R88): its manifest is rejected. [log 23 DEDUCED unsafe, 24 DEDUCED unsafe] -/
def rejectLine (d : Dev) (b i cause : Nat) : Dev :=
  match inFetch d b with
  | some m => rejectManifest d b m.headIdx (headerId (m.lines.getD 0 0)) cause 3 (ringAddr (berthAt d b) i)
      ((i + 2 ^ 32 - m.headIdx) % 2 ^ 32) 0 0
  | none => rejectManifest d b i 0 cause 3 (ringAddr (berthAt d b) i) 0 0 0

/-- Checked lines at the front of a fetch are staged in index order; a berth has one manifest in fetch at a time.
[log 23 DEDUCED unsafe] -/
def absorb : Nat → Dev → Nat → Dev
  | 0, d, _ => d
  | n + 1, d, b =>
    match (fetchAt d b).bind fun f => if f.halting then none else f.lines.head? with
    | some (i, .bad c) => rejectLine d b i c
    | some (i, .checked l _) =>
      (match inFetch d b with
       | some m => absorb n (stageLine d b m l) b
       | none => absorb n (openManifest d b i l false) b)
    | some (i, .held l _) =>
      if d.mfu.mans.length < manLines then absorb n (openManifest d b i l true) b else d
    | _ => d

/-- r of an IDLE_CHECK: the header line of the manifest not yet complete, or `f` (R80). [log 23 DEDUCED unsafe] -/
def resumeIdx (d : Dev) (b f : Nat) : Nat :=
  match inFetch d b with
  | some m => m.headIdx
  | none => f

/-- Once a window's lines are all handed on, the fetch goes on when RUNG shows further lines, or sends IDLE_CHECK (R82).
[log 23 DEDUCED unsafe] -/
def afterWindow (d : Dev) (b : Nat) : Dev :=
  match fetchAt d b with
  | none => d
  | some f =>
    if f.halting || f.idleSent || !f.lines.isEmpty || f.next ≠ f.upTo then d
    else
      let r := berthAt d b
      if r.rung && r.state = .live && r.prod ≠ f.next then modFetch d b fun f => { f with upTo := r.prod }
      else
        let d := modFetch d b fun f => { f with idleSent := true }
        modMfu d fun m => { m with idle := m.idle ++ [(b, f.next, resumeIdx d b f.next)] }

/-- A fetch goes on: what can be staged is staged. [log 23 DEDUCED unsafe] -/
def pumpFetch (d : Dev) (b : Nat) : Dev :=
  match fetchAt d b with
  | some f => afterWindow (absorb (f.lines.length + 1) d b) b
  | none => d

/-! ### Wakes and windows (R82, R83) -/

/-- Does a push to the MFU of a berth's lines stand on the crossing? -/
def pushAhead (d : Dev) (b : Nat) : Bool :=
  d.coh.msgs.any fun m => m.dst = 8 && m.ev = .push && (m.line = berthLine d b 0 || m.line = ctxLine d (berthAt d b).ctxIdx 0)

/-- BERTH_WAKE (R82): a wake at the front of the crossing opens a fetch; with 1,024 open it waits, and while the MFU is quiesced
(R53, R94), or while a push of the same doorbell stands before it on the crossing (R20, R273). For a berth that has become HALTED
meanwhile it fetches nothing and sends IDLE_CHECK at once (R381). [log 12 DEDUCED unsafe] -/
def execBerthWake (s : State) : Host.Outcome State Fault Refusal :=
  onUnit 3 (fun d =>
    match d.btc.toMfu with
    | .wake b hint :: rest =>
      if flag d (fQuiesced 3) || 1024 ≤ d.mfu.fetches.length || pushAhead d b then d
      else
        let r := berthAt d b
        let stop := decide (r.state = .halted)
        let f : Fetch := { berth := b, handle := berthHandle b r.gen, hint := hint, next := r.cons, upTo := r.prod, lines := [],
                           idleSent := stop, halting := stop }
        modMfu (modBtc d fun x => { x with toMfu := rest }) fun m =>
          { m with fetches := (m.fetches.filter fun x => x.berth ≠ b) ++ [f]
                   idle := if stop then m.idle ++ [(b, r.cons, r.cons)] else m.idle }
    | _ => d) s

/-- One line of a window: from the stash, whose entry it consumes, or asked for from memory (R83, R84). -/
def askLine (b : Nat) (hint : Nat) (d : Dev) (i : Nat) : Dev :=
  let r := berthAt d b
  let c := ctxAt d r.ctxIdx
  let a := ringAddr r i
  match takeFirst (fun (s : Stash) => s.asid = c.asid && s.addr = a) d.mfu.stash with
  | some (s, rest) =>
    let d := modMfu (incSat d fMfuHits) fun m => { m with stash := rest }
    modFetch d b fun f => { f with next := idxAdd i 1, lines := f.lines ++ [(i, .checked s.line s.code)] }
  | none =>
    let d := memReq d (.ringRead c.asid c.keyid c.pid hint a)
    modFetch d b fun f => { f with next := idxAdd i 1, lines := f.lines ++ [(i, .asked)] }

/-- Stash entries beyond a limit of lines leave, oldest first, each counted in DROPPED (R84). -/
def trimStash (d : Dev) (lim : Nat) : Dev :=
  let n := d.mfu.stash.length - lim
  if n = 0 then d else incSat (modMfu d fun m => { m with stash := m.stash.drop n }) fMfuDropped n

/-- A fetch window starts: from now on MFU_FETCH_CTL acts as it stands (R94). -/
def startWindow (d : Dev) (b : Nat) : Dev :=
  let d := modFetch d b fun f => { f with defHint := fld d fMfuDefHint }
  let d := modMfu d fun m => { m with stashEn := flag d fMfuStashEn, stashMax := fld d fMfuStashMax }
  trimStash d (1024 * d.mfu.stashMax)

/-- The hint of a fetch's ring reads (R83). -/
def Fetch.readHint (f : Fetch) : Nat := if f.hint = 0 then f.defHint else f.hint

/-- The next window of a fetch: up to 64 lines. [log 23 DEDUCED unsafe] -/
def nextWindow (d : Dev) (f : Fetch) : Dev :=
  let n := min 64 (idxSub f.upTo f.next)
  let d := startWindow d f.berth
  ((List.range n).map (idxAdd f.next)).foldl (askLine f.berth (if f.hint = 0 then fld d fMfuDefHint else f.hint)) d

/-- FETCH_WINDOW (R82): a quiesced MFU issues no new ring read (R94). -/
def fetchWindow (d : Dev) (b : Nat) : Dev :=
  match fetchAt d b with
  | none => d
  | some f =>
    if f.halting || f.idleSent then d
    else if !f.lines.isEmpty then (if flag d (fQuiesced 3) then d else pumpFetch d b)
    else if flag d (fQreq 3) then d
    else pumpFetch (nextWindow d f) b

def execFetchWindow (berth : BitVec 22) (s : State) : Host.Outcome State Fault Refusal :=
  onUnit 3 (fun d => fetchWindow d berth.toNat) s

/-! ### Responses (R87, R88, R306) -/

/-- What a ring read's answer makes of its line: its internal code is computed and then its CRC verified (R12); it is checked, read once
more, or bad with its cause. -/
def judgeLine (retried : Bool) (r : MemResp) (l : Line) : LineSt :=
  match r with
  | .translation => .bad 4
  | .access => .bad 5
  | .poison => .bad 6
  | .ok =>
    let code := Config.lineCode l
    if lineCrcOk l then .checked l code else if retried then .bad 1 else .retried

def setLineSt (d : Dev) (b i : Nat) (st : LineSt) : Dev :=
  modFetch d b fun f => { f with lines := f.lines.map fun x => if x.1 = i then (i, st) else x }

/-- LINE_RESPONSE (R87). -/
def lineResponse (d : Dev) (b i : Nat) (r : MemResp) (l : Line) : Dev :=
  match (fetchAt d b).bind fun f => (f.lines.find? fun x => x.1 = i).map fun x => (f, x.2) with
  | some (f, st) =>
    if st ≠ .asked && st ≠ .retried then d
    else
      let br := berthAt d b
      let c := ctxAt d br.ctxIdx
      let d := memErr d 3 r (ringAddr br i)
      (match judgeLine (st = .retried) r l with
       | .retried =>
         let d := raiseEvent (incSat (setLineSt d b i .retried) fMfuRetries) 3 1
         memReq d (.ringRead c.asid c.keyid c.pid f.readHint (ringAddr br i))
       | st' => pumpFetch (setLineSt d b i st') b)
  | none => d

def execLineResponse (berth : BitVec 22) (idx : BitVec 32) (r : MemResp) (line : Line) (s : State) :
    Host.Outcome State Fault Refusal :=
  onUnit 3 (fun d => lineResponse d berth.toNat idx.toNat r line) s

/-! ### The end of a fetch (R80, R81, R381) -/

/-- The home's answer to IDLE_CHECK(f, r) (R80, R381). -/
def idleCheck (d : Dev) (b f r : Nat) : Dev :=
  let x := berthAt d b
  let d := modMfu d fun m => { m with idle := m.idle.filter fun e => e.1 ≠ b }
  if x.state = .halted then
    modBtc (putBerth d b { x with cons := r, fopen := false, rung := false }) fun t => { t with toMfu := t.toMfu ++ [.close b] }
  else if x.state ≠ .live && x.state ≠ .draining then d
  else if x.prod = f then
    modBtc (putBerth d b { x with cons := r, fopen := false, rung := false }) fun t => { t with toMfu := t.toMfu ++ [.close b] }
  else modBtc (putBerth d b { x with cons := f, rung := false }) fun t => { t with toMfu := t.toMfu ++ [.cont b x.prod] }

/-- IDLE_CHECK (R80): one home step, after any doorbell of the same cycle (R81); the requests come in the order in which they left (R20). -/
def execIdleCheck (berth : BitVec 22) (s : State) : Host.Outcome State Fault Refusal :=
  onUnit 2 (fun d =>
    match d.mfu.idle with
    | (b, f, r) :: _ =>
      if b ≠ berth.toNat then d
      else withRecs d (berthRecs d b) fun d => homeStep d [(true, berthLine d b 0), (true, berthLine d b 1)] fun d => idleCheck d b f r
    | [] => d) s

/-- The MFU ends a fetch: an incomplete manifest's lines are dropped, to be fetched again from its header line (R81). -/
def closeFetch (d : Dev) (b : Nat) : Dev :=
  dropMans (modMfu d fun m => { m with fetches := m.fetches.filter fun f => f.berth ≠ b }) fun x => x.berthIdx = b && x.st = .staging

/-- FETCH_REPLY (R81): the reply at the front of the crossing; a quiesced MFU holds its open fetches (R94).
[log 12 DEDUCED unsafe] -/
def execFetchReply (s : State) : Host.Outcome State Fault Refusal :=
  onUnit 3 (fun d =>
    if flag d (fQuiesced 3) then d else
    match d.btc.toMfu with
    | .close b :: rest => closeFetch (modBtc d fun x => { x with toMfu := rest }) b
    | .cont b prod :: rest =>
      modFetch (modBtc d fun x => { x with toMfu := rest }) b fun f =>
        if f.halting then f else { f with upTo := prod, idleSent := false }
    | _ => d) s

/-! ### The stash (R84, R274) -/

/-- A line enters the line cache with its internal code, if its CRC matches; the oldest entry leaves when STASH_MAX is passed. A line that
fails leaves an older entry of its tag in place. The settings are those of the last window (R94). [log 23 DEDUCED unsafe] -/
def stashLine (d : Dev) (asid addr : Nat) (l : Line) : Dev :=
  let code := Config.lineCode l
  if !d.mfu.stashEn then d
  else if !lineCrcOk l then incSat d fMfuDropped
  else
    let a := addr / 64 * 64
    let s := (d.mfu.stash.filter fun s => !(s.asid = asid && s.addr = a)) ++ [{ asid := asid, addr := a, line := l, code := code }]
    trimStash (modMfu d fun m => { m with stash := s }) (1024 * d.mfu.stashMax)

/-- STASH_WRITE (R84): every defined target is handled alike (R274); it waits while the HPU or the MFU is in
reset (R24, R43). -/
def execStashWrite (target : BitVec 2) (asid : BitVec 20) (addr : BitVec 57) (line : Line) (s : State) :
    Host.Outcome State Fault Refusal :=
  if !Sys2Proof.stashOk target then reservedOp
  else onDev (fun d =>
    if inReset d 1 || inReset d 3 then modHpu d fun h => { h with held := h.held ++ [.stash target asid addr line] }
    else stashLine (wakeUnit (wakeUnit d 1) 3) asid.toNat addr.toNat line) s

end Sys2Proof.Machine
end

