-- ==== Sys2Proof/Machine/Xlate.lean ====
section
/-!
DEFINITION. The translation cache and the translator pilots (07 R115 to R121).
-/

namespace Sys2Proof.Machine

/-! ### Entries (R116, R121) -/

/-- The sharing domain of a context (R116). -/
def domainOf (d : Dev) (ctx : Nat) : Domain :=
  let c := ctxAt d (ctxIdx ctx)
  if c.secrecy = .sealed then .ctx ctx else .pid c.pid

/-- Epoch and catalogue version in force. -/
def curEpoch (d : Dev) : Nat := (Config.imageEpoch d.scu.imgHead).toNat
def curCatVer (d : Dev) : Nat := (Config.imageCatVer d.scu.imgHead).toNat

/-- Does an entry match a key? -/
def XcEntry.matches (d : Dev) (hash : Nat) (dom : Domain) (e : XcEntry) : Bool :=
  e.hash = hash && e.domain = dom && e.epoch = curEpoch d && e.catVer = curCatVer d

/-- Bytes of an entry (R117). [log 27 DEDUCED unsafe] -/
def XcEntry.bytes (e : XcEntry) : Nat := if e.refused.isSome then 64 else 64 + 192 * e.lines

def onChipBytes (es : List XcEntry) : Nat := (es.filter (·.onChip)).foldl (fun n e => n + e.bytes) 0
def harbourBytes (es : List XcEntry) : Nat := (es.filter (·.harbour)).foldl (fun n e => n + e.bytes) 0

/-- The least recently used entry of a part that is not in use. [log 27 DEDUCED unsafe] -/
def xcVictim (part : XcEntry → Bool) (es : List XcEntry) : Option XcEntry :=
  (es.filter fun e => part e && e.inUse = 0).foldl (fun m e => match m with
    | some x => if e.lastUse < x.lastUse then some e else some x
    | none => some e) none

/-- Entries after an eviction from the on-chip part or the harbour part; an entry in neither part is gone. -/
def leaveChip (n : Nat) (es : List XcEntry) : List XcEntry :=
  (es.map fun e => if e.num = n then { e with onChip := false } else e).filter fun e => e.onChip || e.harbour
def leaveHarbour (n : Nat) (es : List XcEntry) : List XcEntry :=
  (es.map fun e => if e.num = n then { e with harbour := false } else e).filter fun e => e.onChip || e.harbour

/-- Entries with room for `size` bytes on chip, or none where no further entry can be evicted. [log 27 DEDUCED unsafe] -/
def roomOnChip (size : Nat) : Nat → List XcEntry → Option (List XcEntry)
  | 0, es => if onChipBytes es + size ≤ 6291456 then some es else none
  | n + 1, es =>
    if onChipBytes es + size ≤ 6291456 then some es
    else match xcVictim (·.onChip) es with
      | some v => roomOnChip size n (leaveChip v.num es)
      | none => none

/-- The same for the harbour part of `cap` bytes. [log 27 DEDUCED unsafe] -/
def roomHarbour (cap size : Nat) : Nat → List XcEntry → Option (List XcEntry)
  | 0, es => if harbourBytes es + size ≤ cap then some es else none
  | n + 1, es =>
    if harbourBytes es + size ≤ cap then some es
    else match xcVictim (·.harbour) es with
      | some v => roomHarbour cap size n (leaveHarbour v.num es)
      | none => none

def setEntries (d : Dev) (es : List XcEntry) : Dev := modPlx d fun p => { p with entries := es }

/-- An entry is copied into the on-chip part where it may stand there and room can be made (R121). [log 27 DEDUCED unsafe] -/
def copyOnChip (d : Dev) (num : Nat) : Dev :=
  match d.plx.entries.find? fun e => e.num = num with
  | none => d
  | some e =>
    if e.onChip || 65536 < e.bytes then d
    else match roomOnChip e.bytes d.plx.entries.length d.plx.entries with
      | some es => setEntries d (es.map fun x => if x.num = num then { x with onChip := true } else x)
      | none => d

/-- An entry is used. -/
def useEntry (d : Dev) (num : Nat) : Dev :=
  modPlx d fun p => { p with useClock := p.useClock + 1
                             entries := p.entries.map fun e => if e.num = num then { e with lastUse := p.useClock + 1 } else e }

/-! ### Sights (R117, R118) -/

/-- The accept request of a berth's oldest manifest leaves once its entry is known and the manifest before it is accepted or
discarded (R248). -/
def sendAccept (d : Dev) (b : Nat) : Dev :=
  match d.mfu.mans.find? fun m => m.berthIdx = b && m.st ≠ .accepted with
  | some m =>
    if m.st = .translated then
      modPlx (modMan d b m.headIdx fun m => { m with st := .requested }) fun p => { p with toLbu := p.toLbu ++ [(b, m.headIdx)] }
    else d
  | none => d

/-- A manifest whose entry is known: the per-sight checks and the entry's outcome refuse it, or its accept request crosses
to the LBU in its turn (R117, R118, R248). `hit` says that it was served from either part. [log 27 DEDUCED unsafe] -/
def serveSight (d : Dev) (e : XcEntry) (hit : Bool) (m : Manifest) : Dev :=
  let d := useEntry d e.num
  match sightBreach m.lines e.refused with
  | some (rule, line) => rejectManifest (incSat d fPlxRefused) m.berthIdx m.headIdx m.id 7 4 0 line rule line
  | none =>
    let d := if hit then count (incSat d fPlxHits) 0 0 4 else d
    sendAccept (modMan d m.berthIdx m.headIdx fun m => { m with st := .translated, entry := some e.num, fresh := !hit }) m.berthIdx

/-- Manifests that wait for a key's translation, oldest first (R118). -/
def waitingFor (d : Dev) (hash : Nat) (dom : Domain) : List Manifest :=
  d.mfu.mans.filter fun m => m.st = .translating && m.hash = hash && domainOf d m.ctx = dom

/-- Every manifest that waits for a key takes its outcome. -/
def serveWaiting (d : Dev) (e : XcEntry) (hit : Bool) : Dev :=
  (waitingFor d e.hash e.domain).foldl (fun d m => serveSight d e hit m) d

/-! ### Translator pilots (R119) -/

/-- A translator pilot without a translation. -/
def freePilot (d : Dev) : Option Nat :=
  (List.range 8).find? fun p => isTranslator d p && pilotRuns d p && !d.plx.queue.any fun x => x.pilot = some p

/-- Queued translations start in order on free translator pilots; a quiesced PC0 holds the queue (R131). CHECKED_FORCE is
taken at the start (R127). -/
def startXlates : Nat → Dev → Dev
  | 0, d => d
  | n + 1, d =>
    if flag d (fQreq 0x10) then d
    else match freePilot d, takeFirst (fun (x : Xlate) => x.pilot.isNone) d.plx.queue with
      | some p, some (x, _) =>
        let force := flag d fPlxChecked
        let go := fun (y : Xlate) => if y = x then { y with pilot := some p, checked := y.checked || force } else y
        startXlates n (modPlx d fun q => { q with queue := q.queue.map go })
      | _, _ => d

def pumpXlates (d : Dev) : Dev := startXlates 8 d

/-- The entry of a part that serves a key: the newest. -/
def findEntry (es : List XcEntry) (p : XcEntry → Bool) : Option XcEntry := es.reverse.find? p

/-- Is the key of a manifest in translation already? -/
def inFlight (d : Dev) (hash : Nat) (dom : Domain) : Bool := d.plx.queue.any fun x => x.hash = hash && x.domain = dom

/-- XC_LOOKUP (R118 steps 1, 2, 4): the oldest sight. [log 27 DEDUCED unsafe] -/
def xcLookup (d : Dev) (b head : Nat) : Dev :=
  match d.mfu.mans.find? fun m => m.berthIdx = b && m.headIdx = head && m.st = .looking with
  | none => d
  | some m =>
    let dom := domainOf d m.ctx
    match findEntry d.plx.entries fun e => e.onChip && e.matches d m.hash dom with
    | some e => serveSight d e true m
    | none =>
      let d := modMan d b head fun m => { m with st := .translating }
      if inFlight d m.hash dom then d
      else
        let own := decide (getBits (lineWord (m.lines.getD 0 0) 0) 16 16 = 1)
        let x : Xlate := { berth := b, hash := m.hash, domain := dom, pilot := none, harbourOpen := true, lines := m.lineCount,
                           checked := own, own := own, refused := cachedBreach m.lines }
        pumpXlates (modPlx (harbourRead d (Config.xcProbe m.hash).toNat) fun p => { p with queue := p.queue ++ [x] })

def execXcLookup (s : State) : Host.Outcome State Fault Refusal :=
  onUnit 4 (fun d =>
    match d.plx.sights with
    | (b, h) :: rest => xcLookup (modPlx d fun p => { p with sights := rest }) b h
    | [] => d) s

/-- XC_HARBOUR_ANSWER (R118 step 3): a hit abandons the translation and copies the entry on chip. -/
def xcHarbourAnswer (d : Dev) (b : Nat) : Dev :=
  match takeFirst (fun (x : Xlate) => x.berth = b && x.harbourOpen) d.plx.queue with
  | none => d
  | some (x, rest) =>
    match findEntry d.plx.entries fun e => e.harbour && e.matches d x.hash x.domain with
    | some e => pumpXlates (serveWaiting (copyOnChip (modPlx d fun p => { p with queue := rest }) e.num) e true)
    | none =>
      let shut := fun (y : Xlate) => if y = x then { y with harbourOpen := false } else y
      modPlx d fun p => { p with queue := p.queue.map shut }

def execXcHarbourAnswer (berth : BitVec 22) (s : State) : Host.Outcome State Fault Refusal :=
  onUnit 4 (fun d => xcHarbourAnswer d berth.toNat) s

/-- A new entry stands in place of an old one of the same key (R118): the old one is dropped, or, in use, with its last use.
[log 27 DEDUCED unsafe] -/
def replaceEntry (d : Dev) (hash : Nat) (dom : Domain) (es : List XcEntry) : List XcEntry :=
  (es.filter fun e => !(e.matches d hash dom && e.inUse = 0)).map fun e => if e.matches d hash dom then { e with doomed := true } else e

/-- A translation ends (R117, R119, R121): its entry is inserted in the harbour part, evicting where needed, and on chip
where it fits; the manifests that wait for it take the outcome. With the harbour part full of entries in use it waits.
[log 27 DEDUCED unsafe] -/
def translationDone (d : Dev) (p : Nat) : Dev :=
  let d := pumpXlates d
  if !pilotRuns d p then d
  else match takeFirst (fun (x : Xlate) => x.pilot = some p) d.plx.queue with
    | none => d
    | some (x, rest) =>
      let e : XcEntry := { num := d.plx.nextEntry, hash := x.hash, domain := x.domain, epoch := curEpoch d, catVer := curCatVer d,
                           lines := x.lines, refused := x.refused, checked := x.checked, inUse := 0, onChip := false,
                           harbour := true, lastUse := d.plx.useClock }
      let old := replaceEntry d x.hash x.domain d.plx.entries
      match roomHarbour d.scu.cfg.xcHarbour e.bytes old.length old with
      | none => d
      | some es =>
        let d := modPlx (count (incSat d fPlxXlated) 0 0 3) fun q =>
          { q with queue := rest, entries := es ++ [e], nextEntry := q.nextEntry + 1 }
        let d := harbourWrite d (Config.xcPlace e.num).toNat []
        pumpXlates (serveWaiting (copyOnChip d e.num) e false)

/-- TRANSLATION_DONE (R119). -/
def execTranslationDone (pilot : BitVec 3) (s : State) : Host.Outcome State Fault Refusal :=
  onUnit 4 (fun d => translationDone d pilot.toNat) s

/-- TRANSLATION_RESTART (R120): a translation whose pilot is in reset or out of service is discarded and starts anew in its place in the
order. -/
def execTranslationRestart (pilot : BitVec 3) (s : State) : Host.Outcome State Fault Refusal :=
  onUnit 4 (fun d =>
    if fbit d fPilotOut pilot.toNat || (at' {} d.dtc.pilots pilot.toNat).reset then pumpXlates (dropXlate d pilot.toNat false)
    else d) s

/-! ### In-use counts and flushes (R121) -/

/-- The LBU raises an entry's in-use count as it accepts a manifest. -/
def raiseUse (d : Dev) (num : Nat) : Dev :=
  setEntries d (d.plx.entries.map fun e => if e.num = num then { e with inUse := e.inUse + 1 } else e)

/-- The count falls when the manifest's END completes; a flushed entry goes with its last use. -/
def lowerUse (d : Dev) (num : Nat) : Dev :=
  let es := d.plx.entries.map fun e => if e.num = num then { e with inUse := e.inUse - 1 } else e
  setEntries d (es.filter fun e => !(e.num = num && e.doomed && e.inUse = 0))

/-- A flush starts (R121, R131): entries not in use are dropped, those in use go when their count reaches zero. -/
def xcFlush (d : Dev) : Dev :=
  if flag d fPlxFlush then d
  else
    let d := setFld d fPlxFlush 1
    setEntries d ((d.plx.entries.filter fun e => e.inUse ≠ 0).map fun e => { e with doomed := true })

/-- XC_FLUSH (R121, R131). [log 9 DEDUCED safe] -/
def execXcFlush (s : State) : Host.Outcome State Fault Refusal := onUnit 4 xcFlush s

/-- FLUSH_DONE (R121, R131): FLUSH clears and PLX event 0 is raised. -/
def execFlushDone (s : State) : Host.Outcome State Fault Refusal :=
  onUnit 4 (fun d => if flag d fPlxFlush then raiseEvent (setFld d fPlxFlush 0) 0x10 0 else d) s

end Sys2Proof.Machine
end

