-- ==== Sys2Proof/Machine/Accept.lean ====
section
/-!
DEFINITION. Acceptance (14 R248, R249), what durability releases (R250), the completion ring (06 R112; 04 R68), and commands
interrupted by the failure of one part (R254).
-/

namespace Sys2Proof.Machine

/-! ### Acceptance -/

/-- Does the manifest's first command need its BEGIN in the accept group (R248, R251)? -/
def firstBegins (m : Manifest) : Bool :=
  match specs m.lines with
  | c :: _ => c.op.launchesTiles && !c.replay
  | [] => false

/-- The accept group of a manifest (R246, R248). [log 27 DEDUCED unsafe] -/
def acceptGroup (d : Dev) (m : Manifest) : List LogIn :=
  let ref := d.lbu.nextLsn % 2 ^ 40
  [{ ref := ref, berth := m.berthIdx, body := .accept m.berth m.ctx m.headIdx m.lineCount m.id },
   { ref := ref, berth := m.berthIdx,
     body := .acceptEnd (Config.xcPlace (m.entry.getD 0)).toNat (curEpoch d) (curCatVer d) (tideW d) }] ++
  (if firstBegins m then [{ ref := ref, line := 1, berth := m.berthIdx, body := .begin_ (tideW d) }] else [])

/-- The manifest is discarded without a record (R249, R266). -/
def discardManifest (d : Dev) (m : Manifest) : Dev :=
  sendAccept (dropMans d fun y => y.berthIdx = m.berthIdx && y.headIdx = m.headIdx) m.berthIdx

/-- The step that assigns an LSN to an accept request (R249). -/
def acceptStep (d : Dev) (m : Manifest) : Dev :=
  if !ctxLive d m.ctx || !berthOk d m.berth then discardManifest d m
  else
    let g := acceptGroup d m
    let n := d.lbu.nextLsn
    logGroup (modMan d m.berthIdx m.headIdx fun m => { m with st := .logged, lsn := n, groupEnd := n + g.length - 1 }) g

/-- ACCEPT_REQUEST (R249): the oldest request on the crossing. Requests wait while free space is below LOW_WATER (R252) and
while the LBU is quiesced (R262). -/
def execAcceptRequest (s : State) : Host.Outcome State Fault Refusal :=
  onUnit 10 (fun d =>
    match d.plx.toLbu with
    | [] => d
    | (b, h) :: rest =>
      if flag d (fQreq 7) || logLow d then d
      else match d.mfu.mans.find? fun m => m.berthIdx = b && m.headIdx = h && m.st = .requested with
        | none => modPlx d fun p => { p with toLbu := rest }
        | some m => withRecs d (berthRecs d b) fun d => homeStep d [(false, ctxLine d (ctxIdx m.ctx) 0)] fun d =>
          acceptStep (modPlx d fun p => { p with toLbu := rest }) m) s

/-- The commands of a manifest as they are accepted. -/
def newCmds (d : Dev) (m : Manifest) : List Cmd :=
  (specs m.lines).map fun sp =>
    { key := { berth := BitVec.ofNat 22 m.berthIdx, line := BitVec.ofNat 32 (m.headIdx + sp.lineNo) }, berth := m.berthIdx,
      ctx := m.ctx, headIdx := m.headIdx, ref := m.lsn % 2 ^ 40, spec := sp, readySince := d.now,
      beginLsn := if sp.lineNo = 1 && sp.op.launchesTiles && !sp.replay then some (m.lsn + 2) else none }

/-- One past a manifest's last line. -/
def Manifest.endIdx (m : Manifest) : Nat := (m.headIdx + 1 + m.lineCount) % 2 ^ 32

/-- A manifest becomes accepted: its commands stand, its entry is in use, and the graph versions of what it declares move. -/
def installManifest (d : Dev) (m : Manifest) : Dev :=
  let cs := newCmds d m
  let d := modMan { d with cmds := d.cmds ++ cs } m.berthIdx m.headIdx fun m => { m with st := .accepted }
  let d := match m.entry with | some n => raiseUse d n | none => d
  let d := modHms d fun h => { h with order := if h.order.contains m.berthIdx then h.order else h.order ++ [m.berthIdx] }
  cs.foldl bumpDeclared d

/-- The accepting cycle (R248): ACC_IDX advances, the in-use count rises, PROGRESS and MANIFEST_BYTES count it. -/
def acceptManifest (d : Dev) (m : Manifest) : Dev :=
  let d := installManifest d m
  let d := progress (modBerth d m.berthIdx fun r => { r with acc := m.endIdx }) m.berthIdx
  let d := modCtx d (ctxIdx m.ctx) fun r => { r with manifestBytes := (r.manifestBytes + 64 * (1 + m.lineCount)) % 2 ^ 64 }
  sendAccept (count (incSat d fLbuAccepts) 0 0 1) m.berthIdx

/-- The line of a manifest goes to the harbour region where the record of its last change is durable (R266). -/
def manToHarbour (d : Dev) (slot : Nat) : Dev :=
  match d.mfu.mans.find? fun m => m.slot = slot with
  | some m => if manDurable d m then writeMan d m else d
  | none => d

/-- MANIFEST_ACCEPTED (R248): the last unit of the berth's open accept group is durable, and the harbour-part write of an entry
inserted for the manifest is acknowledged, as the operand says. -/
def execManifestAccepted (berth : AcceptEnd) (s : State) : Host.Outcome State Fault Refusal :=
  onUnit 10 (fun d =>
    match d.mfu.mans.find? fun m => m.berthIdx = berth.berth.toNat && m.st = .logged with
    | some m => if durableAt d m.groupEnd && (berth.acked || !m.fresh) then manToHarbour (acceptManifest d m) m.slot else d
    | none => d) s

/-! ### The completion ring (R112) -/

/-- The 32-byte completion record. -/
def cplWords (c : Cmd) (seq : Nat) : List W64 :=
  let w0 := mkW [(48, c.spec.operatorId), (32, c.spec.layerId), (0, c.spec.tag)]
  let w1 := mkW [(32, c.key.line.toNat), (16, c.detail % 2 ^ 16), (8, c.flags), (0, c.status.getD 0)]
  let w2 := mkW [(0, c.fixTime)]
  let chk := crc32c ((wordBytes [w0, w1, w2, mkW [(0, seq)]]).take 28)
  [w0, w1, w2, mkW [(32, chk), (0, seq)]]

/-- Address of a ring record. -/
def cplAddr (r : BerthRec) (seq : Nat) : Nat := r.cplBase + seq % 2 ^ r.cplLog2 * 32

/-- The command of a berth whose ring record comes next: the oldest COMPLETE record not written to the ring. -/
def nextRing (d : Dev) (b : Nat) : Option Cmd :=
  (d.cmds.filter fun c => c.berth = b && !c.ringDone && c.completeLsn.isSome).foldl (fun m c => match m with
    | some x => if c.completeLsn.getD 0 < x.completeLsn.getD 0 then some c else some x
    | none => some c) none

/-- DONE_IDX: lines of a berth whose commands have all completed (04, Records). -/
def doneIdx (d : Dev) (b : Nat) : Nat :=
  match d.cmds.find? fun c => c.berth = b && !c.ringDone with
  | some c => if c.spec.lineNo = 1 then c.headIdx else c.key.line.toNat
  | none => (berthAt d b).acc

/-- A manifest is done once the ring records of all its commands are written, its END's among them (R252). -/
def manDone (d : Dev) (b head : Nat) : Bool := d.cmds.all fun c => !(c.berth = b && c.headIdx = head) || c.ringDone

/-- A manifest that is done is released (R252, R266): its entry's count falls (R121); a command whose SIGNAL_HOST write is
still owed stays until it is acknowledged (R259). -/
def releaseManifest (d : Dev) (b head : Nat) : Dev :=
  if !manDone d b head then d
  else match d.mfu.mans.find? fun m => m.berthIdx = b && m.headIdx = head && m.st = .accepted with
  | some m =>
    let d := match m.entry with | some n => lowerUse d n | none => d
    let d := freeMan (dropMans d fun y => y.berthIdx = b && y.headIdx = head) m
    { d with cmds := d.cmds.filter fun c => !(c.berth = b && c.headIdx = head) || hostOwed d c }
  | none => d

/-- A COMPLETE record is durable: the ring record leaves, CPL_PROD and DONE_IDX advance, and a manifest that is done with it is
released (R112, R250, R252). -/
def ringWrite (d : Dev) (c : Cmd) : Dev :=
  let b := c.berth
  let r := berthAt d b
  let x := ctxAt d (ctxIdx c.ctx)
  let ws := cplWords c r.cplProd
  let d := memReq d (.cplWrite x.asid x.keyid x.pid (cplAddr r r.cplProd) ws)
  let d := modCmd d c.key fun c => { c with durable := true, ringDone := true }
  let d := modLbu d fun l => { l with rings := (l.rings.filter fun e => l.tail ≤ e.1) ++
    [(c.completeLsn.getD 0, berthHandle b r.gen, r.cplProd, ws)] }
  let d := modBerth d b fun r => { r with cplProd := (r.cplProd + 1) % 2 ^ 32, done := doneIdx d b }
  releaseManifest (count (progress d b) 0 0 2) b c.headIdx

/-- COMPLETE_DURABLE (R250): the durable COMPLETE record lets the signals held for it be applied (R251), and the ring record leaves
once they have been (R12). [log 74 DESIGN CHOICE safe] -/
def execCompleteDurable (c : CmdId) (s : State) : Host.Outcome State Fault Refusal :=
  onUnit 10 (fun d =>
    match nextRing d c.berth.toNat with
    | some x =>
      if x.key = c && x.phase = .complete && (match x.completeLsn with | some l => durableAt d l | none => false) then
        withRecs d (berthRecs d x.berth) fun d => ringWrite d x
      else d
    | none => d) s

/-- Did a completion-ring write to this address leave? -/
def cplSent (d : Dev) (addr : Nat) : Bool := d.memOut.any fun r => match r with
  | .cplWrite _ _ _ a _ => a = addr
  | _ => false

/-- COMPLETION_RECORD_LOST (R68, R306): CPL_PROD has advanced past the record already. -/
def execCompletionRecordLost (_ctx : BitVec 32) (addr : BitVec 57) (r : MemResp) (s : State) :
    Host.Outcome State Fault Refusal :=
  onUnit 10 (fun d =>
    if (r = .access || r = .translation) && cplSent d addr.toNat then incSat (memErr d 7 r addr.toNat) fBtcCplLost else d) s

/-! ### SIGNAL_HOST (R385) -/

/-- SIGNAL_HOST: the command ends OK when it issues; a skipped one sends nothing (R102); once its COMPLETE record is durable the write leaves; with the write's
acknowledgement the interrupt of IRQ = 1 is raised (SCU event 3). A context stopped by its teardown sends nothing (R66).
[log 64 DESIGN CHOICE safe] -/
def signalHostOp (d : Dev) (c : Cmd) : Dev :=
  match c.spec.op with
  | .signalHost va v irq =>
    if c.phase = .issued then finishOk d c.key
    else if c.status ≠ some stOk || !c.ringDone || c.skipped then d
    else if c.step = 0 then
      let x := ctxAt d (ctxIdx c.ctx)
      if !ctxOk d c.ctx || (match tfind d.btc.teardowns (ctxIdx c.ctx) with | some t => t.stopped | none => false) then d
      else modCmd (memReq d (.hostWrite x.asid x.keyid x.pid va v)) c.key fun c => { c with step := 1 }
    else if c.step = 1 then
      let d := modCmd d c.key fun c => { c with step := 2 }
      let d := if irq then raiseEvent d 0 3 else d
      if d.mfu.mans.any fun m => m.berthIdx = c.berth && m.headIdx = c.headIdx then d
      else { d with cmds := d.cmds.filter fun x => x.key ≠ c.key }
    else d
  | _ => d

def execSignalHost (c : CmdId) (s : State) : Host.Outcome State Fault Refusal :=
  onUnit 10 (fun d => withCmd d c fun x => needBerth d x.berth (signalHostOp d x)) s

/-- HOST_WRITE_FAIL (R385, R296, R306): the OK stands; one AFTER_OK record, no interrupt, and the context is torn down. -/
def hostWriteFail (d : Dev) (c : Cmd) (r : MemResp) : Dev :=
  match c.spec.op with
  | .signalHost va _ _ =>
    if c.step ≠ 1 || r = .ok || r = .poison then d
    else
      let d := memErr d 7 r va
      let f : FaultInfo := { cause := 0x70, unit := 10, addr := va, argA := portCode r }
      let d := haltBerth (fixFault d c.berth fun s => cmdFaultRec d c 4 s f none).1 c.berth
      let d := modCmd d c.key fun c => { c with step := 2 }
      startTeardown d (ctxIdx c.ctx)
  | _ => d

def execHostWriteFail (c : CmdId) (r : MemResp) (s : State) : Host.Outcome State Fault Refusal :=
  onUnit 10 (fun d => withCmd d c fun x => needBerth d x.berth (hostWriteFail d x r)) s

/-! ### Interrupted commands (R254) -/

/-- A sequencer or quay failure takes tiles of a command (R254 step 1): its slices stop, what is not transferred is
discarded, and its tiles on other quays drain. -/
def interruptCmd (d : Dev) (k : CmdId) : Dev :=
  withCmd d k fun c =>
    if c.completeLsn.isSome || c.status.isSome || !c.spec.op.sequenced || c.phase = .waiting || c.phase = .moorHeld ||
        c.phase = .interrupted then d
    else
      let was := c.phase
      let d := discardQueued (stopSequencers d k) k
      let d := modHms d fun h => { h with save := h.save.filter fun s => s.2 ≠ k }
      let d := modCtx d (ctxIdx c.ctx) fun r => { r with save := r.save.filter fun n => some n ≠ c.saveSlot }
      let d := drainEverywhere (modCmd d k fun c => { c with phase := .interrupted, saveSlot := none, slices := [] }) (.cmd k) .interrupt
      -- the preemption it was part of completes (12 R214)
      if was = .preempting && !d.cmds.any (fun x => x.berth = c.berth && x.phase = .preempting) then count (incSat d fHmsPreDone) 0 0 6
      else d

/-- A command goes back to be issued again from its start, with REPLAYED set (R254, R239, R256). -/
def runAgain (d : Dev) (k : CmdId) : Dev :=
  withCmd d k fun c =>
    let d := dropUses d c.moors
    modCmd d k fun c => { c with phase := .waiting, replayed := true, woken := true, readySince := d.now, grant := [], mask := [],
                                 trips := [], slices := [], moors := [], named := [], unheld := none, hit := [], lost := false,
                                 launched := false, step := 0, group := none, tileCount := 0 }

/-- COMMAND_INTERRUPTED (R254 steps 2 and 3): none of its own tiles is outstanding. -/
def execCommandInterrupted (c : CmdId) (s : State) : Host.Outcome State Fault Refusal :=
  onUnit 10 (fun d => withCmd d c fun x =>
    if x.phase ≠ .interrupted || tilesOut d c ≠ 0 then d
    else if !ctxLive d x.ctx then d
    else needBerth d x.berth (if x.spec.replay then runAgain d c else completeCmd d c stAborted 3)) s

end Sys2Proof.Machine
end

