-- ==== Sys2Proof/Machine/FaultQueue.lean ====
section
/-!
DEFINITION. The fault queue and the berth fault slots (17 R299 to R302, R307, R386).
-/

namespace Sys2Proof.Machine

/-- Records in the queue: (PROD − CONS) mod 2^32 (R299). -/
def fqHeld (d : Dev) : Nat := (fld d fFqProd + 2 ^ 32 - fld d fFqCons) % 2 ^ 32

def fqFull (d : Dev) : Bool := fqHeld d = 4096

/-- A record enters slot PROD mod 4,096, after both mirrors hold it; PROD advances and SCU event 2 is raised. -/
def fqEnter (d : Dev) (r : FaultRec) : Dev :=
  let p := fld d fFqProd % 4096
  let d := harbourWrite d (offFaultQueue + p * 256) (faultWords r)
  raiseEvent (incWrap (modScu d fun s => { s with queue := tput s.queue p r }) fFqProd) 0 2

/-- With the queue full, the record goes to the berth's slot (R300): SLOT, the pending list, OVERFLOWS and PENDING, the
berth HALTED, SCU event 1. [log 54 DEDUCED unsafe] -/
def fqSlot (d : Dev) (r : FaultRec) : Dev :=
  let b := berthIdx r.berth
  let r := { r with slot := true }
  let d := harbourWrite d (offFaultSlot + b * 256) (faultWords r)
  let d := modScu d fun s => { s with slots := tput s.slots b r, pendList := s.pendList ++ [b] }
  let d := setFld (incWrap d fFqOverflows) fFqPending d.scu.slots.length
  raiseEvent (haltBerth d b) 0 1

/-- The command a record is about, and whether its launched tiles have drained (R296). -/
def recDrained (d : Dev) (r : FaultRec) : Bool :=
  r.kind ≠ 1 || (d.cmds.all fun c => !(c.status = some stFaulted && c.faultSeq = r.seq && c.completeLsn.isNone) ||
    tilesOut d c.key = 0)

/-- FAULT_RECORD_WRITE (R296, R299, R300): an open record whose command has drained is written to both mirrors, into the
queue or into the berth's slot; then the COMPLETE record of its FAULTED command follows. A berth whose slot is PENDING by
now takes no second record. [log 54 DEDUCED unsafe] -/
def writeFault (d : Dev) (seq : Nat) : Dev :=
  match takeFirst (fun (r : FaultRec) => r.seq = seq) d.scu.open_ with
  | none => d
  | some (r, rest) =>
    if !recDrained d r then d
    else
      let d := modScu d fun s => { s with open_ := rest }
      let (d, named) := if r.counted then (d, seq) else
        match tfind d.scu.slots (berthIdx r.berth) with
        | some p => (bumpFollowing d fun x => x.slot && x.seq = p.seq, p.seq)
        | none => (if fqFull d then fqSlot d r else fqEnter d r, seq)
      let cs := d.cmds.filter fun c => c.status = some stFaulted && c.faultSeq = seq && c.completeLsn.isNone
      cs.foldl (fun d c =>
        let d := completeCmd (modCmd d c.key fun c => { c with faultSeq := named }) c.key stFaulted (named % 2 ^ 16)
        modCmd d c.key fun c => if c.sigOk.isEmpty then c else { c with phase := .closing, sigNext := 0 }) d

def execFaultRecordWrite (seqNo : BitVec 32) (s : State) : Host.Outcome State Fault Refusal :=
  onUnit 13 (fun d => writeFault d seqNo.toNat) s

/-- A write of SCU_FQ_CONS (R299): ignored when it lies beyond PROD. -/
def fqConsWrite (d : Dev) (v : W64) : Dev :=
  let n := v.toNat % 2 ^ 32
  if (n + 2 ^ 32 - fld d fFqCons) % 2 ^ 32 ≤ fqHeld d then setFld d fFqCons n else d

/-- FQ_CONS_WRITE (R299). -/
def execFqConsWrite (v : BitVec 64) (s : State) : Host.Outcome State Fault Refusal :=
  onUnit 13 (fun d => fqConsWrite d v) s

/-- The pending record of a berth slot leaves it. -/
def slotClear (d : Dev) (b : Nat) : Dev :=
  let d := modScu d fun s => { s with slots := tdel s.slots b, pendList := s.pendList.filter (· ≠ b) }
  setFld d fFqPending d.scu.slots.length

/-- PENDING_MOVE (R301): the record at the head of the pending list enters the queue when there is room. -/
def execPendingMove (s : State) : Host.Outcome State Fault Refusal :=
  onUnit 13 (fun d =>
    match d.scu.pendList with
    | b :: _ =>
      if fqFull d then d
      else match tfind d.scu.slots b with
        | some r => fqEnter (slotClear d b) r
        | none => d
    | [] => d) s

/-- A fault command ends: RESULT, SEQ and BUSY in one cycle (R307). [log 9 DEDUCED safe, 64 DESIGN CHOICE safe] -/
def fqDone (d : Dev) (result : Nat) : Dev := setFld (incWrap (setFld d fFqResult result) fFqSeq) fFqBusy 0

/-- The record goes to the staging registers. -/
def fqStage (d : Dev) (r : FaultRec) : Dev :=
  (List.range 32).foldl (fun d i => setFld d (fFqData i) ((faultWords r).getD i 0).toNat) d

/-- SCU_FQ_CMD READ (R307, R386). `lost` says that both mirrors' copies failed; `dap` that the debug access port issued
it, for which the record of a Sealed context is refused (R348). -/
def fqRead (d : Dev) (lost dap : Bool) : Dev :=
  let i := fld d fFqSelIndex
  let r := if flag d fFqSelSrc then tfind d.scu.slots i else if i < 4096 then tfind d.scu.queue i else none
  match r with
  | none => fqDone d (if flag d fFqSelSrc then 0x06 else 0x02)
  | some r =>
    if lost then fqDone d 0x04
    else if dap && r.secrecy = .sealed then countRefused (fqDone d 0x03)
    else fqDone (fqStage d r) 0x00

/-- SCU_FQ_CMD TAKE (R301): a berth fault slot only. -/
def fqTake (d : Dev) : Dev :=
  let i := fld d fFqSelIndex
  if !flag d fFqSelSrc then fqDone d 0x02
  else match tfind d.scu.slots i with
    | some _ => fqDone (slotClear d i) 0x00
    | none => fqDone d 0x06

/-- FQ_READ (R386): `a` and `b` are the mirrors' answers. -/
def execFqRead (a b : MemResp) (s : State) : Host.Outcome State Fault Refusal :=
  onUnit 13 (fun d => fqRead d (a ≠ .ok && b ≠ .ok) false) s

/-- TAKE (R301). -/
def execTake (s : State) : Host.Outcome State Fault Refusal := onUnit 13 fqTake s

/-- A write of SCU_FQ_SWEEP (R301, R307): the lowest PENDING index at or above FROM. -/
def fqSweep (d : Dev) (v : W64) : Dev :=
  let from_ := v.toNat % 2 ^ 22
  let d := setFld d fFqFrom from_
  match d.scu.slots.find? fun e => from_ ≤ e.1 with
  | some e => setFld (setFld d fFqFound 1) fFqNext e.1
  | none => setFld (setFld d fFqFound 0) fFqNext 0

/-- FQ_SWEEP (R301). -/
def execFqSweep (v : BitVec 64) (s : State) : Host.Outcome State Fault Refusal := onUnit 13 (fun d => fqSweep d v) s

end Sys2Proof.Machine
end

