-- ==== Sys2Proof/Machine/Security.lean ====
section
/-!
DEFINITION. The security state S and the debug tokens (20 R342 to R347, R355).
-/

namespace Sys2Proof.Machine

/-- S (R342): the base state, or the highest grant among the valid tokens, never above SEC_MAX. [log 63 DEDUCED safe] -/
def secOf (c : ChipCfg) (ts : List (Option Token)) : Nat :=
  ts.foldl (fun m t => match t with | some k => max m (min k.grant c.secMax) | none => m) (min c.secBase c.secMax)

/-- Does a window's staging buffer hold a record of a Sealed context (R348)? -/
def winSealed (d : Dev) (w : Nat) : Bool :=
  let i := fld d (fWinIndex w)
  let ci :=
    if fld d (fWinTable w) = 1 then some (berthAt d i).ctxIdx
    else if fld d (fWinTable w) = 2 then some i
    else if fld d (fWinTable w) = 3 then some (bolAt d i).ctxIdx
    else none
  match ci with
  | some c => (ctxAt d c).secrecy = .sealed
  | none => false

/-- Does SCU_FQ_DATA hold a record of a Sealed context (R348)? -/
def fqSealed (d : Dev) : Bool := fld d (fFqData 0) % 4 = 2

def zeroWin (d : Dev) (w : Nat) : Dev := (List.range 64).foldl (fun d i => setFld d (fWinData w i) 0) d

def zeroFq (d : Dev) : Dev := (List.range 32).foldl (fun d i => setFld d (fFqData i) 0) d

/-- What ends when S falls to `s` (R346): halts and breakpoints that the state no longer admits, instruction trace with a
loss marker, and staging areas whose record it refuses. [log 63 DEDUCED safe] -/
def secFall (d : Dev) (s : Nat) : Dev :=
  let d := if s < 1 then
      let d := eachPilot d 0xFF resumePilot
      (List.range 4).foldl (fun d n => setFld d (fDtcBpEn n) 0) d
    else d
  let d := if s < 2 then
      let traced := fld d fDtcInstrEn
      let d := setFld d fDtcInstrEn 0
      eachPilot d traced fun d p => modPilot d p fun q => { q with instrQ := q.instrQ ++ [lossRec d true p 0] }
    else d
  let d := (List.range 128).foldl (fun d w => if s < 1 || winSealed d w then zeroWin d w else d) d
  if s < 1 || fqSealed d then zeroFq d else d

/-- S is computed anew; a change takes hold in every unit, is counted, and is marked in the command trace (R346).
[log 63 DEDUCED safe] -/
def secUpdate (d : Dev) : Dev :=
  let s := secOf d.scu.cfg d.scu.tokens
  let old := d.scu.sec
  if s = old then d
  else
    let d := incWrap (modScu d fun x => { x with sec := s }) fSecChanges
    marker (if s < old then secFall d s else d) 3 s

def modToken (d : Dev) (n : Nat) (t : Option Token) : Dev :=
  secUpdate (modScu d fun s => { s with tokens := modAt s.tokens n fun _ => t })

/-- The token in rt_in_data (R344); none where a reserved bit is 1 or GRANT is reserved. [log 63 DEDUCED safe] -/
def parseToken (v : BitVec 256) : Option (Token × Nat) :=
  let f := fun lo w => v.toNat / 2 ^ lo % 2 ^ w
  let g := f 160 2
  if f 184 72 ≠ 0 || f 182 2 ≠ 0 || f 162 14 ≠ 0 || g = 0 || g = 3 then none
  else some ({ grant := g, actions := f 176 6, id := f 128 32, expiry := f 64 64 }, f 0 64)

/-- DEBUG_TOKEN (R344). [log 63 DEDUCED safe] -/
def execDebugToken (slot : BitVec 3) (data : BitVec 256) (s : State) : Host.Outcome State Fault Refusal :=
  onUnit 13 (fun d =>
    match parseToken data with
    | some (t, serial) =>
      if serial ≠ d.scu.cfg.unitSerial || (t.expiry ≠ 0 && t.expiry ≤ tideW d) then incSat d fTokenRejects
      else modToken d slot.toNat (some t)
    | none => incSat d fTokenRejects) s

/-- TOKEN_REVOCATION (R345). -/
def execTokenRevocation (slot : BitVec 3) (s : State) : Host.Outcome State Fault Refusal :=
  onUnit 13 (fun d => modToken d slot.toNat none) s

/-- TOKEN_EXPIRY (R345): once the tide counter has reached EXPIRY. -/
def execTokenExpiry (slot : BitVec 3) (s : State) : Host.Outcome State Fault Refusal :=
  onUnit 13 (fun d =>
    match d.scu.tokens.getD slot.toNat none with
    | some t => if t.expiry ≠ 0 && t.expiry ≤ tideW d then modToken d slot.toNat none else d
    | none => d) s

/-- SCU_SEC_CMD LOCK (R345): all eight slots in one cycle. -/
def lockOp (d : Dev) : Dev :=
  secUpdate (modScu d fun s => { s with tokens := s.tokens.map fun _ => none })

/-- LOCK (R345, R355): a write with any KEY other than 0x10C4 is ignored. -/
def execLock (key : BitVec 16) (s : State) : Host.Outcome State Fault Refusal :=
  onUnit 13 (fun d => if key = 0x10C4 then lockOp d else d) s

end Sys2Proof.Machine
end

