-- ==== Sys2Proof/Machine/Slots.lean ====
section
/-!
DEFINITION. Slots (04): their return to FREE or RETIRED, and the store of records on chip (R63).
-/

namespace Sys2Proof.Machine

/-! ### Slots that leave their owner (R56, R379) -/

/-- Bytes that a context's records take (04, HARBOUR_BYTES). -/
def CtxRec.bytes (r : CtxRec) : Nat := 512 + 128 * r.berthCount + 64 * r.bollardCount

/-- Does the slot hold a context? A FREE or RETIRED record keeps no counts (R379). -/
def CtxRec.lives (r : CtxRec) : Bool := r.state = .live || r.state = .dying

def CtxRec.recount (r : CtxRec) : CtxRec := { r with harbourBytes := r.bytes }

/-- BTC event 1 when a slot retires. -/
def retiredEvent (d : Dev) (retired : Bool) : Dev := if retired then raiseEvent d 2 1 else d

/-- A context slot returns to FREE, or to RETIRED after its last generation. -/
def freeCtx (d : Dev) (i : Nat) : Dev :=
  let r := ctxAt d i
  let last := 0xFFF ≤ r.gen
  let n : CtxRec := if last then { state := .retired, gen := r.gen, retireTime := tideW d } else { gen := r.gen + 1 }
  retiredEvent (logState (recallCopies (putCtx d i n) (recLines d.scu.cfg (rCtx i))) 2 n.state.code (ctxHandle i n.gen)) last

/-- A berth slot returns to FREE, or to RETIRED after its last generation; its context's count falls. -/
def freeBerth (d : Dev) (i : Nat) : Dev :=
  let r := berthAt d i
  let last := 0x3FF ≤ r.gen
  let n : BerthRec := if last then { state := .retired, gen := r.gen, retireTime := tideW d } else { gen := r.gen + 1 }
  let d := modCtx d r.ctxIdx fun c =>
    if c.gen = r.ctxGen && c.lives then ({ c with berthCount := c.berthCount - 1 } : CtxRec).recount else c
  let d := recallCopies (putBerth d i n) (ctxLine d r.ctxIdx 0 :: recLines d.scu.cfg (rBerth i))
  let d := logState d 1 n.state.code (berthHandle i n.gen)
  retiredEvent (modHms d fun h => { h with stallB := tdel h.stallB i, order := h.order.filter (· ≠ i) }) last

/-- A bollard slot returns to FREE, or to RETIRED after its last generation; its export pairs go and its owner's count
falls (R170, R290). -/
def freeBol (d : Dev) (i : Nat) : Dev :=
  let r := bolAt d i
  let last := 0xFF ≤ r.gen
  let n : BolRec := if last then { state := .retired, gen := r.gen, retireTime := tideW d } else { gen := r.gen + 1 }
  let d := modCtx (removePairs d (bolHandle i r.gen)) r.ctxIdx fun c =>
    if c.gen = r.ctxGen && c.lives then ({ c with bollardCount := c.bollardCount - 1 } : CtxRec).recount else c
  let d := modBlu (putBol d i n) fun b => { b with watches := b.watches.filter fun w => w.handle ≠ bolHandle i r.gen || !w.sent }
  writeBack (retiredEvent d last) (rBol i)

/-! ### On chip and spilled (R63) -/

/-- Is a berth's record not evictable? -/
def berthHeld (d : Dev) (i : Nat) : Bool :=
  let r := berthAt d i
  (r.pin && r.state ≠ .free && r.state ≠ .retired) || r.fopen ||
    d.cmds.any fun c => c.berth = i && c.spec.op.sequenced && c.phase ≠ .waiting && c.phase ≠ .complete

def ctxHeld (d : Dev) (i : Nat) : Bool :=
  ((ctxAt d i).pin && (ctxAt d i).state ≠ .free) || d.btc.hotBerth.any fun b => (berthAt d b).ctxIdx = i && berthHeld d b

/-- Records that may leave the store, least recently used first, whose last change is durable (R63, R250).
[log 65 DEDUCED unsafe] -/
def evictable (d : Dev) : RecId → List Nat
  | .ctx _ => d.btc.hotCtx.reverse.filter fun i => !ctxHeld d i && mayWriteBack d (rCtx i)
  | .berth _ => d.btc.hotBerth.reverse.filter fun i => !berthHeld d i && mayWriteBack d (rBerth i)
  | .bollard _ => d.blu.hot.reverse.filter fun i => mayWriteBack d (rBol i)

/-- Records the stores hold (R63). [log 65 DEDUCED unsafe] -/
def storeFull (d : Dev) : RecId → Bool
  | .ctx _ => 8192 ≤ d.btc.hotCtx.length
  | .berth _ => 32768 ≤ d.btc.hotBerth.length
  | .bollard _ => 65536 ≤ d.blu.hot.length

/-- The wait entries of a slot are written with it (R187). -/
def keepWaits (d : Dev) (i : Nat) : Dev :=
  { d with harbour := { d.harbour with waits :=
      (d.harbour.waits.filter fun w => w.bol ≠ i) ++ d.blu.waits.filter fun w => w.bol = i } }

/-- A record leaves the store, once every agent copy has been recalled (R265); a dirty record is written back.
[log 65 DEDUCED unsafe] -/
def evict (d : Dev) (r : RecId) : Dev :=
  let d := if dirty d r then writeBack d r else d
  match r with
  | .ctx i => modBtc d fun b => { b with hotCtx := b.hotCtx.filter (· ≠ i.toNat) }
  | .berth i => modBtc d fun b => { b with hotBerth := b.hotBerth.filter (· ≠ i.toNat) }
  | .bollard i => modBlu (keepWaits d i.toNat) fun b => { b with hot := b.hot.filter (· ≠ i.toNat) }

/-- A record of the same kind with another index. -/
def sameKind (r : RecId) (i : Nat) : RecId :=
  match r with
  | .ctx _ => rCtx i
  | .berth _ => rBerth i
  | .bollard _ => rBol i

/-- Page whose unit holds a record. -/
def recPage : RecId → Nat
  | .bollard _ => 5
  | _ => 2

/-- A record's two copies have answered (R63, R261, R303): it comes on chip, after an eviction where the store is full; a copy that
alone is poisoned goes into its mirror's history; with both copies failing, window commands that wait for it end MEMERR and the
machine check of code 0x23 follows. [log 65 DEDUCED unsafe] -/
def fillRecord (d : Dev) (r : RecId) (a b : MemResp) (onFail : Dev → Dev) : Dev :=
  if !d.btc.fills.contains r then d
  else
  let p := recPage r
  let d := memErr (memErr d p a (mirrorAddr d 0 (recOff r))) p b (mirrorAddr d 1 (recOff r))
  if a ≠ .ok && b ≠ .ok then
    mirrorsFailed (onFail (modBtc d fun x => { x with fills := x.fills.filter (· ≠ r) })) p (recOff r)
  else
    let go := fun (d : Dev) =>
      let d := touch (modBtc d fun x => { x with fills := x.fills.filter (· ≠ r) }) r
      if a = .poison then noteFailure d 0 (recOff r / 4096) else if b = .poison then noteFailure d 1 (recOff r / 4096) else d
    if !storeFull d r then go d
    else match evictable d r with
      | v :: _ => homeStep d (recSteps d true (sameKind r v)) fun d => go (evict d (sameKind r v))
      | [] => d

end Sys2Proof.Machine
end

