-- ==== Sys2Proof/Machine/Windows.lean ====
section
/-!
DEFINITION. Window commands (03 R50 to R52; 04 R58 to R61, R380; 10 R169 to R171; 20 R354): READ, WRITE and CLEAR, and their
completion.
-/

namespace Sys2Proof.Machine

/-! ### Selection and staging -/

/-- Index and generation widths of a table; none for 0x0 and the reserved values. -/
def tableWidths (t : Nat) : Option (Nat × Nat) :=
  if t = 1 then some (22, 10) else if t = 2 then some (20, 12) else if t = 3 then some (24, 8) else none

/-- TABLE is defined and no bit is set above the table's index or generation width. -/
def selOk (d : Dev) (w : Nat) : Bool :=
  match tableWidths (fld d (fWinTable w)) with
  | some (iw, gw) => fld d (fWinIndex w) < 2 ^ iw && fld d (fWinGen w) < 2 ^ gw
  | none => false

/-- Bits hi:lo of staging register `n`. -/
def stg (d : Dev) (w n hi lo : Nat) : Nat := getBits (reg d (0x80 + w) (0x100 + 8 * n)) hi lo

/-- Generation of the selected record. -/
def selGen (d : Dev) (w : Nat) : Nat :=
  let i := fld d (fWinIndex w)
  if fld d (fWinTable w) = 1 then (berthAt d i).gen else if fld d (fWinTable w) = 2 then (ctxAt d i).gen else (bolAt d i).gen

/-- Words of the selected record. -/
def selWords (d : Dev) (w : Nat) : List W64 :=
  let i := fld d (fWinIndex w)
  if fld d (fWinTable w) = 1 then berthWords (berthAt d i)
  else if fld d (fWinTable w) = 2 then ctxWords (ctxAt d i) else bolWords d i

/-- The selected record. -/
def selRec (d : Dev) (w : Nat) : RecId :=
  let i := fld d (fWinIndex w)
  if fld d (fWinTable w) = 1 then rBerth i else if fld d (fWinTable w) = 2 then rCtx i else rBol i

/-- Records a window command needs on chip: the one selected, its owner's context record, and for a creation the context
that the staging buffer names (R63). [log 65 DEDUCED unsafe] -/
def winRecs (d : Dev) (w op : Nat) : List RecId :=
  let i := fld d (fWinIndex w)
  let named := if op = 2 then [rCtx (stg d w 0 33 14)] else []
  if fld d (fWinTable w) = 1 then
    rBerth i :: (if (berthAt d i).ctxGen = 0 then named else [rCtx (berthAt d i).ctxIdx])
  else if fld d (fWinTable w) = 2 then [rCtx i]
  else rBol i :: (if (bolAt d i).ctxGen = 0 then named else [rCtx (bolAt d i).ctxIdx])

/-! ### READ and CLEAR -/

def stageWin (d : Dev) (w : Nat) (ws : List W64) : Dev :=
  (List.range 64).foldl (fun d n => setFld d (fWinData w n) (ws.getD n 0).toNat) d

/-- READ (R50, R348): RESULT 0 DONE, 1 STALE, 2 BADSEL, 3 REFUSED. -/
def winReadStep (d : Dev) (w : Nat) (dap : Bool) : Dev × Nat :=
  if !flag d (fWinAny w) && selGen d w ≠ fld d (fWinGen w) then (d, 1)
  else if dap && winSealed d w then (countRefused d, 3)
  else (stageWin d w (selWords d w), 0)

/-! ### WRITE: contexts -/

def pinnedCtxs (d : Dev) : Nat := (d.btc.ctx.filter fun e => e.2.pin && (e.2.state = .live || e.2.state = .dying)).length
def pinnedBerths (d : Dev) : Nat :=
  (d.btc.berth.filter fun e => e.2.pin && e.2.state ≠ .free && e.2.state ≠ .retired).length

/-- The software-writable fields of a context record, from the staging buffer. -/
def stgCtx (d : Dev) (w : Nat) (r : CtxRec) : CtxRec :=
  { r with pin := stg d w 0 25 25 = 1, strictFence := stg d w 0 24 24 = 1, prioFloor := stg d w 0 23 22
           pid := stg d w 0 21 18
           secrecy := if stg d w 0 17 16 = 0 then .open else if stg d w 0 17 16 = 1 then .confidential else .sealed
           keyid := stg d w 1 31 20, asid := stg d w 1 19 0, bollardLimit := stg d w 2 56 32, berthLimit := stg d w 2 22 0
           blockLimit := stg d w 3 31 0 }

/-- The limits of R60 that bind every WRITE to a context. -/
def ctxLimitsOk (d : Dev) (old new : CtxRec) : Bool :=
  !(new.pin && !(old.pin && (old.state = .live || old.state = .dying)) && 1024 ≤ pinnedCtxs d) &&
    new.berthLimit ≤ 4194304 && new.bollardLimit ≤ 16777216

/-- The key checks of R354 at a creation. -/
def keyOk (d : Dev) (r : CtxRec) : Bool :=
  let used := (d.btc.ctx.filter fun e => e.2.keyid = r.keyid && (e.2.state = .live || e.2.state = .dying)).map (·.2)
  r.keyid ≠ d.scu.cfg.arenaKeyid && r.keyid ≠ d.scu.cfg.harbourKeyid &&
    !(r.secrecy = .sealed && (r.keyid = 0 || !used.isEmpty)) && !used.any fun x => x.secrecy = .sealed

/-- CONTEXT_CREATE (R60, R354, R379). -/
def createCtx (d : Dev) (w i : Nat) : Dev × Nat :=
  let r := ctxAt d i
  let n : CtxRec := { stgCtx d w {} with state := .live, gen := r.gen }
  if stg d w 0 17 16 = 3 || !ctxLimitsOk d r n || !keyOk d n then (d, 2)
  else (logState (putCtx d i n) 2 CtxSt.live.code (ctxHandle i r.gen), 0)

/-- A context WRITE that leaves STATE unchanged (R380): in LIVE the permitted fields; elsewhere none may differ. -/
def keepCtx (d : Dev) (w i : Nat) : Dev × Nat :=
  let r := ctxAt d i
  let n := stgCtx d w r
  if stg d w 0 17 16 = 3 then (d, 2)
  else if n = r then (d, 0)
  else if r.state = .live && n.secrecy = r.secrecy && n.keyid = r.keyid && n.asid = r.asid && ctxLimitsOk d r n then
    (putCtx d i n, 0)
  else (d, 2)

/-- The one-second age of R58. -/
def aged (d : Dev) (t : Nat) : Bool := t + 1000000000 ≤ tideW d

def writeCtx (d : Dev) (w i : Nat) : Dev × Nat :=
  let r := ctxAt d i
  let want := stg d w 0 3 0
  match r.state with
  | .free => if want = 1 then createCtx d w i else if want = 0 then keepCtx d w i else (d, 2)
  | .live => if want = 2 then (startTeardown d i, 0) else if want = 1 then keepCtx d w i else (d, 2)
  | .dying => if want = 2 then (d, 0) else (d, 2)
  | .retired =>
    if want = 0 && aged d r.retireTime then (logState (putCtx d i {}) 2 CtxSt.free.code (ctxHandle i 1), 0) else (d, 2)

/-! ### WRITE: berths -/

/-- The software-writable fields of a berth record, from the staging buffer. -/
def stgBerth (d : Dev) (w : Nat) (r : BerthRec) : BerthRec :=
  { r with pin := stg d w 0 48 48 = 1, prio := stg d w 0 47 46, ctxGen := stg d w 0 45 34, ctxIdx := stg d w 0 33 14
           ringBase := stg d w 1 56 12 * 4096, ringLog2 := stg d w 1 5 0, cplBase := stg d w 4 56 12 * 4096
           cplLog2 := stg d w 4 4 0 }

def berthLives (r : BerthRec) : Bool := r.state = .live || r.state = .halted || r.state = .draining

/-- BERTH_CREATE (R61, R379, R273). -/
def createBerth (d : Dev) (w i : Nat) : Dev × Nat :=
  let r := berthAt d i
  let n : BerthRec := { stgBerth d w {} with state := .live, gen := r.gen }
  let c := ctxAt d n.ctxIdx
  if !(c.state = .live && c.gen = n.ctxGen) || c.berthLimit ≤ c.berthCount || (n.pin && 8192 ≤ pinnedBerths d) ||
      n.ringLog2 < 6 || 24 < n.ringLog2 || n.cplLog2 < 4 || 20 < n.cplLog2 then (d, 2)
  else
    let d := putCtx d n.ctxIdx ({ c with berthCount := c.berthCount + 1 } : CtxRec).recount
    let d := logState (putBerth d i n) 1 BerthSt.live.code (berthHandle i n.gen)
    (if n.pin then pushLine d 9 (berthLine d i 1) else d, 0)

/-- A berth WRITE that leaves STATE unchanged: PIN and PRIO may change while it lives (R61, R380). -/
def keepBerth (d : Dev) (w i : Nat) : Dev × Nat :=
  let r := berthAt d i
  let n := stgBerth d w r
  if n = r then (d, 0)
  else if berthLives r && { r with pin := n.pin, prio := n.prio } = n && !(n.pin && !r.pin && 8192 ≤ pinnedBerths d) then
    (putBerth d i n, 0)
  else (d, 2)

def writeBerth (d : Dev) (w i : Nat) : Dev × Nat :=
  let r := berthAt d i
  let want := stg d w 0 3 0
  match r.state with
  | .free => if want = 1 then createBerth d w i else if want = 0 then keepBerth d w i else (d, 2)
  | .live =>
    if want = 3 then
      (logState (putBerth d i { r with state := .draining }) 1 BerthSt.draining.code (berthHandle i r.gen), 0)
    else if want = 1 then keepBerth d w i else (d, 2)
  | .halted => if want = 2 then keepBerth d w i else (d, 2)
  | .draining => if want = 3 then keepBerth d w i else (d, 2)
  | .retired =>
    if want = 0 && aged d r.retireTime then (logState (putBerth d i {}) 1 BerthSt.free.code (berthHandle i 1), 0)
    else (d, 2)

/-! ### WRITE: bollards -/

/-- The software-writable fields of a bollard slot, from the staging buffer. -/
def stgBol (d : Dev) (w : Nat) (r : BolRec) : BolRec :=
  let k := stg d w 0 13 12
  { r with watchArm := stg d w 0 48 48 = 1, watchIrq := stg d w 0 47 47 = 1, hostSig := stg d w 0 46 46 = 1
           ctxGen := stg d w 0 45 34, ctxIdx := stg d w 0 33 14
           kind := if k = 0 then .fence else if k = 1 then .counter else if k = 2 then .barrier else .flag
           value := reg d (0x80 + w) 0x108, param := reg d (0x80 + w) 0x110, watchValue := reg d (0x80 + w) 0x118
           watchVa := stg d w 4 56 3 * 8, cap := reg d (0x80 + w) 0x128 }

/-- No reserved bit of the staged slot is 1 (R168, R169). -/
def bolReservedOk (d : Dev) (w : Nat) : Bool :=
  let n := stgBol d w {}
  stg d w 0 63 49 = 0 && stg d w 4 63 57 = 0 && stg d w 4 2 0 = 0 && stg d w 6 31 16 = 0 &&
    (match n.kind with
     | .fence => n.param = 0
     | .flag => n.param = 0 && n.value.toNat < 2
     | .counter => n.value.toNat < 2 ^ 63 && n.param.toNat < 2 ^ 63
     | .barrier => n.param.toNat < 2 ^ 16)

/-- VALUE and PARAM as a new bollard may have them (R169). -/
def bolValueOk (n : BolRec) : Bool :=
  match n.kind with
  | .counter => 1 ≤ capacityOf n && n.value.toNat ≤ capacityOf n
  | .barrier => 1 ≤ participantsOf n && arrCurOf n.value = 0 && arrNextOf n.value = 0
  | _ => true

/-- BOLLARD_CREATE (R169); a watch armed with its condition holding fires in this step (R186). -/
def createBol (d : Dev) (w i : Nat) : Dev × Nat :=
  let r := bolAt d i
  let n : BolRec := { stgBol d w {} with state := .live, gen := r.gen }
  let c := ctxAt d n.ctxIdx
  if !(c.state = .live && c.gen = n.ctxGen) || c.bollardLimit ≤ c.bollardCount || !bolReservedOk d w || !bolValueOk n then
    (d, 2)
  else
    let d := putCtx d n.ctxIdx ({ c with bollardCount := c.bollardCount + 1 } : CtxRec).recount
    (watchCheck (putBol d i n) i, 0)

/-- A bollard WRITE that leaves STATE unchanged (R169, R171, R186, R290). [log 28 DEDUCED unsafe] -/
def keepBol (d : Dev) (w i : Nat) : Dev × Nat :=
  let r := bolAt d i
  let n := stgBol d w r
  if n = r then (d, 0)
  else if r.state = .live && n.ctxGen = r.ctxGen && n.ctxIdx = r.ctxIdx && n.kind = r.kind && n.value = r.value &&
      n.param = r.param && bolReservedOk d w then
    let d := putBol d i n
    let d := if n.cap = 0 then removePairs d (bolHandle i r.gen) else d
    (watchCheck d i, 0)
  else (d, 2)

def writeBol (d : Dev) (w i : Nat) : Dev × Nat :=
  let r := bolAt d i
  let want := stg d w 0 3 0
  match r.state with
  | .free => if want = 1 then createBol d w i else if want = 0 then keepBol d w i else (d, 2)
  | .live => if want = 0 then (if waiters d i ≠ 0 then (d, 2) else (freeBol d i, 0)) else if want = 1 then keepBol d w i else (d, 2)
  | .abandoned => if want = 2 then keepBol d w i else (d, 2)
  | .retired => if want = 0 && aged d r.retireTime then (putBol d i {}, 0) else (d, 2)

/-- WRITE (R50): the generation first, then the transition; the record is written through to both mirrors (R51). -/
def winWriteStep (d : Dev) (w : Nat) : Dev × Nat :=
  if flag d (fWinAny w) then (d, 2)
  else if selGen d w ≠ fld d (fWinGen w) then (d, 1)
  else
    let i := fld d (fWinIndex w)
    let r := selRec d w
    let (d, res) := if fld d (fWinTable w) = 1 then writeBerth d w i
      else if fld d (fWinTable w) = 2 then writeCtx d w i else writeBol d w i
    if res = 0 then (writeBack d r, 0) else (d, res)

/-! ### Commands -/

/-- The home step of a window command whose records are on chip. [log 76 DESIGN CHOICE unsafe] -/
def winStep (d : Dev) (w op : Nat) (dap : Bool) : Dev × Nat :=
  if op = 3 then ((List.range 64).foldl (fun d n => setFld d (fWinData w n) 0) d, if selOk d w then 0 else 2)
  else if !selOk d w then (d, 2)
  else if op = 1 then winReadStep d w dap
  else if op = 2 then winWriteStep d w
  else (d, 2)

/-- Lines of the home step of a window command (R50, R267): those of the record, which a READ reads and a WRITE writes, and of a
creation or a bollard's WRITE the context line that counts it. -/
def winLines (d : Dev) (w op : Nat) : List (Bool × Nat) :=
  recSteps d (op = 2) (selRec d w) ++ ((winRecs d w op).drop 1).flatMap fun r => match r with
    | .ctx i => if op = 2 then [(true, ctxLine d i.toNat 0)] else []
    | _ => []

/-- A window command starts: the home step is made as soon as its records are on chip; a quiesced BTC holds it (R277).
[log 12 DEDUCED unsafe] -/
def winTry (d : Dev) (w : Nat) : Dev :=
  match tfind d.btc.win w with
  | some (op, dap, sel, none) =>
    if flag d (fQuiesced 2) then d
    else
      let later := reg d (0x80 + w) 0x080
      let d := setReg d (0x80 + w) 0x080 sel
      let rs := if (op ≠ 1 && op ≠ 2) || !selOk d w then [] else winRecs d w op
      let d := withRecs d rs fun d => homeStep d (if rs.isEmpty then [] else winLines d w op) fun d =>
        let (d, res) := winStep d w op dap
        modBtc d fun b => { b with win := tput b.win w (op, dap, sel, some res) }
      setReg d (0x80 + w) 0x080 later
  | _ => d

/-- A write of BTC_WIN_CMD (R50): while BUSY it is discarded and LOST is set. [log 9 DEDUCED safe] -/
def winCmd (d : Dev) (w op : Nat) (dap : Bool) : Dev :=
  if flag d (fWinBusy w) then setFld d (fWinLost w) 1
  else winTry (modBtc (setFld d (fWinBusy w) 1) fun b => { b with win := tput b.win w (op, dap, reg d (0x80 + w) 0x080, none) }) w

/-- WIN_READ (R50). -/
def execWinRead (w : BitVec 7) (s : State) : Host.Outcome State Fault Refusal :=
  onUnit 2 (fun d => winCmd d w.toNat 1 false) s

/-- WIN_WRITE (R50). -/
def execWinWrite (w : BitVec 7) (s : State) : Host.Outcome State Fault Refusal :=
  onUnit 2 (fun d => winCmd d w.toNat 2 false) s

/-- WIN_CLEAR (R50). -/
def execWinClear (w : BitVec 7) (s : State) : Host.Outcome State Fault Refusal :=
  onUnit 2 (fun d => winCmd d w.toNat 3 false) s

/-- WINDOW_COMMAND_DONE (R50, R51): RESULT, SEQ and BUSY in one cycle. -/
def winDone (d : Dev) (w : Nat) : Dev :=
  let d := winTry d w
  match tfind d.btc.win w with
  | some (_, _, _, some res) =>
    let d := modBtc d fun b => { b with win := tdel b.win w }
    setFld (incWrap (setFld d (fWinResult w) res) (fWinSeq w)) (fWinBusy w) 0
  | _ => d

def execWindowCommandDone (w : BitVec 7) (s : State) : Host.Outcome State Fault Refusal :=
  onUnit 2 (fun d => winDone d w.toNat) s

/-- Window commands that wait for a record end MEMERR (R50). -/
def winMemErr (r : RecId) (d : Dev) : Dev :=
  modBtc d fun b => { b with win := b.win.map fun e =>
    match e.2 with
    | (op, dap, sel, none) =>
      if (winRecs (setReg d (0x80 + e.1) 0x080 sel) e.1 op).contains r then (e.1, op, dap, sel, some 4) else e
    | _ => e }

end Sys2Proof.Machine
end

