-- ==== Sys2Proof/Machine/Waits.lean ====
section
/-!
DEFINITION. Waits and signals of commands at the BLU (10 R172 to R184), the skips of declared branches (06 R102), and watch
writes that fail (R186).
-/

namespace Sys2Proof.Machine

/-! ### Signals (R176 to R182) -/

/-- The entry that stands for one that is not there. -/
def noEnt : SyncEnt := ⟨0, 0, 0, 0, 0, false⟩

/-- A signal of a command at a local bollard, applied once (R174): the block after it, the status it fixes and its cause. -/
def applySignal (d : Dev) (c : Cmd) (idx : Nat) (e : SyncEnt) : Dev × Nat × Nat :=
  if c.applied.contains (4 + idx) then (d, stOk, 0)
  else match localTest d c.ctx e with
    | .ok _ => (localSignal (modCmd d c.key fun c => { c with applied := c.applied ++ [4 + idx] }) c idx e, stOk, 0)
    | .no row =>
      let st := refusalStatus row (ctxAt d (ctxIdx c.ctx)).strictFence
      (localSignal d c idx e, st)

/-- A SIGNAL packet of a command (16 R283). -/
def signalPacket (c : Cmd) (idx : Nat) (e : SyncEnt) : Payload :=
  .signal (BitVec.ofNat 32 e.handle) e.value e.cap (BitVec.ofNat 4 e.code) (BitVec.ofNat 40 c.ref)
    (BitVec.ofNat 16 c.spec.lineNo) (BitVec.ofNat 3 (4 + idx))

/-- The signal of a command to a bollard of another node: it is done when it has left the FSA (R177, R178). -/
def remoteSignal (d : Dev) (c : Cmd) (idx : Nat) (e : SyncEnt) : Dev :=
  let done := fun (d : Dev) (st : Nat) => signalDone d c.key idx (if c.completeLsn.isSome then stOk else st) 0
  if !reachable d e.node then done d stUnreachable
  else if c.sent.contains idx then (if hasLeft d e.node c.key (4 + idx) then done d stOk else d)
  else if !queueRoom d e.node then noteWait d e.node
  else
    let d := sendPkt (modCmd d c.key fun c => { c with sent := c.sent ++ [idx] }) e.node (signalPacket c idx e)
      (some (c.key, 4 + idx))
    if hasLeft d e.node c.key (4 + idx) then done d stOk else d

/-! ### Skipped commands (R102) -/

/-- A skipped command's turn: without signals, or with signals to local bollards that are on chip, it completes in this step;
otherwise its signals follow and the later skipped commands wait for it. The flag says whether the next may go. -/
def skipOne (p : Dev × Bool) (k : CmdId) : Dev × Bool :=
  match p.2, cmdAt p.1 k with
  | true, some c =>
    let d := p.1
    if c.phase = .closing then (d, false)
    else if c.spec.sigs.all fun e => e.node = 0 && (bolRecs d e.handle).all (onChip d) then
      let d := (List.range c.spec.sigs.length).foldl (fun d i =>
        withCmd d k fun c =>
          let (d, st) := applySignal d c i (c.spec.sigs.getD i noEnt)
          modCmd d k fun c => { c with sigRes := c.sigRes ++ [(i, st.1, st.2)] }) d
      (concludeSignals d k, true)
    else (finishOk d k, false)
  | go, _ => (p.1, go)

/-- Skipped commands of a manifest complete in line order (R102). [log 29 DEDUCED unsafe] -/
def runSkips (d : Dev) (b head : Nat) : Dev :=
  let ks := (d.cmds.filter fun c => c.berth = b && c.headIdx = head && c.skipped && c.completeLsn.isNone).map (·.key)
  (ks.foldl skipOne (d, true)).1

/-- Commands from the one after line `from_` up to, not including, line `to_` are skipped (R102). -/
def markSkips (d : Dev) (b head from_ to_ : Nat) : Dev :=
  { d with cmds := d.cmds.map fun c =>
      if c.berth = b && c.headIdx = head && from_ < c.spec.lineNo && c.spec.lineNo < to_ && c.completeLsn.isNone &&
          c.phase = .waiting then { c with skipped := true, regd := false } else c }

/-- A branch is taken (BRANCH_TAKEN, R102): the branching command `c` has completed, its record carrying BRANCHED.
[log 29 DEDUCED unsafe] -/
def takeBranch (d : Dev) (c : Cmd) : Dev :=
  let d := markSkips d c.berth c.headIdx c.spec.lineNo c.spec.brTarget
  let d := (d.cmds.filter fun x => x.berth = c.berth && x.headIdx = c.headIdx && x.skipped && x.completeLsn.isNone).foldl
    (fun d x => withdrawWaits d x.key) d
  runSkips d c.berth c.headIdx

/-- A command that completed with a branch to take takes it (R102). -/
def branchCheck (d : Dev) (k : CmdId) : Dev :=
  withCmd d k fun c => if c.branched && c.completeLsn.isSome then takeBranch d c else d

/-- What follows a step of a command's signals: the turn of the next skipped commands, or its own branch. -/
def afterSignals (d : Dev) (c : Cmd) : Dev := if c.skipped then runSkips d c.berth c.headIdx else branchCheck d c.key

/-- A signal row: the next signal of a command whose status allows it, with the operation the row is about (R176, R251). One to another
node leaves once the block is loaded (R27). -/
def signalRow (d : Dev) (k : CmdId) (idx code : Nat) : Dev :=
  withCmd d k fun c =>
    if c.phase ≠ .closing || (c.status = some stFaulted && c.completeLsn.isNone) ||
        !(match c.completeLsn with | some l => durableAt d l | none => true) || c.sigNext ≠ idx then d
    else
      let e := c.spec.sigs.getD idx noEnt
      if c.spec.sigs.length ≤ idx || e.code ≠ code then d
      else needBerth d c.berth <| if c.completeLsn.isSome && !c.sigOk.contains idx then signalDone d k idx stOk 0
      else if e.node ≠ 0 then (if loaded d then afterSignals (remoteSignal d c idx e) c else d)
      else withRecs d (bolRecs d e.handle) fun d =>
        let (d, st) := applySignal d c idx e
        afterSignals (if c.completeLsn.isSome then signalDone d k idx stOk 0 else signalDone d k idx st.1 st.2) c

/-- FENCE_SET (R180). -/
def execFenceSet (c : CmdId) (entry : BitVec 1) (s : State) : Host.Outcome State Fault Refusal :=
  onUnit 6 (fun d => signalRow d c entry.toNat 1) s

/-- COUNTER_PUT (R179). -/
def execCounterPut (c : CmdId) (entry : BitVec 1) (s : State) : Host.Outcome State Fault Refusal :=
  onUnit 6 (fun d => signalRow d c entry.toNat 2) s

/-- BARRIER_ARRIVE (R179, R182). -/
def execBarrierArrive (c : CmdId) (entry : BitVec 1) (s : State) : Host.Outcome State Fault Refusal :=
  onUnit 6 (fun d => signalRow d c entry.toNat 3) s

/-- FLAG_SET (R179). -/
def execFlagSet (c : CmdId) (entry : BitVec 1) (s : State) : Host.Outcome State Fault Refusal :=
  onUnit 6 (fun d => signalRow d c entry.toNat 4) s

/-- FLAG_CLEAR (R179). -/
def execFlagClear (c : CmdId) (entry : BitVec 1) (s : State) : Host.Outcome State Fault Refusal :=
  onUnit 6 (fun d => signalRow d c entry.toNat 5) s

/-! ### Waits (R172 to R175) -/

/-- A wait entry joins its bollard (R172, R184, R194). -/
def enqueueWait (d : Dev) (c : Cmd) (e : SyncEnt) : Dev :=
  let i := bolIdx e.handle
  let d := modBlu d fun b => { b with waits := b.waits ++
    [{ bol := i, who := .here c.key c.met, code := e.code, value := e.value, cont := e.cont }] }
  let d := modCmd d c.key fun c => { c with regd := true, entrySince := d.now }
  count (bumpGraph d 0 e.handle) 0 0 7

/-- A spin grant for a waiter whose first wait has just been found unmet (R184). -/
def spinGrant (d : Dev) (k : CmdId) : Dev :=
  withCmd d k fun c =>
    let ns := fld d fBluSpinNs
    let free := (freeSeqs d).filter fun s => !d.cmds.any fun x => x.spin = some s
    if c.regd && ns ≠ 0 && c.spec.op.sequenced && c.spin.isNone && c.spinEnd = 0 && hmsMayPick d then
      match free with
      | s :: _ => modCmd d k fun c => { c with spin := some s, spinEnd := d.now + ns }
      | [] => d
    else d

/-- The first registration that leaves a wait of a command unmet opens its spin window (R184). -/
def firstUnmet (d : Dev) (k : CmdId) : Dev :=
  withCmd d k fun c =>
    if c.regd && c.waitSince = 0 then spinGrant (modCmd d k fun c => { c with waitSince := max 1 d.now }) k else d

/-- A wait at a local bollard: its checks, its arrival for a barrier, and its evaluation in the step of its registration.
[log 29 DEDUCED unsafe] -/
def registerHere (d : Dev) (c : Cmd) (e : SyncEnt) : Dev :=
  let i := bolIdx e.handle
  let r := bolAt d i
  let n := c.met
  if c.applied.contains n then waitMet d c.key
  else if !bolOk d e.handle then completeCmd (incSat d fBluRejStale) c.key stStale n
  else if r.state = .abandoned then (if e.cont then waitMet d c.key else completeCmd d c.key stAbandoned n)
  else if !capOk r c.ctx e.cap then completeCmd (incSat d fBluRejCap) c.key stStale n
  else if kindOfCode e.code ≠ some r.kind then faultCmd d c.key (bluFault 0x45 n e.handle)
  else match r.kind with
    | .counter =>
      if capacityOf r < e.value.toNat then faultCmd d c.key (bluFault 0x42 n e.handle)
      else firstUnmet (serveWaits (enqueueWait d c e) i) c.key
    | .barrier => match arriveOp (participantsOf r) r.value (e.value.toNat % 2 ^ 32) with
      | .no row => faultCmd d c.key (bluFault (refusalStatus row false).2 n e.handle)
      | .ok v =>
        let d := modCmd (enqueueWait d c e) c.key fun c => { c with applied := c.applied ++ [n] }
        firstUnmet (stepValue d i v n c.ref c.spec.lineNo c.berth) c.key
    | _ => firstUnmet (serveWaits (enqueueWait d c e) i) c.key

/-- A wait at another node's bollard (R175, R286): it leaves against a free share and a place in the partner's queue. -/
def registerAway (d : Dev) (c : Cmd) (e : SyncEnt) : Dev :=
  let n := c.met
  if !reachable d e.node then completeCmd d c.key stUnreachable n
  else if fld d fFsaShare ≤ (partnerAt d e.node).shares then d
  else if !queueRoom d e.node then noteWait d e.node
  else
    let d := modPartner d e.node fun p => { p with shares := p.shares + 1 }
    let d := modBlu d fun b => { b with away := b.away ++ [(e.node, c.key, n)] }
    let d := modCmd d c.key fun c => { c with regd := true, entrySince := d.now }
    let d := count (bumpGraph d e.node e.handle) 0 0 7
    let d := sendPkt d e.node (.waitReg (BitVec.ofNat 32 e.handle) e.value e.cap (BitVec.ofNat 4 e.code)
      (BitVec.ofNat 32 (berthHandle c.berth (berthAt d c.berth).gen)) (BitVec.ofNat 3 n) e.cont) (some (c.key, n))
    firstUnmet d c.key

/-- A wait row: the next wait of a command whose other issue conditions hold (R172), with the condition the row is about.
[log 29 DEDUCED unsafe] -/
def waitRow (d : Dev) (k : CmdId) (code : Nat) : Dev :=
  withCmd d k fun c =>
    let e := c.spec.waits.getD c.met noEnt
    if fld d fLoadState ≠ 3 || !ctxLive d c.ctx || c.phase ≠ .waiting || c.skipped || c.regd || !orderOk d c ||
        c.spec.waits.length ≤ c.met || e.code ≠ code then d
    else needBerth d c.berth (
      if e.node = 0 then withRecs d (bolRecs d e.handle) fun d => registerHere d c e else registerAway d c e)

/-- FENCE_GE (R173). -/
def execFenceGe (c : CmdId) (s : State) : Host.Outcome State Fault Refusal := onUnit 6 (fun d => waitRow d c 1) s

/-- COUNTER_TAKE (R173, R174). -/
def execCounterTake (c : CmdId) (s : State) : Host.Outcome State Fault Refusal := onUnit 6 (fun d => waitRow d c 2) s

/-- BARRIER_PASS (R173, R182). -/
def execBarrierPass (c : CmdId) (s : State) : Host.Outcome State Fault Refusal := onUnit 6 (fun d => waitRow d c 3) s

/-- FLAG_IS_SET (R173). -/
def execFlagIsSet (c : CmdId) (s : State) : Host.Outcome State Fault Refusal := onUnit 6 (fun d => waitRow d c 4) s

/-- FLAG_IS_CLEAR (R173). -/
def execFlagIsClear (c : CmdId) (s : State) : Host.Outcome State Fault Refusal := onUnit 6 (fun d => waitRow d c 5) s

/-! ### Spin and wake (R184) -/

/-- SPIN_WINDOW_END: the HMS takes back the spin grant. -/
def execSpinWindowEnd (c : CmdId) (s : State) : Host.Outcome State Fault Refusal :=
  onUnit 5 (fun d => withCmd d c fun x =>
    if x.spin.isSome && x.spinEnd ≤ d.now then modCmd d c fun x => { x with spin := none } else d) s

/-- WAITER_WAKE: the HMS takes the wake wire; the command enters the ready list behind those of its level. -/
def execWaiterWake (c : CmdId) (s : State) : Host.Outcome State Fault Refusal :=
  onUnit 5 (fun d => withCmd d c fun x =>
    if x.phase = .waiting && !x.skipped && x.waitsMet && !x.woken then
      modHms (modCmd d c fun x => { x with woken := true, readySince := d.now }) fun h =>
        { h with order := h.order.filter (· ≠ x.berth) ++ [x.berth] }
    else d) s

/-! ### Watch writes (R186, R306) -/

/-- WATCH_WRITE_FAIL: a watch write ends with a translation fault or an access error. -/
def watchWriteFail (d : Dev) (i : Nat) (r : MemResp) : Dev :=
  match d.blu.watches.find? fun w => w.sent && bolIdx w.handle = i with
  | some w =>
    if r = .ok || r = .poison then d
    else incSat (memErr (modBlu d fun b => { b with watches := b.watches.filter (· ≠ w) }) 5 r w.va) fBluWatchLost
  | none => d

def execWatchWriteFail (bol : BitVec 24) (r : MemResp) (s : State) : Host.Outcome State Fault Refusal :=
  onUnit 6 (fun d => watchWriteFail d bol.toNat r) s

end Sys2Proof.Machine
end

