-- ==== Sys2Proof/Machine/HostCmd.lean ====
section
/-!
DEFINITION. The host commands of the BLU (10 R185, R188, R189; 20 R348, R350), and records that come on chip (04 R63), which
host commands and window commands wait for.
-/

namespace Sys2Proof.Machine

/-- The operations of BLU_HCMD_CMD: signal operations, and the two overrides. -/
def hcmdSignal (op : Nat) : Bool := 1 ≤ op && op ≤ 5
def hcmdForce (op : Nat) : Bool := op = 8 || op = 9

/-- The reserved part of VALUE is not zero (R173). -/
def hcmdReserved (op : Nat) (v : W64) : Bool :=
  (op = 3 && 2 ^ 32 ≤ v.toNat) || ((op = 4 || op = 5) && v ≠ 0)

/-- A host signal (R185), after the slot checks. [log 30 DEDUCED unsafe] -/
def hostSignal (d : Dev) (op i : Nat) (v : W64) : Dev × Nat :=
  let r := bolAt d i
  if !r.hostSig then (d, 3)
  else if kindOfCode op ≠ some r.kind || hcmdReserved op v then (d, 2)
  else match sigOp r op v with
    | .ok w => (count (stepValue d i w 0xFF 0 0 0) 0 0 8, 0)
    | .no .backward => (countRefusal d (bolHandle i r.gen) .backward, 5)
    | .no _ => (countReject d i, 6)

/-- What an override leaves in VALUE, or the RESULT with which it ends (R188). -/
def forceValue (r : BolRec) (op : Nat) (v : W64) : Except Nat W64 :=
  if op = 9 then
    (if r.kind = .barrier then .ok (mkBarrier (bgenOf r.value + 1) (arrNextOf r.value) 0) else .error 2)
  else match r.kind with
    | .fence => .ok v
    | .counter => if capacityOf r < v.toNat then .error 6 else .ok v
    | .flag => .ok (BitVec.ofNat 64 (v.toNat % 2))
    | .barrier => .error 2

/-- An override, after the slot checks (R188, R348). [log 30 DEDUCED unsafe] -/
def hostForce (d : Dev) (op i : Nat) (v : W64) : Dev × Nat :=
  let r := bolAt d i
  if !admits d 2 1 || (ctxAt d r.ctxIdx).secrecy = .sealed then (countRefused d, 3)
  else match forceValue r op v with
    | .error e => (d, e)
    | .ok w => (incWrap (marker (stepValue d i w 0xFF 0 0 0) 1 (bolHandle i r.gen)) fBluOvrCnt, 0)

/-- A host command on a slot that is on chip: the slot checks come first (R185). -/
def hcmdStep (d : Dev) (op h : Nat) (v : W64) : Dev × Nat :=
  let i := bolIdx h
  if !bolOk d h then (if hcmdSignal op then incSat d fBluRejStale else d, 1)
  else if (bolAt d i).state = .abandoned then (if hcmdSignal op then incSat d fBluSigAbandoned else d, 1)
  else if hcmdSignal op then hostSignal d op i v else hostForce d op i v

/-- A host command ends: RESULT, SEQ and BUSY in one cycle, and BLU event 1 (R185, R189). -/
def hcmdEnd (d : Dev) (res : Nat) : Dev :=
  let d := modBlu d fun b => { b with hcmd := none }
  raiseEvent (setFld (incWrap (setFld d fBluHcmdResult res) fBluHcmdSeq) fBluHcmdBusy 0) 5 1

/-- The host command begun is carried out, unless the BLU is quiesced (R189) or its slot is not on chip.
[log 64 DESIGN CHOICE safe] -/
def hcmdTry (d : Dev) : Dev :=
  match d.blu.hcmd with
  | none => d
  | some (op, _, h, v) =>
    if flag d (fQuiesced 5) then d
    else if !hcmdSignal op && !hcmdForce op then hcmdEnd d 2
    else withRecs d (bolRecs d h) fun d => let (d, res) := hcmdStep d op h v; hcmdEnd d res

/-- A write of BLU_HCMD_CMD (R185): while BUSY it is discarded and LOST is set. -/
def hcmd (d : Dev) (op : Nat) (dap : Bool) : Dev :=
  if flag d fBluHcmdBusy then setFld d fBluHcmdLost 1
  else
    hcmdTry (modBlu (setFld d fBluHcmdBusy 1) fun b =>
      { b with hcmd := some (op, dap, fld d fBluHcmdSel, reg d 5 0x090) })

def execHcmdFenceSet (s : State) : Host.Outcome State Fault Refusal := onUnit 6 (fun d => hcmd d 1 false) s
def execHcmdCounterPut (s : State) : Host.Outcome State Fault Refusal := onUnit 6 (fun d => hcmd d 2 false) s
def execHcmdBarrierArrive (s : State) : Host.Outcome State Fault Refusal := onUnit 6 (fun d => hcmd d 3 false) s
def execHcmdFlagSet (s : State) : Host.Outcome State Fault Refusal := onUnit 6 (fun d => hcmd d 4 false) s
def execHcmdFlagClear (s : State) : Host.Outcome State Fault Refusal := onUnit 6 (fun d => hcmd d 5 false) s
/-- FORCE (R188). -/
def execForce (s : State) : Host.Outcome State Fault Refusal := onUnit 6 (fun d => hcmd d 8 false) s
/-- FORCE_BARRIER (R188). -/
def execForceBarrier (s : State) : Host.Outcome State Fault Refusal := onUnit 6 (fun d => hcmd d 9 false) s

/-! ### RECORD_FILL (R63, R265) -/

/-- Commands that wait for a record both of whose copies failed end MEMERR. -/
def recMemErr (r : RecId) (d : Dev) : Dev :=
  let d := winMemErr r d
  match d.blu.hcmd with
  | some (_, _, h, _) => if (bolRecs d h).contains r then hcmdEnd d 4 else d
  | none => d

end Sys2Proof.Machine
end

