-- ==== Sys2Proof/Machine/Hms.lean ====
section
/-!
DEFINITION. The Harbourmaster (12): the pick (R204 to R206), preemption and reclaim (R209 to R213), stall reports (R217) and
launch pacing (R218 to R225).
-/

namespace Sys2Proof.Machine

/-! ### The pick (R204 to R206) -/

/-- A command held by the MMG whose moorings are all RESIDENT now, or that can no longer be (R233, R236). -/
def heldReady (d : Dev) (c : Cmd) : Bool :=
  c.phase = .moorHeld && ctxLive d c.ctx && (c.lost || c.named.all fun m => (moorAt d m).st = .resident)

/-- Commands that can issue in this cycle (R204). -/
def ableCmds (d : Dev) : List Cmd := d.cmds.filter fun c => (ready d c || heldReady d c) && canIssue d c

/-- Partitions, without repeats, of some commands. -/
def partsOf (d : Dev) (cs : List Cmd) : List Nat := (cs.map (pidOf d)).eraseDups

def deficitAt (d : Dev) (level pid : Nat) : Int := at' 0 (at' [] d.hms.deficit level) pid

/-- PARTITION_ROUND (R206): each partition with ready work at the level adds WEIGHT × 4,096. [log 31 DEDUCED unsafe] -/
def newRound (d : Dev) (level : Nat) (ps : List Nat) : Dev :=
  ps.foldl (fun d p => addDeficit d level p (Int.ofNat (fld d (fHmsWeight p) * 4096))) d

/-- The next of some partitions in rising number from the last, wrapping (R206). [log 31 DEDUCED unsafe] -/
def nextPart (last : Nat) (ps : List Nat) : Option Nat :=
  match (List.range 16).find? fun i => ps.contains ((last + 1 + i) % 16) with
  | some i => some ((last + 1 + i) % 16)
  | none => none

/-- Within a partition, berths take turns: the berth whose turn is longest past; its oldest command goes (R204).
[log 31 DEDUCED unsafe] -/
def nextOfBerths (d : Dev) (cs : List Cmd) : Option Cmd :=
  match d.hms.order.find? fun b => cs.any fun c => c.berth = b with
  | some b => cs.find? fun c => c.berth = b
  | none => cs.head?

/-- A pick among the commands able to issue at one level. [log 31 DEDUCED unsafe] -/
def pickAt (d : Dev) (level : Nat) (cs : List Cmd) : Dev :=
  match cs.find? fun c => c.phase = .moorHeld with
  | some c => needBerth d c.berth (grantCmd d c.key none)
  | none =>
    let weighted := (partsOf d (d.cmds.filter fun c => ready d c && levelOf d c = level)).filter fun p =>
      fld d (fHmsWeight p) ≠ 0
    let d := if weighted.any fun p => 0 < deficitAt d level p then d else newRound d level weighted
    let pool := (partsOf d cs).filter fun p => weighted = [] || (weighted.contains p && 0 < deficitAt d level p)
    match nextPart (at' 15 d.hms.partTurn level) pool with
    | none => d
    | some p =>
      match nextOfBerths d (cs.filter fun c => pidOf d c = p) with
      | none => d
      | some c =>
        withRecs d (berthRecs d c.berth) fun d =>
          let d := modHms d fun h => { h with partTurn := h.partTurn.set level p
                                              order := h.order.filter (· ≠ c.berth) ++ [c.berth] }
          grantCmd d c.key none

/-- One pick (R204): the lowest effective level with a command able to issue. [log 31 DEDUCED unsafe] -/
def hmsPickOp (d : Dev) : Dev :=
  if !hmsMayPick d then d
  else
    let able := ableCmds d
    let level := minBy 4 (levelOf d) able
    pickAt d level (able.filter fun c => levelOf d c = level)

/-- HMS_PICK (R204). -/
def execHmsPick (s : State) : Host.Outcome State Fault Refusal := onUnit 5 hmsPickOp s

/-! ### Preemption (R209 to R211) -/

/-- Does a command run a collective routine? -/
def CmdOp.collective : CmdOp → Bool
  | .call r _ => 2 ≤ r && r ≤ 5
  | _ => false

/-- The level at which a command counts: an issued one keeps the level with which it issued, one that is held too (R202, R233). -/
def levelNow (d : Dev) (c : Cmd) : Nat := if c.phase = .issued || c.phase = .moorHeld then c.level else levelOf d c

/-- A level-L command that has waited AFTER_US without a tile launched (R209). [log 32 DEDUCED unsafe] -/
def waitsLong (d : Dev) (c : Cmd) : Bool :=
  c.spec.op.sequenced && (ready d c || heldReady d c || (c.phase = .issued && !c.launched)) && ctxLive d c.ctx &&
    c.readySince + us (fld d fHmsAfterUs) ≤ d.now

/-- Does an issued command hold what a preemptor lacks (R209): a sequencer, or places on a quay of its mask?
[log 32 DEDUCED unsafe] -/
def standsInWay (d : Dev) (c v : Cmd) : Bool :=
  let mask := if c.phase = .issued || c.phase = .preempted then c.mask else maskOf d c
  (c.phase ≠ .issued && (freeSeqs d).isEmpty && mask.any (online d) && d.seqs.any fun s => s.jobs.contains v.key) ||
    mask.any fun q => (quayAt d q).queue.any fun x => x.cmd = v.key

/-- Issued commands of a level numerically above a preemptor's. -/
def above (d : Dev) (c : Cmd) : List Cmd :=
  d.cmds.filter fun v => v.phase = .issued && v.spec.op.sequenced && levelNow d c < v.level

/-- Commands that may be victims of a preemptor, where one of the commands above it stands in its way: no collective routine, context not
DYING. [log 32 DEDUCED unsafe] -/
def victims (d : Dev) (c : Cmd) : List Cmd :=
  if (above d c).any (standsInWay d c) then (above d c).filter fun v => !v.spec.op.collective && ctxLive d v.ctx else []

/-- The victim: the highest level number, and of those the one issued most recently. [log 32 DEDUCED unsafe] -/
def pickVictim (vs : List Cmd) : Option Cmd :=
  vs.foldl (fun m v => match m with
    | none => some v
    | some x => if x.level < v.level || (x.level = v.level && x.issueNo < v.issueNo) then some v else some x) none

/-- Commands that a preemption of a berth covers: those issued to sequencers, collective routines with them (R210).
[log 32 DEDUCED unsafe] -/
def coveredCmds (d : Dev) (b : Nat) : List Cmd :=
  d.cmds.filter fun c => c.berth = b && c.phase = .issued && c.spec.op.sequenced

/-- A command's save slot is written: the header, whose bits the manual does not give, and the tile numbers (R210, R371). -/
def writeSave (d : Dev) (k : CmdId) : Dev :=
  withCmd d k fun c => match c.saveSlot with
    | some n =>
      let ts := (c.slices.flatMap (·.redo)).map (BitVec.ofNat 64)
      harbourWrite (harbourWrite d (offSave + n * 0x30000) []) (offSave + n * 0x30000 + 0x4000) ts
    | none => d

/-- PREEMPT_SAVE (R210 steps 1 and 2): the sequencers stop, and what they have not transferred goes into the save slot: the one that the
command still holds, or a new one. -/
def preemptSave (d : Dev) (k : CmdId) : Dev :=
  withCmd d k fun c =>
    let back := d.seqs.flatMap fun s => s.buf.filter fun x => x.cmd = k
    let d := back.foldl keepTile (stopSequencers d k)
    let slot := c.saveSlot.getD (((List.range 256).find? fun n => (tfind d.hms.save n).isNone).getD 0)
    let d := modHms d fun h => { h with save := tput h.save slot k }
    let d := modCtx d (ctxIdx c.ctx) fun r => { r with save := r.save.filter (· ≠ slot) ++ [slot] }
    modCmd d k fun c => { c with phase := .preempting, grant := [], saveSlot := some slot }

/-- Preemption of a berth (R210 steps 1 to 3). [log 32 DEDUCED unsafe] -/
def preemptBerth (d : Dev) (b : Nat) : Dev :=
  let ks := (coveredCmds d b).map (·.key)
  let qs := (List.range 56).filter fun q => ks.any fun k => quayHolds (quayAt d q) (.cmd k)
  let d := ks.foldl preemptSave d
  let d := qs.foldl (fun d q => requestDrain d q (.berth (BitVec.ofNat 22 b)) .preempt) d
  ks.foldl (fun d k => writeSave (modCmd d k fun c => { c with listed := c.slices.flatMap (·.redo) }) k) d

/-- PREEMPT_DECISION (R209). [log 32 DEDUCED unsafe] -/
def preemptDecisionOp (d : Dev) (k : CmdId) : Dev :=
  withCmd d k fun c =>
    if !flag d fHmsPreemptEn || !hmsMayPick d || !waitsLong d c then d
    else match pickVictim (victims d c) with
      | none => d
      | some v =>
        let n := ((coveredCmds d v.berth).filter fun x => x.saveSlot.isNone).length
        if 256 < d.hms.save.length + n || 64 < (ctxAt d (ctxIdx v.ctx)).save.length + n then
          modCmd (incSat d fHmsPreSkipped) k fun c => { c with readySince := d.now }
        else preemptBerth d v.berth

def execPreemptDecision (c : CmdId) (s : State) : Host.Outcome State Fault Refusal :=
  onUnit 5 (fun d => preemptDecisionOp d c) s

/-- Is a drain of a berth pending at some quay? -/
def berthDrains (d : Dev) (b : Nat) (by_ : DrainBy) : Bool :=
  d.quays.any fun q => q.drains.any fun x => x = (.berth (BitVec.ofNat 22 b), by_)

/-- PREEMPT_COMPLETE (R210 steps 4 and 5): every quay has reported its drain; the command waits at the head of its berth. -/
def preemptCompleteOp (d : Dev) (k : CmdId) : Dev :=
  withCmd d k fun c =>
    if c.phase ≠ .preempting || berthDrains d c.berth .preempt || tilesOut d k ≠ 0 then d
    else
      let d := modCmd d k fun c =>
        { c with phase := .preempted, readySince := d.now, launched := false, listed := c.slices.flatMap (·.redo) }
      if d.cmds.any fun x => x.berth = c.berth && x.phase = .preempting then d else count (incSat d fHmsPreDone) 0 0 6

def execPreemptComplete (c : CmdId) (s : State) : Host.Outcome State Fault Refusal :=
  onUnit 5 (fun d => preemptCompleteOp d c) s

/-! ### Reclaim (R213) -/

/-- Has an issued command tiles still to send? -/
def sends (c : Cmd) : Bool := c.phase = .issued && c.status.isNone && (!c.launched || c.slices.any fun s => s.next < s.stop || !s.redo.isEmpty)

/-- Does a level-0 command that is ready, or issued with tiles still to send, want a quay? [log 32 DEDUCED unsafe] -/
def wantedByZero (d : Dev) (q : Nat) : Bool :=
  d.cmds.any fun c => (ready d c || sends c) && levelNow d c = 0 &&
    (if c.phase ≠ .waiting then c.mask else if c.spec.op.sequenced then maskOf d c else []).contains q

/-- Berths with lent work on a quay: work of levels 1 to 3 on a reserved quay (R203, R226). -/
def lentBerths (d : Dev) (q : Nat) : List Nat :=
  ((d.cmds.filter fun c => c.level ≠ 0 && quayHolds (quayAt d q) (.cmd c.key)).map (·.berth)).eraseDups

/-- RECLAIM (R213): a berth-scope drain for each berth with lent work on the quay. -/
def reclaimOp (d : Dev) (q : Nat) : Dev :=
  if !hmsMayPick d || !fbit d fHmsRsvQuays q || !wantedByZero d q then d
  else (lentBerths d q).foldl (fun d b =>
    let s : DrainScope := .berth (BitVec.ofNat 22 b)
    if (quayAt d q).drains.any fun x => x = (s, .reclaim) then d else requestDrain d q s .reclaim) d

def execReclaim (quay : BitVec 6) (s : State) : Host.Outcome State Fault Refusal :=
  if 56 ≤ quay.toNat then reservedOp else onUnit 5 (fun d => reclaimOp d quay.toNat) s

/-! ### Stalls (R217) -/

/-- Stall kind of a berth, from its oldest incomplete command; one that the MMG holds is RUNNING (R233).
[log 33 DEDUCED unsafe] -/
def stallKind (d : Dev) (c : Cmd) : Nat :=
  let early := c.phase = .waiting
  let noQuay := c.spec.op.sequenced && c.status.isNone && !(if early then maskOf d c else c.mask).any (online d)
  if early && !c.waitsMet then 2
  else if d.lev.pools.any fun p => p.2.waiters.contains c.key then 3
  else if c.phase = .moorHeld then 4
  else if noQuay then 5
  else if early || c.phase = .preempted then 1
  else 4

/-- A report: HMS_STALL_LAST, SEQ and the event. -/
def reportStall (d : Dev) (kind handle ev : Nat) : Dev :=
  raiseEvent (incWrap (setFld (setFld d fHmsStallKind kind) fHmsStallHandle handle) fHmsStallSeq) 4 ev

/-- [log 33 DEDUCED unsafe] -/
def stallTime (d : Dev) : Nat := fld d fHmsStallMs * 1000000

/-- A stalled berth is reported once per episode. [log 33 DEDUCED unsafe] -/
def stallBerth (d : Dev) (b : Nat) : Dev :=
  match d.cmds.find? fun c => c.berth = b && c.phase ≠ .complete with
  | none => d
  | some c =>
    let st := tget {} d.hms.stallB b
    if !flag d fHmsBerthEn || st.reported || d.now < max st.since d.hms.stallFrom + stallTime d then d
    else
      let d := modHms d fun h => { h with stallB := tput h.stallB b { st with reported := true } }
      reportStall d (stallKind d c) (berthHandle b (berthAt d b).gen) 0

/-- A stalled quay is reported once per episode. [log 33 DEDUCED unsafe] -/
def stallQuay (d : Dev) (q : Nat) : Dev :=
  let st := tget {} d.hms.stallQ q
  if !flag d fHmsQuayEn || (quayAt d q).out.isEmpty || st.reported || d.now < max st.since d.hms.stallFrom + stallTime d then d
  else reportStall (modHms d fun h => { h with stallQ := tput h.stallQ q { st with reported := true } }) 6 q 1

/-- STALL_REPORT (R217). -/
def execStallReport (w : StallWho) (s : State) : Host.Outcome State Fault Refusal :=
  match w with
  | .berth b => onUnit 5 (fun d => stallBerth d b.toNat) s
  | .quay q => if 56 ≤ q.toNat then reservedOp else onUnit 5 (fun d => stallQuay d q.toNat) s

/-! ### Launch pacing (R218 to R225) -/

/-- The limits in 0.8 A, so that the fractions of R222 are exact: I_SUS, I_PEAK and I_lim at a thermal level. -/
def sus8 (d : Dev) (therm : Nat) : Nat := (if therm = 1 then 7 else 8) * fld d fHmsISus

def lim8 (d : Dev) (therm st : Nat) : Nat :=
  if therm = 2 then 6 * fld d fHmsISus
  else (if therm = 1 then 7 else 8) * (if st = 1 then fld d fHmsISus else fld d fHmsIPeak)

/-- B in 1/8000 of its unit. -/
def budget (d : Dev) : Nat := fld d fHmsBudget * 8000 + d.hms.frac

def setBudget (d : Dev) (n : Nat) : Dev := modHms (setFld d fHmsBudget (n / 8000)) fun h => { h with frac := n % 8000 }

/-- B after a sample of `i` at `ticks` tide ticks after the previous one (R218). [log 34 DEDUCED unsafe] -/
def nextBudget (d : Dev) (therm i ticks : Nat) : Nat :=
  min (bMax d * 8000) (budget d + sus8 d therm * ticks - 8 * i * ticks)

/-- The pacing state with B at `b1` (R218, R222); with a B_max of 0 both limits are the same. [log 34 DEDUCED unsafe] -/
def nextPaceState (d : Dev) (therm b1 : Nat) : Nat :=
  let st := fld d fHmsPaceState
  if therm = 2 then 1
  else if st = 1 then (if bMax d * 8000 ≤ 2 * b1 then 0 else 1)
  else if bMax d ≠ 0 && b1 = 0 then 1 else 0

/-- λ after a sample (R219, R222). [log 34 DEDUCED unsafe] -/
def nextLambda (d : Dev) (therm st i : Nat) : Nat :=
  let l := fld d fHmsLambda
  let lo := fld d fHmsLambdaMin
  if therm = 3 then lo
  else if lim8 d therm st < 8 * i || fld d fHmsIPeak < i then max lo (l - fld d fHmsStepDn)
  else if 8 * i + 80 * fld d fHmsHyst < lim8 d therm st then min 256 (max lo l + fld d fHmsStepUp)
  else max lo l

/-- A_q,K (R220). [log 34 DEDUCED unsafe] -/
def stationLimit (lambda n q : Nat) : Nat := max 1 ((lambda * n + 8 * q) / 256)

/-- The limits go to the compute quays; reserved quays keep their floor, except under the critical level (R220). -/
def sendLimits (d : Dev) : Dev :=
  (List.range 32).foldl (fun d q =>
    let l := fld d fHmsLambda
    let l := if fbit d fHmsRsvQuays q && fld d fHmsTherm ≠ 3 then max l (fld d fHmsRsvLambdaMin) else l
    modQuay d q fun u => { u with limit := [stationLimit l 16 q, stationLimit l 8 q, stationLimit l 8 q] }) d

/-- HMS event 2 as pacing moves from BURST to SUSTAIN with B at 0, event 4 as a hot or critical level takes hold.
[log 34 DEDUCED unsafe] -/
def paceEvents (d : Dev) (st0 st1 t0 t1 : Nat) : Dev :=
  let d := if st0 ≠ 1 && st1 = 1 && t1 ≠ 2 then raiseEvent d 4 2 else d
  if t0 ≠ t1 && 2 ≤ t1 then raiseEvent d 4 4 else d

/-- A sample of core current (R218 to R222). [log 34 DEDUCED unsafe] -/
def currentSample (d : Dev) (i : Nat) : Dev :=
  let ticks := tideW d - d.hms.lastSample
  let t0 := fld d fHmsTherm
  let therm := d.hms.therm
  let d := setFld (setFld d fHmsCurrent i) fHmsTherm therm
  let d := modHms d fun h => { h with lastSample := tideW d }
  if !flag d fHmsPaceEn then
    paceEvents (sendLimits (setFld (setFld d fHmsLambda 256) fHmsPaceState 2)) 1 1 t0 therm
  else
    let b1 := nextBudget d therm i ticks
    let st0 := fld d fHmsPaceState
    let st1 := nextPaceState d therm b1
    let l := nextLambda d therm st1 i
    let d := setFld (setFld (setBudget d b1) fHmsPaceState st1) fHmsLambda l
    paceEvents (sendLimits d) st0 st1 t0 therm

/-- CURRENT_SAMPLE (R218): a sample presented to the HMS in reset waits at its crossing (R24). -/
def execCurrentSample (i : BitVec 16) (s : State) : Host.Outcome State Fault Refusal :=
  onDev (fun d =>
    if inReset d 5 then modHms d fun h => { h with held := h.held ++ [i.toNat] } else currentSample (wakeUnit d 5) i.toNat) s

/-- TELEMETRY_LOST (R223): 4 µs without a sample. [log 34 DEDUCED unsafe] -/
def telemetryLostOp (d : Dev) : Dev :=
  if tideW d < d.hms.lastSample + 4000 then d
  else currentSample (raiseEvent (incSat d fHmsTelemLoss) 4 3) (fld d fHmsIPeak)

def execTelemetryLost (s : State) : Host.Outcome State Fault Refusal := onUnit 5 telemetryLostOp s

/-- THERMAL_CHANGE (R222): the level acts from the next sample. [log 34 DEDUCED unsafe] -/
def execThermalChange (level : BitVec 2) (s : State) : Host.Outcome State Fault Refusal :=
  onDev (fun d => modHms d fun h => { h with therm := level.toNat }) s

/-- A write of HMS_PACE_LIM (R225): ignored with I_SUS above I_PEAK; a lower B_max clamps B. [log 34 DEDUCED unsafe] -/
def paceLimit (d : Dev) (v : W64) : Dev :=
  let sus := getBits v 15 0
  let peak := getBits v 31 16
  if peak < sus then d
  else
    let d := setFld (setFld d fHmsISus sus) fHmsIPeak peak
    if bMax d * 8000 < budget d then setBudget d (bMax d * 8000) else d

/-- PACE_LIMIT_WRITE (R225). -/
def execPaceLimitWrite (v : BitVec 64) (s : State) : Host.Outcome State Fault Refusal := onUnit 5 (fun d => paceLimit d v) s

end Sys2Proof.Machine
end

