-- ==== Sys2Proof/Machine/Native.lean ====
section
/-!
DEFINITION. What the sequencers run (07 R122 to R127): their control stores and dispatch tables, and the reads and updates that native words
make of the state held for their command, with the three-cycle window. The stores are those of the image the SCU wrote into them (R123); no
other definition reads or writes them.
-/

namespace Sys2Proof.Machine

/-! ### Control store and dispatch table (R122) -/

/-- Odd parity bit of the low `n` bits of a number. -/
def oddParity (n v : Nat) : Nat := ((List.range n).foldl (fun k i => k + v / 2 ^ i % 2) 1) % 2

/-- The parity bits of a control-store word, one for each 64-bit third. -/
def wordParity (w : BitVec 192) : Nat :=
  (List.range 3).foldl (fun k i => k + oddParity 64 (w.toNat / 2 ^ (64 * i) % 2 ^ 64) * 2 ^ i) 0

/-- An entry of the control store, 192 bits and their parity above them, as an image has it. [log 38 DESIGN CHOICE safe] -/
def storeEntry (img : BitVec 256) (a : BitVec 12) : BitVec 195 :=
  let w := Config.storeWord img a
  BitVec.ofNat 195 (wordParity w * 2 ^ 192 + w.toNat)

/-- Where the dispatch table sends a native opcode: to its routine, or to the trap word where the image does not define it.
[log 38 DESIGN CHOICE safe] -/
def dispatchAddr (img : BitVec 256) (op : BitVec 8) : BitVec 12 := (Config.dispatchTo img op).getD (Config.trapAddr img)

/-- An entry of the dispatch table: an address with its parity bit above it. -/
def dispatchEntry (img : BitVec 256) (op : BitVec 8) : BitVec 13 :=
  let a := dispatchAddr img op
  BitVec.ofNat 13 (oddParity 12 a.toNat * 2 ^ 12 + a.toNat)

/-- Does an entry that is read pass its parity (R124)? -/
def storeOk (e : BitVec 195) : Bool := wordParity (e.setWidth 192) = e.toNat / 2 ^ 192
def dispatchOk (e : BitVec 13) : Bool := oddParity 12 (e.toNat % 2 ^ 12) = e.toNat / 2 ^ 12

/-- The next control-store address: the sequencing field of the current word, or, where a native word's routine ends or none runs, the
dispatch of the next native word's opcode. [log 38 DESIGN CHOICE safe] -/
def nextAddr (img : BitVec 256) (cur : Option (BitVec 12)) (op : BitVec 8) : BitVec 12 :=
  match cur with
  | some a => (Config.sequencing (Config.storeWord img a)).getD (dispatchAddr img op)
  | none => dispatchAddr img op

/-- The SCU writes a sequencer's stores from an image (R123). -/
def loadStores (d : Dev) (s : Nat) (img : BitVec 256) : Dev := modSeq d s fun q => { q with img := some img, upc := none }

/-! ### The three-cycle window (R125, R127) -/

/-- What a read stamped `t` returns: the named state with every update of the sequencer stamped t - 3 or less and none stamped t - 2 or
more. -/
def windowRead (first : W64) (ups : List (Nat × W64)) (t : Nat) : W64 :=
  (((ups.filter fun u => u.1 + 3 ≤ t).getLast?).map (·.2)).getD first

/-- The stamp at which a read made at `t` returns its value: at once, or in checked mode when the last update inside the window is 3 cycles
old. -/
def readStamp (checked : Bool) (ups : List (Nat × W64)) (t : Nat) : Nat :=
  if checked then ups.foldl (fun t u => if t < u.1 + 3 then u.1 + 3 else t) t else t

/-- The entry that serves a command: the content hash of its body, and whether it is checked (R127). -/
def nativeEntry (d : Dev) (c : Cmd) : Option (Nat × Bool) :=
  match d.mfu.mans.find? fun m => m.berthIdx = c.berth && m.headIdx = c.headIdx with
  | some m => (d.plx.entries.find? fun e => some e.num = m.entry).map fun e => (m.hash, e.checked)
  | none => none

/-- A read caught in checked mode: counted, its key and native-word offset recorded, TSQ event 1 (R127, R132). -/
def staleRead (d : Dev) (s h off : Nat) : Dev :=
  raiseEvent (setFld (setFld (incSat d (fTsqStale s)) (fTsqStaleKey s) (h % 2 ^ 48)) (fTsqStaleOff s) off) (0x20 + s) 1

/-- One native word, at offset `off` of the entry with content hash `h`: the sequencer's issue cycle stamps its read or update (R125, R127);
at most one word a cycle updates, and the last four updates are all that a read can tell apart. [log 38 DESIGN CHOICE safe] -/
def nativeWord (d : Dev) (s h off : Nat) (checked : Bool) : Dev :=
  let q := seqAt d s
  let op := Config.nativeOpcode h off
  let d := modSeq d s fun q => { q with upc := q.img.map fun m => nextAddr m q.upc op, cycle := q.cycle + 1 }
  match Config.nativeAct h off with
  | .other => d
  | .update => modSeq d s fun x => { x with ups := (q.ups.drop (q.ups.length - 3)) ++ [(q.cycle, Config.nativeValue h off)] }
  | .read =>
    let t := readStamp checked q.ups q.cycle
    let d := modSeq d s fun x => { x with cycle := t + 1, got := windowRead (Config.nativeFirst h off) q.ups t }
    if t = q.cycle then d else staleRead d s h off

/-- The native word that issues tile `n` of a command; a routine of the catalogue is no word of the entry.
[log 38 DESIGN CHOICE safe] -/
def nativeTile (d : Dev) (s : Nat) (c : Cmd) (n : Nat) : Dev :=
  match c.spec.op, nativeEntry d c with
  | .call .., _ | _, none => d
  | _, some (h, checked) => nativeWord d s h (Config.nativeOffset h c.spec.lineNo n).toNat checked

end Sys2Proof.Machine
end

