-- ==== Sys2Proof/Machine/Operands.lean ====
section
/-!
DEFINITION. The addresses of tiles (08 R133 to R136, R141 to R143; 06 R108): points of an iteration space, operand addresses,
index elements, and the ranges of DMA tiles.
-/

namespace Sys2Proof.Machine

/-- 64-bit two's-complement arithmetic (R134). -/
def wrap64 (x : Int) : Nat := (x % 2 ^ 64).toNat

/-- The loop indices of a linear number, level 0 fastest (R133). -/
def loopIdx : List Nat → Nat → List Nat
  | [], _ => []
  | t :: ts, n => n % t :: loopIdx ts (n / t)

/-- The point (p, i0, i1, ...) of tile `n` (R133). -/
def pointOf (pieces : Nat) (trips : List Nat) (n : Nat) : Nat × List Nat := (n % pieces, loopIdx trips (n / pieces))

/-- Bytes of an element (R107, ELEM). -/
def elemBytes (o : Opnd) : Nat := 2 ^ o.elem

/-- off_p (R136): p × S / P toward zero, then toward zero to a multiple of the element size. -/
def pieceOff (p pieces : Nat) (s : Int) (elem : Nat) : Int :=
  Int.tdiv (Int.tdiv (Int.ofNat p * s) (Int.ofNat pieces)) (Int.ofNat elem) * Int.ofNat elem

/-- The stride of a level. -/
def strideAt (o : Opnd) (k : Nat) : Int := o.strides.getD k 0

/-- Σ ik × STRIDEk from level `k` on (R108). -/
def strideSum (o : Opnd) : Nat → List Nat → Int
  | _, [] => 0
  | k, i :: is => Int.ofNat i * strideAt o k + strideSum o (k + 1) is

/-- The address of operand `j` at a point before resolution of its mooring (R108, R134, R136); `idx` is the index element.
[log 43 DEDUCED unsafe] -/
def opndAddr (l : LaunchOp) (j : Nat) (o : Opnd) (p pieces : Nat) (is : List Nat) (idx : Nat) : Nat :=
  let gathered := j = l.idxOpnd
  let level0 := if gathered then Int.ofNat (idx * l.idxScale) else Int.ofNat (is.getD 0 0) * strideAt o 0
  let s := if gathered && l.splitLevel = 0 then Int.ofNat l.idxScale else strideAt o l.splitLevel
  wrap64 (Int.ofNat o.base + level0 + strideSum o 1 (is.drop 1) + pieceOff p pieces s (elemBytes o))

/-- Where the index element of a point lies (R135). [log 43 DEDUCED unsafe] -/
def idxAddr (l : LaunchOp) (is : List Nat) : Nat :=
  (l.idxVa + 4 * is.getD 0 0 + l.idxRow * is.getD 1 0) % 2 ^ 64

/-- Is there a gather? -/
def LaunchOp.gathers (l : LaunchOp) : Bool := l.idxOpnd < l.opnds.length

/-- The result lies in range and is a multiple of the element size (R134). -/
def addrOk (o : Opnd) (a : Nat) : Bool := a < 2 ^ 57 && a % elemBytes o = 0

/-- The 64-byte line of an address. -/
def lineOf (a : Nat) : Nat := a / 64 * 64

/-- The 32-bit element at an address of a line. -/
def elemOf (line : Line) (a : Nat) : Nat := (line.toNat / 2 ^ (a % 64 * 8)) % 2 ^ 32

/-- A DMA tile: source (or pattern), destination, length. -/
structure DmaTile where
  src : Nat
  dst : Nat
  len : Nat
  deriving DecidableEq, Repr

/-- Does a range lie wholly below 2^57 (R143)? [log 43 DEDUCED unsafe] -/
def rangeOk (a len : Nat) : Bool := a + len ≤ 2 ^ 57

/-- Chunk `m` of `len` bytes cut at 2^c: its offset and length (R143). -/
def chunkOf (len c m : Nat) : Nat × Nat := (m * 2 ^ c, min (2 ^ c) (len - m * 2 ^ c))

/-- Row and chunk of GATHER_ROWS tile `n` for rows of `len` bytes (R143). -/
def rowChunk (len c n : Nat) : Nat × Nat := (n / ceilDiv len (2 ^ c), n % ceilDiv len (2 ^ c))

/-- Where the row index of GATHER_ROWS row `r` lies (R143). -/
def rowIdxAddr (args : List W64) (r : Nat) : Nat := (argN args 2 + 4 * r) % 2 ^ 64

end Sys2Proof.Machine
end

