-- ==== Sys2Proof/Machine/Tiles.lean ====
section
/-!
DEFINITION. Tile sequencing (08 R133 to R139, R141 to R144; 07 R124, R127): the issue of launching commands, the forming of
tiles, index lines, control-store errors.
-/

namespace Sys2Proof.Machine

/-! ### Issue -/

def Slice.isOpen (s : Slice) : Bool := s.next < s.stop || !s.redo.isEmpty

/-- Does a sequencer still work on a command: a slice of it that has not ended, or descriptors in its buffer? -/
def worksOn (d : Dev) (s : Nat) (k : CmdId) : Bool :=
  (match cmdAt d k with | some c => c.slices.any fun x => x.seq = s && x.isOpen | none => false) ||
    (seqAt d s).buf.any fun x => x.cmd = k

/-- Sequencers whose slices of a command have ended are free again, and drop their index lines (R135). -/
def trimJobs (d : Dev) (k : CmdId) : Dev :=
  (List.range 16).foldl (fun d s =>
    if (seqAt d s).jobs.contains k && !worksOn d s k then
      modSeq d s fun q => { q.dropLines with jobs := q.jobs.filter (· ≠ k) }
    else d) d

/-- An issued command not yet expanded, with its berth's records on chip (R63). -/
def atIssue (d : Dev) (k : CmdId) (f : Cmd → Dev) : Dev :=
  withCmd d k fun c => if c.phase = .issued && c.step = 0 && c.status.isNone then needBerth d c.berth (f c) else d

/-- A fault found at issue: nothing is launched (R147). -/
def issueFault (d : Dev) (k : CmdId) (cause unit argA : Nat) : Dev :=
  faultCmd d k { cause := cause, unit := unit, argA := argA }

/-- T tiles are dealt to the granted sequencers (R133, R138): nothing for T = 0, TILE_COUNT from 2^48 on. -/
def dealTiles (d : Dev) (c : Cmd) (t : Nat) : Dev :=
  if 2 ^ 48 ≤ t then issueFault d c.key 0x20 8 0
  else if t = 0 then finishOk (stopSequencers (modCmd d c.key fun c => { c with step := 1 }) c.key) c.key
  else
    let sl := mkSlices c.grant t
    let d := modCmd d c.key fun c => { c with step := 1, tileCount := t, slices := sl }
    trimJobs (sl.foldl (fun d s => count d 1 s.seq 4) d) c.key

/-- LAUNCH_TILES (R133, R136; 06 R107, R108; 12 R203; 13 R232). A clamped piece count is counted at the first sequencer of the grant.
[log 43 DEDUCED unsafe] -/
def issueLaunch (d : Dev) (c : Cmd) (l : LaunchOp) : Dev :=
  match faultsNamed d c.level c.spec.op with
  | some 0x50 => issueFault d c.key 0x50 5 l.station
  | some f => issueFault d c.key f 8 0
  | none =>
    match c.unheld with
    | some i => issueFault d c.key 0x60 11 i
    | none =>
      match tripsOf d c l with
      | none => issueFault d c.key 0x24 8 0
      | some ts =>
        let raw := rawPieces l.tileNs c.tcapUs
        let p := min raw 256
        let d := if 256 < raw then count d 1 (c.grant.headD 0) 3 else d
        dealTiles (modCmd d c.key fun c => { c with trips := ts, pieces := p }) c (p * ts.foldl (· * ·) 1)

def execLaunchTiles (c : CmdId) (s : State) : Host.Outcome State Fault Refusal :=
  onUnit 8 (fun d => atIssue d c fun x => match x.spec.op with
    | .launch l => issueLaunch d x l
    | _ => d) s

/-- A DMA command is dealt with the smallest CHUNK_LOG2 of its mask at issue (R143). -/
def issueDma (d : Dev) (c : Cmd) : Dev :=
  let ch := chunkLog2 d c.mask
  dealTiles (modCmd d c.key fun c => { c with chunkLog2 := ch }) c (tileCountOf d c c.mask c.tcapUs)

/-- COPY (R143). -/
def execCopy (c : CmdId) (s : State) : Host.Outcome State Fault Refusal :=
  onUnit 8 (fun d => atIssue d c fun x => match x.spec.op with
    | .copy .. => issueDma d x
    | _ => d) s

/-- FILL (R130, R143). -/
def execFill (c : CmdId) (s : State) : Host.Outcome State Fault Refusal :=
  onUnit 8 (fun d => atIssue d c fun x => match x.spec.op with
    | .call 1 _ => issueDma d x
    | _ => d) s

/-- GATHER_ROWS (R130, R143). -/
def execGatherRows (c : CmdId) (s : State) : Host.Outcome State Fault Refusal :=
  onUnit 8 (fun d => atIssue d c fun x => match x.spec.op with
    | .call 6 _ => issueDma d x
    | _ => d) s

/-! ### Descriptors -/

/-- Word 0 of a descriptor (R141 to R144), without the station, which the quay writes. -/
def descW0 (dkind skind station : Nat) (split replayed ext : Bool) (nopnd piece tag : Nat) : W64 :=
  mkW [(61, dkind), (59, skind), (49, station), (47, bit01 split), (46, bit01 replayed), (45, bit01 ext), (40, nopnd),
       (32, piece), (0, tag)]

/-- An operand slot of a descriptor. -/
def opndWord (os : List (Opnd × Nat)) (i : Nat) : W64 :=
  match os[i]? with
  | some (o, a) => mkW [(63, bit01 o.dir), (61, o.hint), (0, a)]
  | none => 0

def sendOf (os : List (Opnd × Nat)) (i : Nat) : Nat :=
  match os[i]? with | some (o, _) => o.send | none => 0xFF

/-- What the forming of a tile comes to. -/
inductive FormRes where
  | ok (words : List W64) (ext : Option (List W64)) (addr : Nat)
  | fault (cause addr slot : Nat)
  | need (line : Nat)
  deriving DecidableEq, Repr

/-- The 32-bit index element at an address, from the lines a sequencer holds; the missing line where one is not held. -/
def idxElem (q : Seqr) (a : Nat) : Nat ⊕ Nat :=
  let at_ := fun (x : Nat) => (q.lines.find? fun l => l.1 = lineOf x).map fun l => l.2.toNat / 2 ^ (x % 64 * 8) % 256
  match at_ a, at_ (a + 1), at_ (a + 2), at_ (a + 3) with
  | some b0, some b1, some b2, some b3 => .inl (b0 + b1 * 256 + b2 * 65536 + b3 * 16777216)
  | none, _, _, _ => .inr (lineOf a)
  | _, _, _, _ => .inr (lineOf (a + 3))

/-- Operand addresses of a tile in slot order, or the first check that fails (R134). [log 43 DEDUCED unsafe] -/
def formOpnds (d : Dev) (c : Cmd) (l : LaunchOp) (p : Nat) (is : List Nat) (idx : Nat) :
    Nat → List Opnd → Except (Nat × Nat × Nat) (List (Opnd × Nat))
  | _, [] => .ok []
  | j, o :: os =>
    let a := opndAddr l j o p c.pieces is idx
    if !addrOk o a then .error (0x21, a, j)
    else
      let m := c.moors.find? fun m => (moorAt d m.1).key = o.moorKey
      let base := match m with | some m => m.2 | none => 0
      if o.moorKey ≠ 0 && (match m with | some m => (moorAt d m.1).size ≤ a | none => true) then .error (0x22, a, j)
      else
        let here := if o.moorKey = 0 then a else base + a
        match formOpnds d c l p is idx (j + 1) os with
        | .ok r => .ok ((o, here) :: r)
        | .error e => .error e

/-- The descriptors of a LAUNCH_TILES tile (R141, R142). -/
def launchWords (x : CtxRec) (c : Cmd) (l : LaunchOp) (p : Nat) (os : List (Opnd × Nat)) : List W64 × Option (List W64) :=
  let n := l.opnds.length
  let st := if l.named then l.station else 0
  let ext := 4 ≤ n
  let main :=
    [descW0 1 l.skind st (1 < c.pieces) c.replayed ext n p c.spec.tag,
     mkW [(52, x.keyid), (32, x.asid), (24, sendOf os 0), (16, sendOf os 1), (8, sendOf os 2), (0, c.pieces - 1)],
     BitVec.ofNat 64 l.kernelVa, l.karg0, l.karg1, opndWord os 0, opndWord os 1, opndWord os 2]
  let more :=
    [descW0 2 l.skind st false c.replayed false n p c.spec.tag,
     mkW [(56, sendOf os 3), (48, sendOf os 4), (40, sendOf os 5), (32, sendOf os 6), (24, sendOf os 7)],
     opndWord os 3, opndWord os 4, opndWord os 5, opndWord os 6, opndWord os 7, 0]
  (main, if ext then some more else none)

/-- Tile `n` of a LAUNCH_TILES (R134). -/
def formLaunch (d : Dev) (q : Seqr) (c : Cmd) (l : LaunchOp) (n : Nat) : FormRes :=
  let (p, is) := pointOf c.pieces c.trips n
  let go := fun (idx : Nat) =>
    match formOpnds d c l p is idx 0 l.opnds with
    | .error (cause, a, j) => FormRes.fault cause a j
    | .ok os =>
      let ws := launchWords (ctxAt d (ctxIdx c.ctx)) c l p os
      .ok ws.1 ws.2 l.kernelVa
  if !l.gathers then go 0
  else
    let a := idxAddr l is
    if 2 ^ 57 ≤ a then .fault 0x21 a l.idxOpnd
    else match idxElem q a with
      | .inl v => go v
      | .inr m => .need m

/-- A DMA descriptor (R143). -/
def dmaWords (x : CtxRec) (c : Cmd) (dop srcHint dstHint : Nat) (src : W64) (dst len n : Nat) : List W64 :=
  [descW0 3 0 0 false c.replayed false 0 0 c.spec.tag,
   mkW [(52, x.keyid), (32, x.asid), (28, dop), (26, srcHint), (24, dstHint)], src, mkW [(0, dst)], mkW [(0, len)],
   mkW [(0, n % 2 ^ 32)], 0, 0]

/-- A DMA tile with a source (R143). -/
def formCopy (x : CtxRec) (c : Cmd) (srcHint dstHint src dst len n : Nat) : FormRes :=
  if !rangeOk src len then .fault 0x21 src 0
  else if !rangeOk dst len then .fault 0x21 dst 0
  else .ok (dmaWords x c 0 srcHint dstHint (BitVec.ofNat 64 src) dst len n) none dst

/-- Tile `n` of a COPY, a FILL or a GATHER_ROWS (R143). [log 43 DEDUCED unsafe] -/
def formDma (d : Dev) (q : Seqr) (c : Cmd) (n : Nat) : FormRes :=
  let x := ctxAt d (ctxIdx c.ctx)
  match c.spec.op with
  | .copy src dst len dh sh =>
    let (o, m) := chunkOf len c.chunkLog2 n
    formCopy x c sh dh ((src + o) % 2 ^ 64) ((dst + o) % 2 ^ 64) m n
  | .call 1 a =>
    let (o, m) := chunkOf (argN a 1) c.chunkLog2 n
    let dst := (argN a 0 + o) % 2 ^ 64
    if !rangeOk dst m then .fault 0x21 dst 0 else .ok (dmaWords x c 1 0 0 (a.getD 2 0) dst m n) none dst
  | .call 6 a =>
    let (r, m) := rowChunk (argN a 4) c.chunkLog2 n
    let (o, len) := chunkOf (argN a 4) c.chunkLog2 m
    let ia := rowIdxAddr a r
    if 2 ^ 57 ≤ ia then .fault 0x21 ia 0
    else match idxElem q ia with
      | .inl idx => formCopy x c 0 0 ((argN a 0 + idx * argN a 4 + o) % 2 ^ 64) ((argN a 1 + r * argN a 4 + o) % 2 ^ 64) len n
      | .inr m => .need m
  | _ => .fault 0x21 0 0

/-! ### Collective steps (R144; 16 R293) -/

def Member0 : Member := ⟨0, 0, 0, 0⟩

/-- The member after this node's on the ring. [log 36 DEDUCED unsafe] -/
def nextMember (g : GroupTable) : Member := g.members.getD ((g.self.toNat + 1) % max 1 g.members.length) Member0

/-- Ring steps of a routine (R293). [log 36 DEDUCED unsafe] -/
def ringSteps (r : Nat) (g : GroupTable) : Nat := if r = 2 then 2 * (g.members.length - 1) else g.members.length - 1

/-- Ring step of a collective, from the stage counter: three stages a step, from 1 on. [log 36 DEDUCED unsafe] -/
def ringStep (c : Cmd) : Nat := (c.step - 1) / 3

/-- MODE of a step (R293): reduce for REDUCE_SCATTER and for the first half of ALL_REDUCE, write otherwise.
[log 36 DEDUCED unsafe] -/
def stepMode (r j members : Nat) : Nat := if r = 4 || (r = 2 && j < members - 1) then 1 else 0

/-- OP and ETYPE of a routine (R130): ALL_REDUCE in ARG2, REDUCE_SCATTER in ARG4, none elsewhere. -/
def reduceArgs (r : Nat) (a : List W64) : Nat × Nat :=
  if r = 2 then (argN a 2 / 256 % 256, argN a 2 % 256) else if r = 4 then (argN a 4 / 256 % 256, argN a 4 % 256) else (0, 0)

/-- The COLLECTIVE descriptor of a step (R293). [log 36 DEDUCED unsafe] -/
def formCollective (d : Dev) (c : Cmd) (r : Nat) (a : List W64) (g : GroupTable) : FormRes :=
  let x := ctxAt d (ctxIdx c.ctx)
  let j := ringStep c
  let (src, dst, len) := Config.collectiveChunk r a g.members.length g.self.toNat j
  let (op, ety) := reduceArgs r a
  .ok [descW0 4 0 0 false c.replayed false 0 0 c.spec.tag, mkW [(52, x.keyid), (32, x.asid), (16, r)], mkW [(0, src.toNat)],
       mkW [(0, dst.toNat)], mkW [(48, op), (40, ety), (0, len.toNat)], mkW [(32, (nextMember g).node.toNat), (0, j)],
       mkW [(60, stepMode r j g.members.length)], 0] none dst.toNat

/-! ### TILE_FORM (R134, R139) -/

/-- Entries of a buffer or a queue that descriptors take: a pair takes two. -/
def descWords (xs : List Desc) : Nat := xs.foldl (fun n x => n + (if x.ext.isSome then 2 else 1)) 0

/-- Descriptors outstanding at a quay (R139). -/
def outstanding (u : Quay) : Nat :=
  descWords (u.queue ++ u.out.map (·.desc) ++ (match u.offered with | some (x, _) => if u.extNext then [] else [x] | none => []))

/-- The quay of a new run (R139): ONLINE, in the mask, with the fewest descriptors outstanding, lowest number first. Lent work
gets no run on a quay that is being reclaimed (R213). [log 67 DEDUCED unsafe] -/
def chooseQuay (d : Dev) (c : Cmd) : Option Nat :=
  let qs := c.mask.filter fun q => online d q && !(c.level ≠ 0 && fbit d fHmsRsvQuays q && wantedByZero d q)
  qs.foldl (fun m q => match m with
    | some x => if outstanding (quayAt d q) < outstanding (quayAt d x) then some q else some x
    | none => some q) none

/-- Length of a run (R139). -/
def runLen (d : Dev) (c : Cmd) (q : Nat) : Nat :=
  let m := fld d (fQptRunMax q)
  match c.spec.op with
  | .launch _ => min (c.pieces * c.trips.headD 1) m
  | _ => m

/-- SDEPTH in tiles. -/
def sdepth (d : Dev) (q : Nat) : Nat := fld d (fQptSdepth q) + 1

/-- The slice of a command that a sequencer works on next. -/
def nextSlice (c : Cmd) (s : Nat) : Option Nat :=
  (List.range c.slices.length).find? fun i => match c.slices[i]? with
    | some x => x.seq = s && x.isOpen
    | none => false

/-- The command that a sequencer forms tiles of: the first of its jobs with an open slice. -/
def formJob (d : Dev) (s : Nat) : Option (Cmd × Nat) :=
  (seqAt d s).jobs.findSome? fun k => match cmdAt d k with
    | some c => if c.phase = .issued then (nextSlice c s).map fun i => (c, i) else none
    | none => none

/-- The tile that a slice forms next: numbers listed in a save slot first (R211). -/
def sliceTile (s : Slice) : Nat := match s.redo with | n :: _ => n | [] => s.next

/-- A slice after one tile, with its run. -/
def sliceAfter (s : Slice) (q left depth : Nat) : Slice :=
  match s.redo with
  | _ :: r => { s with redo := r, runLeft := left, runQuay := q, runDepth := depth }
  | [] => { s with next := s.next + 1, runLeft := left, runQuay := q, runDepth := depth }

/-- Tiles that a slice forms next, at most `n`: listed numbers first (R211). -/
def tilesAhead (s : Slice) (n : Nat) : List Nat :=
  (s.redo ++ (List.range (min n (s.stop - s.next))).map (s.next + ·)).take n

/-- The kind of descriptor of a command: TILE, DMA, COLLECTIVE. -/
def dkindOf : CmdOp → Nat
  | .launch _ => 1
  | .call r _ => if r = 1 || r = 6 then 3 else 4
  | _ => 3

def skindOf : CmdOp → Nat
  | .launch l => l.skind
  | _ => 0

def stationOf : CmdOp → Option Nat
  | .launch l => if l.named then some l.station else none
  | _ => none

/-- A tile of a command. -/
def formTile (d : Dev) (q : Seqr) (c : Cmd) (n : Nat) : FormRes :=
  match c.spec.op, c.group with
  | .launch l, _ => formLaunch d q c l n
  | .call r a, some g => if 2 ≤ r && r ≤ 5 then formCollective d c r a g else formDma d q c n
  | _, _ => formDma d q c n

/-- The descriptor as it goes to a quay. -/
def mkDesc (d : Dev) (c : Cmd) (n addr quay seq depth : Nat) (ws : List W64) (ext : Option (List W64)) : Desc :=
  { cmd := c.key, ctx := c.ctx, berth := c.berth, dkind := dkindOf c.spec.op, skind := skindOf c.spec.op,
    named := stationOf c.spec.op, tile := n, piece := n % c.pieces, pid := pidOf d c, tag := c.spec.tag,
    replayed := c.replayed, addr := addr, quay := quay, seq := seq, depth := depth, words := ws, ext := ext }

/-- Where the index element of a tile lies, for a gather or a GATHER_ROWS (R135, R143). -/
def tileIdxAddr (c : Cmd) (n : Nat) : Option Nat :=
  match c.spec.op with
  | .launch l => if l.gathers then some (idxAddr l (pointOf c.pieces c.trips n).2) else none
  | .call 6 a => some (rowIdxAddr a (rowChunk (argN a 4) c.chunkLog2 n).1)
  | _ => none

/-- An index line is asked for on the gather port (R135). [log 43 DEDUCED unsafe] -/
def askIndex (d : Dev) (s : Nat) (c : Cmd) (a : Nat) : Dev :=
  let q := seqAt d s
  if q.asked.contains a || (q.lines.any fun l => l.1 = a) || 256 ≤ q.asked.length then d
  else
    let x := ctxAt d (ctxIdx c.ctx)
    memReq (modSeq d s fun q => { q with asked := q.asked ++ [a] }) (.indexRead x.asid x.keyid x.pid a)

/-- Index lines are read ahead in the order of the tiles that need them, up to 256 outstanding (R135): the model looks at the next 256
tiles of the slice. [log 43 DEDUCED unsafe] -/
def prefetch (d : Dev) (s : Nat) (c : Cmd) (sl : Slice) : Dev :=
  if (tileIdxAddr c 0).isNone then d
  else (tilesAhead sl 256).foldl (fun d n => match tileIdxAddr c n with
    | some a => if 2 ^ 57 ≤ a then d else askIndex d s c (lineOf a)
    | none => d) d

/-- The index lines of a sequencer after a tile has read its element: the lines it lies in are the most recently used (R135). -/
def usedLines (ls : List (Nat × Line)) : Option Nat → List (Nat × Line)
  | some a =>
    let hit := fun (x : Nat × Line) => x.1 = lineOf a || x.1 = lineOf (a + 3)
    ls.filter (fun x => !hit x) ++ ls.filter hit
  | none => ls

/-- One tile is formed and its descriptor written to the buffer; at the end of the slice its index lines are dropped (R135). -/
def tileFormOp (d : Dev) (s : Nat) : Dev :=
  if fld d (fTsqState s) ≠ 1 then d
  else match formJob d s with
    | none => d
    | some (c, i) =>
      let sl := c.slices.getD i { seq := s, next := 0, stop := 0 }
      let n := sliceTile sl
      match (if sl.runLeft = 0 then (chooseQuay d c).map fun q => (q, runLen d c q, sdepth d q)
          else some (sl.runQuay, sl.runLeft, sl.runDepth)) with
      | none => d
      | some (qy, left, depth) =>
        let after := sliceAfter sl qy (left - 1) depth
        let d := prefetch d s c sl
        match formTile d (seqAt d s) c n with
        | .need _ => d
        | .fault cause a slot =>
          faultCmd d c.key { cause := cause, unit := 8, addr := a, tile := n, piece := n % c.pieces, argA := slot }
        | .ok ws ext addr =>
          let x := mkDesc d c n addr qy s depth ws ext
          if 960 < descWords ((seqAt d s).buf ++ [x]) then d
          else
            let d := modSeq d s fun q => { q with buf := q.buf ++ [x], lines := usedLines q.lines (tileIdxAddr c n) }
            let d := modCmd d c.key fun c => { c with slices := modAt c.slices i fun _ => after }
            let d := if after.isOpen then d else modSeq d s Seqr.dropLines
            count (nativeTile d s c n) 1 s 0 (if ext.isSome then 2 else 1)

/-- TILE_FORM (R134). -/
def execTileForm (seq : BitVec 4) (s : State) : Host.Outcome State Fault Refusal :=
  onUnit 8 (fun d => tileFormOp d seq.toNat) s

/-! ### INDEX_LINE_RESPONSE (R135) -/

/-- A line enters the buffer of 64, the least recently used leaving it. -/
def addLine (ls : List (Nat × Line)) (a : Nat) (l : Line) : List (Nat × Line) :=
  let r := (ls.filter fun x => x.1 ≠ a) ++ [(a, l)]
  if 64 < r.length then r.drop 1 else r

/-- Slot of the gathered operand (R298). -/
def idxSlot : CmdOp → Nat
  | .launch l => l.idxOpnd
  | _ => 0

def indexLine (d : Dev) (s a : Nat) (r : MemResp) (line : Line) : Dev :=
  if !(seqAt d s).asked.contains a then d
  else
    let d := modSeq d s fun q => { q with asked := q.asked.filter (· ≠ a) }
    if r = .ok then modSeq d s fun q => { q with lines := addLine q.lines a line }
    else
      let d := memErr d (0x20 + s) r a
      match formJob d s with
      | some (c, i) =>
        let sl := c.slices.getD i { seq := s, next := 0, stop := 0 }
        let n := ((tilesAhead sl 256).find? fun n => (tileIdxAddr c n).map lineOf = some a).getD (sliceTile sl)
        faultCmd d c.key { cause := 0x23, unit := 8, addr := a, tile := n, piece := n % c.pieces, argA := idxSlot c.spec.op }
      | none => d

/-- INDEX_LINE_RESPONSE (R135, R306). -/
def execIndexLineResponse (seq : BitVec 4) (addr : BitVec 57) (r : MemResp) (line : Line) (s : State) :
    Host.Outcome State Fault Refusal :=
  onUnit 8 (fun d => indexLine d seq.toNat addr.toNat r line) s

/-! ### Control-store errors (R124) -/

def csCode : CsError → Nat
  | .store => 1 | .dispatch => 2 | .trap => 3

/-- CS_PARITY_ERROR: suppression, capture, machine check; the reload starts, or the sequencer is OFFLINE on a repeat within
1 s of its last reload; its commands are settled as the failure of one sequencer (14 R254). [log 44 DEDUCED unsafe] -/
def csErrorOp (d : Dev) (s code addr : Nat) : Dev :=
  if fld d (fTsqState s) ≠ 1 then d
  else
    let p := 0x20 + s
    let d := raiseEvent (machineCheckAt (logErr d p 3 code addr) p 3 code addr false) p 0
    let again : Bool := match (seqAt d s).lastReload with
      | some t => tideW d < t + 1000000000
      | none => false
    let d := setFld d (fTsqState s) (if again then 3 else 2)
    let ks := ((seqAt d s).jobs ++ (seqAt d s).buf.map (·.cmd)).eraseDups
    let d := ks.foldl interruptCmd d
    let d := { d with cmds := d.cmds.map fun c => if c.spin = some s then { c with spin := none } else c }
    modSeq d s fun q => { q.dropLines with jobs := [], buf := [], upc := none }

def execCsParityError (seq : BitVec 4) (kind : CsError) (addr : BitVec 12) (s : State) : Host.Outcome State Fault Refusal :=
  onUnit 8 (fun d => csErrorOp d seq.toNat (csCode kind) addr.toNat) s

/-- CS_RELOAD_DONE: its stores come from the harbour copy of the image and the sequencer rejoins; one that is OFFLINE stays so. -/
def csReloadDone (d : Dev) (s : Nat) : Dev :=
  if fld d (fTsqState s) ≠ 2 then d
  else
    let d := modSeq (incSat (setFld d (fTsqState s) 1) (fTsqMcCount s)) s fun q => { q with lastReload := some (tideW d) }
    match d.scu.imgCopy with
    | some m => loadStores d s m
    | none => d

def execCsReloadDone (seq : BitVec 4) (s : State) : Host.Outcome State Fault Refusal :=
  onUnit 8 (fun d => csReloadDone d seq.toNat) s

end Sys2Proof.Machine
end

