-- ==== Sys2Proof/Machine/Quays.lean ====
section
/-!
DEFINITION. Quays (08 R140, R145 to R151; 02 R26, R31, R32): offering and transferring descriptors, completion packets, drains,
failed and stopped quays, and the trace records of quays (21 R360, R361).
-/

namespace Sys2Proof.Machine

/-! ### Stations and offers (R140, R220) -/

/-- Tiles outstanding at a station or engine. -/
def tilesAt (u : Quay) (st : Nat) : Nat := (u.out.filter fun t => t.station = st).length

/-- Station kind of a position within a core (06 R107). -/
def kindOfPos (pos : Nat) : Nat := if pos < 2 then 0 else pos - 1

/-- Stations of a compute quay of one kind, or the engines of another quay. -/
def stationsOf (u : Quay) (q skind : Nat) : List Nat :=
  if q < 32 then ((List.range 32).filter fun i => kindOfPos (i % 4) = skind).map fun i => q * 32 + i
  else List.range u.engines

/-- Does launch pacing let a tile be offered to the stations of a kind (12 R220)? -/
def paceOk (u : Quay) (q skind : Nat) : Bool :=
  32 ≤ q || ((stationsOf u q skind).filter fun s => 0 < tilesAt u s).length < u.limit.getD skind 16

/-- The station for a descriptor: the named one, or the one of its kind with the fewest tiles outstanding, lowest ID first;
none without room. [log 67 DEDUCED unsafe] -/
def stationFor (d : Dev) (q : Nat) (x : Desc) : Option Nat :=
  let u := quayAt d q
  let st := match x.named with
    | some s => some s
    | none => (stationsOf u q x.skind).foldl (fun (m : Option Nat) s => match m with
      | some y => if tilesAt u s < tilesAt u y then some s else some y
      | none => some s) none
  match st with
  | some s => if tilesAt u s < x.depth && paceOk u q x.skind then some s else none
  | none => none

/-- May a descriptor be offered: outside every pending drain, its BEGIN durable (14 R251)? -/
def mayOffer (d : Dev) (q : Nat) (x : Desc) : Bool :=
  !((quayAt d q).drains.any fun s => inScope s.1 x) &&
    (match cmdAt d x.cmd with
     | some c => !c.needsBegin || (match c.beginLsn with | some l => durableAt d l | none => false)
     | none => false)

/-- The oldest head of a station kind that can be offered, with its station. -/
def pickOffer (d : Dev) (q : Nat) (kinds : List Nat) : List Desc → Option (Desc × Nat)
  | [] => none
  | x :: xs =>
    if kinds.contains x.skind then pickOffer d q kinds xs
    else if !mayOffer d q x then
      (if (quayAt d q).drains.any fun s => inScope s.1 x then pickOffer d q kinds xs else pickOffer d q (x.skind :: kinds) xs)
    else match stationFor d q x with
      | some s => some (x, s)
      | none => pickOffer d q (x.skind :: kinds) xs

/-- Word 0 with the station (R140). -/
def withStation (ws : List W64) (s : Nat) : List W64 :=
  match ws with
  | w :: r => setBits w 58 49 s :: r
  | [] => []

/-- A quay offers the next descriptor where it can; while quiesced it offers none (R153).
[log 35 DEDUCED unsafe, 64 DESIGN CHOICE safe] -/
def offerNext (d : Dev) (q : Nat) : Dev :=
  let u := quayAt d q
  if !quayRuns d q || u.offered.isSome || flag d (fQreq (0x40 + q)) then d
  else match pickOffer d q [] u.queue with
    | none => d
    | some (x, s) =>
      let y := { x with words := withStation x.words s, ext := x.ext.map fun w => withStation w s }
      modQuay d q fun u => { u with queue := u.queue.erase x, offered := some (y, s) }

/-! ### DESCRIPTOR_CROSSING (R139, R140) -/

/-- The quay to which the head of a sequencer's buffer goes: the one of its run, or another ONLINE quay where that one has
failed or reclaims it (R150, R213). [log 67 DEDUCED unsafe] -/
def targetQuay (d : Dev) (c : Cmd) (x : Desc) : Option Nat :=
  if x.quay < 56 && quayRuns d x.quay && !((quayAt d x.quay).drains.any fun s => s.2 = .reclaim && inScope s.1 x) then some x.quay
  else chooseQuay d c

def crossOp (d : Dev) (s : Nat) : Dev :=
  match (seqAt d s).buf with
  | [] => d
  | x :: rest =>
    match cmdAt d x.cmd with
    | none => modSeq d s fun q => { q with buf := rest }
    | some c =>
      match targetQuay d c x with
      | none => d
      | some q =>
        if 128 < descWords ((quayAt d q).queue ++ [x]) then d
        else
          let x := { x with quay := q, depth := if x.quay = q then x.depth else sdepth d q }
          let d := modSeq d s fun q => { q with buf := rest }
          let d := modQuay d q fun u => { u with queue := u.queue ++ [x] }
          offerNext (trimJobs d x.cmd) q

def execDescriptorCrossing (seq : BitVec 4) (s : State) : Host.Outcome State Fault Refusal :=
  onUnit 8 (fun d => crossOp d seq.toNat) s

/-! ### Command trace (21 R360, R361) -/

/-- TAGS of a command record (R361). [log 44 DEDUCED unsafe] -/
def traceTags (d : Dev) (k : CmdId) (ctx : Nat) : W64 :=
  if (ctxAt d (ctxIdx ctx)).secrecy = .open && 1 ≤ d.scu.sec then
    match cmdAt d k with
    | some c => mkW [(48, c.spec.operatorId), (32, c.spec.layerId), (0, c.spec.tag)]
    | none => 0
  else 0

def traceCmd (d : Dev) (q : Nat) (x : Desc) (st : Option Nat) (rtype n : Nat) : Dev :=
  let addr := (((quayAt d q).traceAddr.find? fun e => e.1 = x.cmd).map (·.2)).getD x.addr
  pushTrace d q
    { rtype := rtype, secrecy := (ctxAt d (ctxIdx x.ctx)).secrecy.code, unaligned := !flag d fTideAligned,
      replayed := x.replayed, perStation := st.isSome, lap := 0, quay := q, station := st.getD 0, count := field16 2 n,
      time := tideW d, tags := traceTags d x.cmd x.ctx, addr := BitVec.ofNat 64 addr }

/-- Tiles of a command outstanding at a quay, or at one of its stations. -/
def cmdTilesAt (u : Quay) (k : CmdId) (st : Option Nat) : Nat :=
  (u.out.filter fun t => t.desc.cmd = k && (match st with | some s => t.station = s | none => true)).length

/-- Key of a count of retired tiles: the station, or 1024 for the whole quay. -/
def retKey (st : Option Nat) : Nat := st.getD 1024

def retiredOf (u : Quay) (k : CmdId) (st : Option Nat) : Nat :=
  ((u.retired.find? fun e => e.1 = k && e.2.1 = retKey st).map (·.2.2)).getD 0

def setRetired (k : CmdId) (st : Option Nat) (n : Nat) (u : Quay) : Quay :=
  { u with retired := (u.retired.filter fun e => !(e.1 = k && e.2.1 = retKey st)) ++ (if n = 0 then [] else [(k, retKey st, n)]) }

/-- The grain of command trace: the quay, or the station (R360). -/
def traceGrain (d : Dev) (st : Nat) : Option Nat := if flag d fDtcGran then some st else none

/-- CMD_BEGIN as the count of a command's tiles rises from 0 to 1. [log 61 DEDUCED unsafe] -/
def traceBegin (d : Dev) (q : Nat) (x : Desc) (st : Nat) : Dev :=
  if flag d fCmdEn && cmdTilesAt (quayAt d q) x.cmd (traceGrain d st) = 1 then
    traceCmd (modQuay d q (setRetired x.cmd (traceGrain d st) 0)) q x (traceGrain d st) 1 0
  else d

/-- CMD_END as it falls to 0; COUNT gives the tiles retired since. [log 61 DEDUCED unsafe] -/
def traceEnd (d : Dev) (q : Nat) (x : Desc) (st : Nat) : Dev :=
  if !flag d fCmdEn then d
  else
    let g := traceGrain d st
    let n := retiredOf (quayAt d q) x.cmd g + 1
    if cmdTilesAt (quayAt d q) x.cmd g = 0 then traceCmd (modQuay d q (setRetired x.cmd g 0)) q x g 2 n
    else modQuay d q (setRetired x.cmd g n)

/-! ### DESCRIPTOR_LAUNCH (R31, R140) -/

/-- Is a command the one that its berth issued most recently (21 R368)? -/
def isLatest (d : Dev) (c : Cmd) : Bool := !d.cmds.any fun x => x.berth = c.berth && c.issueNo < x.issueNo

/-- A COMMAND counter, for the most recently issued command of its berth only (21 R368). -/
def countLatest (d : Dev) (k : CmdId) (n v : Nat) : Dev :=
  withCmd d k fun c => if isLatest d c then countCmd d c.berth n v else d

/-- A tile number leaves the list of a save slot; the slot is freed with the last (12 R211). -/
def unlist (d : Dev) (k : CmdId) (tile : Nat) : Dev :=
  withCmd d k fun c =>
    let d := modCmd d k fun c => { c with launched := true, listed := c.listed.erase tile }
    if c.saveSlot.isSome && c.phase = .issued && (c.listed.erase tile).isEmpty then freeSave d k else d

/-- A transfer at an engine port. -/
def transfer (d : Dev) (q st pid : Nat) (ws : List W64) (ext : Bool) : Dev :=
  let d := { d with launches := d.launches ++ [{ quay := q, station := st, pid := pid, words := ws, ext := ext }] }
  count (incWrap d (fQptLaunched q)) 2 q 0

/-- The engines take the descriptor offered. [log 64 DESIGN CHOICE safe] -/
def launchOp (d : Dev) (q : Nat) : Dev :=
  let u := quayAt d q
  match u.offered with
  | none => d
  | some (x, st) =>
    if !quayRuns d q then d
    else if u.extNext then
      let d := progress (transfer d q st x.pid (x.ext.getD []) true) x.berth
      offerNext (modQuay d q fun u => { u with offered := none, extNext := false }) q
    else
      let d := transfer d q st x.pid x.words false
      let d := modQuay d q fun u =>
        { u with out := u.out ++ [{ desc := x, station := st, launched := tideW d }]
                 offered := if x.ext.isSome then some (x, st) else none
                 extNext := x.ext.isSome
                 traceAddr := (u.traceAddr.filter fun e => d.cmds.any fun c => c.key = e.1) ++
                   (if u.traceAddr.any fun e => e.1 = x.cmd then [] else [(x.cmd, x.addr)]) }
      let d := countLatest (count (unlist d x.cmd x.tile) 0 0 5) x.cmd 0 1
      let d := progress (traceBegin d q x st) x.berth
      if x.ext.isSome then d else offerNext d q

/-- DESCRIPTOR_LAUNCH (R31). -/
def execDescriptorLaunch (quay : BitVec 6) (s : State) : Host.Outcome State Fault Refusal :=
  if 56 ≤ quay.toNat then reservedOp else onUnit 9 (fun d => launchOp (offerNext d quay.toNat) quay.toNat) s

/-! ### FAILED and STOPPED (R148, R150, R26) -/

/-- Commands with tiles launched on a quay, or with completions that it holds. -/
def lostCmds (u : Quay) : List CmdId := ((u.out.map fun t => t.desc.cmd) ++ u.cpl.map fun x => x.1.cmd).eraseDups

/-- The quay's launch and completion logic is held in reset: queued descriptors return to the sequencers, drains end, and
launched tiles and completions held count as a quay failure (R26, R150, R254). A command interrupted so discards what came back.
[log 35 DEDUCED unsafe] -/
def quayDown (d : Dev) (q : Nat) : Dev :=
  let u := quayAt d q
  let back := u.queue ++ (match u.offered with | some (x, _) => if u.extNext then [] else [x] | none => [])
  let lost := lostCmds u
  let reclaimed := u.drains.any fun x => x.2 = .reclaim
  let d := modQuay d q fun u => { u with queue := [], offered := none, extNext := false, out := [], cpl := [], drains := [], retired := [] }
  let d := if reclaimed then count (incSat d fHmsPreDone) 0 0 6 else d
  lost.foldl interruptCmd (back.foldl returnDesc d)

/-- A quay enters FAILED with its cause: CODE 0x01, 0x02 of R146, 0x03 for the drain timer (QUAY_FAILED, R150). -/
def quayFail (d : Dev) (q code addr : Nat) : Dev :=
  let p := 0x40 + q
  quayDown (raiseEvent (setFld (logErr d p 3 code addr) (fQptState q) 3) p 0) q

/-- QUAY_CLOCK_STOPPED (R26, R148): the clock monitor of the SCU marks it; the quay is held in reset and enters STOPPED. With the QPT
in reset the quay comes up so (`quaysUp`). [log 35 DEDUCED unsafe] -/
def clockStopped (d : Dev) (q : Nat) : Dev :=
  let p := 0x40 + q
  let st := fld d (fQptState q)
  let d := modQuay d q fun u => { u with clock := false }
  if inReset d 9 || st = 0 || st = 4 then d
  else quayDown (raiseEvent (setFld (logErr d p 3 4 0) (fQptState q) 4) p 1) q

/-- [log 6 DEDUCED safe] -/
def execQuayClockStopped (quay : BitVec 6) (s : State) : Host.Outcome State Fault Refusal :=
  if 56 ≤ quay.toNat then reservedOp else onDev (fun d => clockStopped d quay.toNat) s

/-- QUAY_CLOCK_RETURN (R148): 16 cycles of its clock after the clock is back, a STOPPED quay enters FAILED.
[log 35 DEDUCED unsafe] -/
def clockReturn (d : Dev) (q : Nat) : Dev :=
  let d := modQuay d q fun u => { u with clock := true }
  if !inReset d 9 && fld d (fQptState q) = 4 then raiseEvent (setFld d (fQptState q) 3) (0x40 + q) 0 else d

/-- [log 6 DEDUCED safe] -/
def execQuayClockReturn (quay : BitVec 6) (s : State) : Host.Outcome State Fault Refusal :=
  if 56 ≤ quay.toNat then reservedOp else onDev (fun d => clockReturn d quay.toNat) s

/-- REVIVE (R151): a FAILED quay leaves reset with no tile outstanding and enters ONLINE; ignored in any other state.
[log 35 DEDUCED unsafe] -/
def reviveOp (d : Dev) (q : Nat) : Dev :=
  if fld d (fQptState q) = 3 then setFld d (fQptState q) 1 else d

def execRevive (quay : BitVec 6) (s : State) : Host.Outcome State Fault Refusal :=
  if 56 ≤ quay.toNat then reservedOp else onUnit 9 (fun d => reviveOp d quay.toNat) s

/-! ### Drains (R149) -/

/-- Who may ask for a drain of a scope now: a teardown, a preemption, the settling of an interrupted command, a reset.
[log 35 DEDUCED unsafe] -/
def drainOrigin (d : Dev) : DrainScope → Option DrainBy
  | .ctx h => if ctxOk d h.toNat && (ctxAt d (ctxIdx h.toNat)).state = .dying then some .teardown else none
  | .berth b => if d.cmds.any fun c => c.berth = b.toNat && c.phase = .preempting then some .preempt else none
  | .cmd k => match cmdAt d k with
    | some c => if c.phase = .interrupted then some .interrupt else none
    | none => none
  | .all => if d.scu.rst = .idle || d.scu.rst = .ask then some .reset else none

/-- DRAIN_REQUEST (R149): the quay stops offering the scope, returns its queued descriptors, and starts or joins the timer.
[log 35 DEDUCED unsafe] -/
def drainReqOp (d : Dev) (q : Nat) (scope : DrainScope) : Dev :=
  match drainOrigin d scope with
  | some o => if (quayAt d q).drains.any fun x => x = (scope, o) then d else requestDrain d q scope o
  | none => d

def execDrainRequest (quay : BitVec 6) (scope : DrainScope) (s : State) : Host.Outcome State Fault Refusal :=
  if 56 ≤ quay.toNat then reservedOp else onUnit 9 (fun d => drainReqOp d quay.toNat scope) s

/-- Tiles of a scope outstanding at a quay. -/
def outInScope (u : Quay) (s : DrainScope) : Bool :=
  (u.out.any fun t => inScope s t.desc) || (match u.offered with | some (x, _) => inScope s x | none => false)

/-- DRAIN_DONE (R148, R149): requesters whose scope holds no tile are told; with none left the quay returns to ONLINE. -/
def drainDoneOp (d : Dev) (q : Nat) : Dev :=
  if fld d (fQptState q) ≠ 2 then d
  else
    let u := quayAt d q
    let left := u.drains.filter fun x => outInScope u x.1
    let d := modQuay d q fun u => { u with drains := left }
    let reclaimed := (u.drains.any fun x => x.2 = .reclaim) && !left.any fun x => x.2 = .reclaim
    let d := if reclaimed then count (incSat d fHmsPreDone) 0 0 6 else d
    let d := if left.isEmpty then setFld d (fQptState q) 1 else d
    offerNext d q

def execDrainDone (quay : BitVec 6) (s : State) : Host.Outcome State Fault Refusal :=
  if 56 ≤ quay.toNat then reservedOp else onUnit 9 (fun d => drainDoneOp d quay.toNat) s

/-- DRAIN_TIMEOUT (R149): QPT_DRAIN_TMO has run from the first request of the merged drain. -/
def drainTimeoutOp (d : Dev) (q : Nat) : Dev :=
  let u := quayAt d q
  if fld d (fQptState q) = 2 && !u.drains.isEmpty && u.drainStart + us u.drainTmo ≤ d.now then quayFail d q 3 0
  else d

def execDrainTimeout (quay : BitVec 6) (s : State) : Host.Outcome State Fault Refusal :=
  if 56 ≤ quay.toNat then reservedOp else onUnit 9 (fun d => drainTimeoutOp d quay.toNat) s

/-! ### COMPLETION_PACKET (R145, R146, R237) -/

/-- QPT_PROGRESS counts a packet; a stall episode of the quay ends (12 R216, R217). [log 33 DEDUCED unsafe] -/
def quayProgress (d : Dev) (q : Nat) : Dev :=
  let d := count (incWrap d (fQptProgress q)) 2 q 4
  modHms d fun h => { h with stallQ := tset {} h.stallQ q { since := d.now } }

/-- A tile retires: STATION_TIME and TILES of its context, the COMMAND counters, and the trace record. -/
def retire (d : Dev) (q : Nat) (t : OutTile) : Dev :=
  let time := tideW d - t.launched
  let d := modQuay d q fun u => { u with out := u.out.erase t }
  let d := modCtx d (ctxIdx t.desc.ctx) fun r =>
    if r.gen = ctxGen t.desc.ctx then
      { r with tiles := (r.tiles + 1) % 2 ^ 64, stationTime := (r.stationTime + time) % 2 ^ 64 } else r
  let d := countLatest (countLatest d t.desc.cmd 1 1) t.desc.cmd 2 time
  traceEnd d q t.desc t.station

/-- Is a faulted packet a poison report with an address in the arena (13 R237)? -/
def arenaPoison (d : Dev) (info : W64) : Bool :=
  let c := d.scu.cfg
  let a := getBits info 56 0
  getBits info 63 57 = 1 && c.arenaVa ≤ a && a < c.arenaVa + c.arenaSize

/-- A faulted packet goes to the MMG where it reports poison in the arena, and to the BLU otherwise. -/
def passFault (d : Dev) (q : Nat) (t : OutTile) (p : CplPacket) : Dev :=
  if arenaPoison d p.info then modMmg d fun g => { g with poison := g.poison ++ [(t.desc.cmd, getBits p.info 56 0)] }
  else modQuay d q fun u => { u with cpl := u.cpl ++ [(t.desc, p)] }

/-- A packet that fails its check (R146): captured, and the quay enters FAILED. -/
def badPacket (d : Dev) (q code : Nat) (p : CplPacket) : Dev := quayFail d q code (p.stn.toNat * 2 ^ 32 + p.tag.toNat)

/-- [log 44 DEDUCED unsafe] -/
def packetOp (d : Dev) (q : Nat) (p : CplPacket) : Dev :=
  let u := quayAt d q
  if !quayRuns d q || 128 ≤ u.cpl.length then d
  else match u.out.find? fun t => t.station = p.stn.toNat with
    | none => badPacket d q 2 p
    | some t =>
      if t.desc.tag ≠ p.tag.toNat then badPacket d q 1 p
      else
        let d := progress (quayProgress d q) t.desc.berth
        if p.last || p.fault then
          let d := retire d q t
          offerNext (if p.fault then passFault d q t p else d) q
        else d

/-- COMPLETION_PACKET (R146). -/
def execCompletionPacket (quay : BitVec 6) (p : CplPacket) (s : State) : Host.Outcome State Fault Refusal :=
  if 56 ≤ quay.toNat then reservedOp else onUnit 9 (fun d => packetOp d quay.toNat p) s

/-! ### The end of a command's tiles (R147) -/

/-- Faulted packets of a command held for the BLU: quay and packet, lowest quay first. -/
def heldFaults (d : Dev) (k : CmdId) : List (Nat × Desc × CplPacket) :=
  (List.range 56).flatMap fun q => ((quayAt d q).cpl.filter fun x => x.1.cmd = k).map fun x => (q, x)

/-- Has every slice ended and every tile returned? -/
def tilesDone (d : Dev) (c : Cmd) : Bool :=
  c.step ≠ 0 && !(c.slices.any (·.isOpen)) && !(d.seqs.any fun s => s.buf.any fun x => x.cmd = c.key) &&
    !(d.quays.any fun u => u.queue.any fun x => x.cmd = c.key) && tilesOut d c.key = 0 && (heldFaults d c.key).isEmpty &&
    !d.mmg.poison.any fun x => x.1 = c.key

/-- An affected command whose launched tiles have drained (13 R239): POISONED without REPLAY or with a mooring LOST, and run again
once the moorings it names and those whose poison it read are RESIDENT otherwise. [log 48 DEDUCED unsafe] -/
def affectedDone (d : Dev) (c : Cmd) : Dev :=
  let sts := (c.moors.map (·.1) ++ c.hit).map fun m => (moorAt d m).st
  if c.phase ≠ .affected || c.status.isSome || !ctxLive d c.ctx || tilesOut d c.key ≠ 0 || !(heldFaults d c.key).isEmpty ||
      d.mmg.poison.any (fun x => x.1 = c.key) then d
  else if !c.spec.replay || c.lost || sts.any (· = .lost) then completeCmd d c.key stPoisoned 0
  else if sts.all (· = .resident) then runAgain d c.key
  else d

/-- COMMAND_TILES_DONE (R147, R176): the command ran to its end. A collective goes on to its next ring step instead. -/
def cmdTilesDone (d : Dev) (c : Cmd) : Dev :=
  if c.phase = .issued && c.status.isNone && c.spec.op.sequenced && !c.spec.op.collective && tilesDone d c then
    finishOk (stopSequencers d c.key) c.key
  else affectedDone d c

def execCommandTilesDone (c : CmdId) (s : State) : Host.Outcome State Fault Refusal :=
  onUnit 6 (fun d => withCmd d c fun x => cmdTilesDone d x) s

/-- A faulted packet during the drain: its engine's entry carries FAULT and INFO (17 R296). [log 44 DEDUCED unsafe] -/
def lateFault (d : Dev) (c : Cmd) (q st : Nat) (info : W64) : Dev :=
  let mark := fun (r : FaultRec) =>
    if r.seq = c.faultSeq && r.kind = 1 then
      suppress { r with following := min (r.following + 1) 0xFFFF
                        engines := r.engines.map fun e => if e.quay = q && e.station = st then { e with fault := true, info := info } else e }
    else r
  if d.scu.open_.any fun r => r.seq = c.faultSeq && r.counted then bumpFollowing d fun r => r.slot && r.seq = c.faultSeq
  else modScu d fun s => { s with open_ := s.open_.map mark }

/-- COMMAND_FAULT (R147): the oldest faulted packet of a command that the BLU has not taken. -/
def cmdFaultOp (d : Dev) (c : Cmd) : Dev :=
  match heldFaults d c.key with
  | [] => d
  | (q, x, p) :: _ =>
    let d := modQuay d q fun u => { u with cpl := u.cpl.erase (x, p) }
    if c.status = some stFaulted && c.completeLsn.isNone then lateFault d c q p.stn.toNat p.info
    else
      let cause := if getBits p.info 63 57 = 1 then 0x11 else 0x10
      faultCmdAt d c.key { cause := cause, unit := 9, addr := getBits p.info 56 0, tile := x.tile, piece := x.piece }
        (some (q, p.stn.toNat, p.info))

def execCommandFault (c : CmdId) (s : State) : Host.Outcome State Fault Refusal :=
  onUnit 6 (fun d => withCmd d c fun x => cmdFaultOp d x) s

/-! ### Collective routines (16 R293) -/

/-- The wait of a ring step: COUNTER_TAKE 1 on this member's own counter, except at step 0; one that was applied before an interruption
counts as met (R174, R254). The model numbers the take and the put of step j 256 + 2j and 257 + 2j; their records carry ENTRY 0xFF
(R247). [log 36 DEDUCED unsafe] -/
def ringTake (d : Dev) (c : Cmd) (g : GroupTable) : Dev :=
  let m := g.members.getD g.self.toNat Member0
  let h := m.counter.toNat
  let r := bolAt d (bolIdx h)
  let e := 256 + 2 * ringStep c
  let go := fun (d : Dev) =>
    let d := modCmd d c.key fun c => { c with step := c.step + 1, slices := mkSlices (c.grant.take 1) 1 }
    (c.grant.take 1).foldl (fun d s => modSeq d s fun q => { q with jobs := if q.jobs.contains c.key then q.jobs else q.jobs ++ [c.key] }) d
  if ringStep c = 0 || c.applied.contains e then go d
  else withRecs d (bolRecs d h) fun d =>
    if !bolOk d h || !(bolOwner r = c.ctx || (r.cap ≠ 0 && r.cap = m.cap)) then completeCmd (incSat d fBluRejStale) c.key stStale 0xFFFF
    else if r.state = .abandoned then completeCmd d c.key stAbandoned 0xFFFF
    else if r.kind ≠ .counter then faultCmd d c.key (bluFault 0x45 0 h)
    else if r.value = 0 || d.blu.waits.any fun w => w.bol = bolIdx h then d
    else go (stepValue (modCmd d c.key fun c => { c with applied := c.applied ++ [e] }) (bolIdx h) (r.value - 1) e c.ref c.spec.lineNo
      c.berth)

/-- The signal of a ring step: COUNTER_PUT 1 to the next member's counter. [log 36 DEDUCED unsafe] -/
def ringPut (d : Dev) (c : Cmd) (g : GroupTable) (steps : Nat) : Dev :=
  let m := nextMember g
  let j := ringStep c
  let after := fun (d : Dev) =>
    if steps ≤ j + 1 then finishOk (stopSequencers d c.key) c.key
    else modCmd d c.key fun c => { c with step := c.step + 1, slices := [] }
  let local_ := m.node = 0 || m.node.toNat = fld d fFsaId
  let done := 257 + 2 * j
  if c.applied.contains done then after d
  else if local_ then
    let e : SyncEnt := { node := 0, handle := m.counter.toNat, value := 1, cap := m.cap, code := 2, cont := false }
    withRecs d (bolRecs d e.handle) fun d => match localTest d c.ctx e with
      | .ok v =>
        let d := modCmd d c.key fun c => { c with applied := c.applied ++ [done] }
        after (count (stepValue d (bolIdx e.handle) v done c.ref c.spec.lineNo c.berth) 0 0 8)
      | .no row =>
        let st := refusalStatus row false
        let d := countRefusal d e.handle row
        if st.1 = stOk then after d
        else if st.1 = stFaulted then faultCmd d c.key (bluFault st.2 4 e.handle) else completeCmd d c.key st.1 0xFFFF
  else
    let n := m.node.toNat
    let e := 8 + j
    let id := Config.stepIdentity c.ref c.spec.lineNo j
    if !reachable d n then completeCmd d c.key stUnreachable 0xFFFF
    else if c.sent.contains e then (if hasLeft d n c.key e then after d else d)
    else if !queueRoom d n then noteWait d n
    else
      let d := sendPkt (modCmd d c.key fun c => { c with sent := c.sent ++ [e] }) n
        (.signal m.counter 1 m.cap 2 (BitVec.ofNat 40 c.ref) id.1 id.2) (some (c.key, e))
      if hasLeft d n c.key e then after d else d

/-- A collective goes one stage on: the wait, the descriptors, the signal of a ring step (R293). [log 36 DEDUCED unsafe] -/
def collectiveOp (d : Dev) (k : CmdId) (r : Nat) (g : GroupTable) : Dev :=
  withCmd d k fun c =>
    match c.spec.op with
    | .call r' _ =>
      if r' ≠ r || c.phase ≠ .issued || c.status.isSome then d
      else
        let g' := c.group.getD g
        let steps := ringSteps r g'
        if c.step = 0 then modCmd d k fun c => { c with group := some g, step := 1 }
        else if (c.step - 1) % 3 = 0 then ringTake d c g'
        else if (c.step - 1) % 3 = 1 then (if tilesDone d c then modCmd d k fun c => { c with step := c.step + 1 } else d)
        else ringPut d c g' steps
    | _ => d

/-- A group table the manual defines: 2 to 4,096 members, SELF among them (R293). [log 73 DESIGN CHOICE safe] -/
def groupOk (g : GroupTable) : Bool := 2 ≤ g.members.length && g.members.length ≤ 4096 && g.self.toNat < g.members.length

/-- The group table that a routine works with: the one it reads, or where that is out of range a free value.
[log 73 DESIGN CHOICE safe] -/
def groupOf (g : GroupTable) : GroupTable :=
  if groupOk g then g
  else
    let n := g.members.length
    { members := (Config.groupMembers n g.self.toNat).map fun m => ⟨m.1, m.2.1, m.2.2.1, m.2.2.2⟩, self := Config.groupSelf n g.self.toNat }

/-- ALL_REDUCE (R293). [log 36 DEDUCED unsafe] -/
def execAllReduce (c : CmdId) (g : GroupTable) (s : State) : Host.Outcome State Fault Refusal :=
  onUnit 8 (fun d => collectiveOp d c 2 (groupOf g)) s
/-- ALL_GATHER (R293). [log 36 DEDUCED unsafe] -/
def execAllGather (c : CmdId) (g : GroupTable) (s : State) : Host.Outcome State Fault Refusal :=
  onUnit 8 (fun d => collectiveOp d c 3 (groupOf g)) s
/-- REDUCE_SCATTER (R293). [log 36 DEDUCED unsafe] -/
def execReduceScatter (c : CmdId) (g : GroupTable) (s : State) : Host.Outcome State Fault Refusal :=
  onUnit 8 (fun d => collectiveOp d c 4 (groupOf g)) s
/-- BROADCAST (R293). [log 36 DEDUCED unsafe] -/
def execBroadcast (c : CmdId) (g : GroupTable) (s : State) : Host.Outcome State Fault Refusal :=
  onUnit 8 (fun d => collectiveOp d c 5 (groupOf g)) s

end Sys2Proof.Machine
end

