-- ==== Sys2Proof/Machine/Moorings.lean ====
section
/-!
DEFINITION. Moorings (13 R227 to R241): references, loads, poison and repair, and the command of the MMG page.
-/

namespace Sys2Proof.Machine

/-- A granule (13, The mooring arena). -/
def granule : Nat := 0x200000

def granulesOf (size : Nat) : Nat := ceilDiv size granule

/-- Granules of the arena. -/
def arenaGranules (d : Dev) : Nat := d.scu.cfg.arenaSize / granule

/-! ### MOOR and UNMOOR (R231, R232) -/

def moorFault (d : Dev) (k : CmdId) (cause : Nat) (m : Option Nat) : Dev :=
  faultCmd d k { cause := cause, unit := 11, argA := m.getD 0xFFFFFFFF }

/-- The MOOR record of a reference created or removed (R247). -/
def moorRec (d : Dev) (ctx m : Nat) (created : Bool) (backing : Nat) : LogRec :=
  .moor ctx m created (moorAt d m).st.code backing

/-- A reference is created (R230); the command completes OK. -/
def addRef (d : Dev) (c : Cmd) (m backing : Nat) : Dev :=
  let slot := freeSlot d.mmg.refs
  let d := modMmg d fun g => { g with refs := g.refs ++ [{ ctx := c.ctx, moor := m, backing := backing, slot := slot }]
                                      dirtyRefs := g.dirtyRefs.filter (· ≠ slot) ++ [slot] }
  let d := modCtx d (ctxIdx c.ctx) fun x => { x with mooringsHeld := x.mooringsHeld + 1 }
  finishOk (modCmd d c.key fun c => { c with pre := [moorRec d c.ctx m true backing] }) c.key

/-- The lowest record in FREE. [log 48 DEDUCED unsafe] -/
def freeMoor (d : Dev) : Option Nat := (List.range 4096).find? fun m => (moorAt d m).st = .free

def refStoreFull (d : Dev) : Bool := 262144 ≤ d.mmg.refs.length

/-- [log 48 DEDUCED unsafe] -/
def moorOp (d : Dev) (c : Cmd) (key : W64) (backing size : Nat) : Dev :=
  if key = 0 || backing % 64 ≠ 0 || size = 0 || size % 64 ≠ 0 then moorFault d c.key 0x64 none
  else if arenaGranules d < granulesOf size then moorFault d c.key 0x63 none
  else match mooringOf d c.ctx key with
    | some m =>
      if (moorAt d m).size ≠ size then moorFault d c.key 0x61 (some m)
      else if holdsRef d c.ctx m then finishOk (incSat d fMmgHits) c.key
      else if refStoreFull d then moorFault d c.key 0x62 (some m)
      else addRef (incSat d fMmgHits) c m backing
    | none =>
      match (if refStoreFull d then none else freeMoor d) with
      | none => moorFault d c.key 0x62 none
      | some m =>
        let x := cmdCtx d c
        let r : Mooring := { key := key, sealCtx := if x.secrecy = .sealed then c.ctx else 0,
                             pid := if x.secrecy = .sealed then 0 else x.pid, st := .queued, size := size, order := d.mmg.order }
        let d := modMmg (putMoor d m r) fun g => { g with order := g.order + 1, dirty := g.dirty.filter (· ≠ m) ++ [m] }
        addRef (incSat d fMmgMisses) c m backing

/-- MOOR (R231). -/
def execMoor (c : CmdId) (s : State) : Host.Outcome State Fault Refusal :=
  onUnit 11 (fun d => atIssue d c fun x => match x.spec.op with
    | .moor key backing size => moorOp d x key backing size
    | _ => d) s

/-- A reference is removed; the mooring goes to FREE where nothing holds it (R230, R232). -/
def dropRef (d : Dev) (ctx m : Nat) : Dev :=
  let d := modMmg d fun g =>
    let gone := fun (x : MoorRef) => x.ctx = ctx && x.moor = m
    let ns := (g.refs.filter gone).map (·.slot)
    { g with refs := g.refs.filter fun x => !gone x, dirtyRefs := (g.dirtyRefs.filter fun n => !ns.contains n) ++ ns }
  settleMoor (modCtx d (ctxIdx ctx) fun x => { x with mooringsHeld := x.mooringsHeld - 1 }) m

def unmoorOp (d : Dev) (c : Cmd) (key : W64) : Dev :=
  match mooringOf d c.ctx key with
  | none => moorFault d c.key 0x60 none
  | some m =>
    match d.mmg.refs.find? fun x => x.ctx = c.ctx && x.moor = m with
    | none => moorFault d c.key 0x60 (some m)
    | some x =>
      let r := moorRec (dropRef d c.ctx m) c.ctx m false x.backing
      finishOk (dropRef (modCmd d c.key fun c => { c with pre := [r] }) c.ctx m) c.key

/-- UNMOOR (R232). -/
def execUnmoor (c : CmdId) (s : State) : Host.Outcome State Fault Refusal :=
  onUnit 11 (fun d => atIssue d c fun x => match x.spec.op with
    | .unmoor key => unmoorOp d x key
    | _ => d) s

/-- Every reference of a context is removed at its teardown (R230). -/
def dropRefs (d : Dev) (ctx : Nat) : Dev :=
  ((d.mmg.refs.filter fun x => x.ctx = ctx).map (·.moor)).foldl (fun d m => dropRef d ctx m) d

/-! ### Loads (R234 to R236) -/

/-- States in which a mooring holds granules. -/
def Mooring.placed (r : Mooring) : Bool := r.st ≠ .free && r.st ≠ .queued

/-- Is granule `g` of the arena held? -/
def granuleHeld (d : Dev) (g : Nat) : Bool :=
  d.mmg.moors.any fun e => e.2.placed && e.2.off ≤ g * granule && g * granule < e.2.off + granulesOf e.2.size * granule

/-- First fit for `n` contiguous granules: ends of held runs and the start of the arena are where a fit can begin.
[log 48 DEDUCED unsafe] -/
def fitFor (d : Dev) (n : Nat) : Option Nat :=
  let starts := 0 :: (d.mmg.moors.filter fun e => e.2.placed).map fun e => e.2.off / granule + granulesOf e.2.size
  let free := fun (g : Nat) => g + n ≤ arenaGranules d && !d.mmg.moors.any fun e =>
    e.2.placed && e.2.off < (g + n) * granule && g * granule < e.2.off + granulesOf e.2.size * granule
  (starts.filter free).foldl (fun m g => match m with | none => some g | some x => some (min x g)) none

/-- The idle mooring used longest ago. -/
def idleMoor (d : Dev) : Option Nat :=
  ((d.mmg.moors.filter fun e => e.2.st = .resident && e.2.uses = 0 && refsOf d e.1 = 0).foldl
    (fun (m : Option (Nat × Mooring)) e => match m with
      | none => some e
      | some x => if e.2.lastUse < x.2.lastUse then some e else some x) none).map (·.1)

/-- Evictions until `n` granules fit (R234); none where no fit can be made. [log 48 DEDUCED unsafe] -/
def makeRoom : Nat → Dev → Nat → Option (Dev × Nat)
  | 0, d, n => (fitFor d n).map fun g => (d, g)
  | k + 1, d, n =>
    match fitFor d n with
    | some g => some (d, g)
    | none => match idleMoor d with
      | some m => makeRoom k (incSat (setMoor d m {}) fMmgEvictions) n
      | none => none

/-- References of a mooring whose context is LIVE, oldest first. -/
def liveRefs (d : Dev) (m : Nat) : List MoorRef := d.mmg.refs.filter fun x => x.moor = m && ctxLive d x.ctx

/-- Where the load or repair of a mooring stands: offset of the next line, and the end of what is under way. -/
def loadPoint (r : Mooring) : Nat × Nat :=
  match r.st, r.repair with
  | .loading, _ => (r.loaded, r.size)
  | .poisoned, g :: _ => (g * granule + r.loaded, min r.size ((g + 1) * granule))
  | _, _ => (0, 0)

/-- The read of the next line of a load or repair leaves, with the tags of its loader, which is LIVE (R235, R66). -/
def askMoorLine (d : Dev) (m : Nat) : Dev :=
  let r := moorAt d m
  let (o, e) := loadPoint r
  let x := ctxAt d (ctxIdx r.loader)
  if o < e && ctxLive d r.loader then memReq d (.moorRead x.asid x.keyid x.pid (r.source + o)) else d

/-- A load or repair begins, or begins again, from a reference. -/
def loadFrom (d : Dev) (m : Nat) (x : MoorRef) : Dev :=
  askMoorLine (putMoor d m { moorAt d m with loader := x.ctx, source := x.backing, loaded := 0 }) m

/-- MOORING_LOAD_START (R234): the QUEUED mooring that was moored first takes its granules. [log 48 DEDUCED unsafe] -/
def loadStart (d : Dev) (m : Nat) : Dev :=
  let r := moorAt d m
  if r.st ≠ .queued || flag d (fQuiesced 8) || d.mmg.moors.any (fun e => e.2.st = .queued && e.2.order < r.order) then d
  else match liveRefs d m with
    | [] => d
    | x :: _ => match makeRoom d.mmg.moors.length d (granulesOf r.size) with
      | some (d, g) => loadFrom (setMoor d m { r with st := .loading, off := g * granule, loaded := 0, fullReported := false }) m x
      | none =>
        if r.fullReported then d else raiseEvent (putMoor d m { r with fullReported := true }) 8 2

/-- MOORING_LOAD_START (R234). -/
def execMooringLoadStart (m : BitVec 12) (s : State) : Host.Outcome State Fault Refusal :=
  onUnit 11 (fun d => loadStart d m.toNat) s

/-- MOORING_LOAD_LINE (R235): a line of the backing copy is written through LOAD_VA, and the next is asked for. A loader that is no longer
LIVE has had its turn (R236, R66). -/
def loadLine (d : Dev) (m : Nat) (l : Line) : Dev :=
  let r := moorAt d m
  let (o, e) := loadPoint r
  if e ≤ o || !ctxLive d r.loader then d
  else
    let x := ctxAt d (ctxIdx r.loader)
    let d := memReq d (.moorWrite x.asid x.keyid x.pid (d.scu.cfg.loadVa + r.off + o) l)
    askMoorLine (putMoor d m { r with loaded := r.loaded + 64 }) m

def execMooringLoadLine (m : BitVec 12) (line : Line) (s : State) : Host.Outcome State Fault Refusal :=
  onUnit 11 (fun d => loadLine d m.toNat line) s

/-- MOORING_LOADED (R235): every write is acknowledged. Held commands are released: the HMS grants them ahead of new picks (R233). -/
def moorLoaded (d : Dev) (m : Nat) : Dev :=
  let r := moorAt d m
  if r.st = .loading && r.size ≤ r.loaded then setMoor d m { r with st := .resident } else d

def execMooringLoaded (m : BitVec 12) (s : State) : Host.Outcome State Fault Refusal :=
  onUnit 11 (fun d => moorLoaded d m.toNat) s

/-- The commands that poison has affected and whose tiles have drained go on, each as its moorings allow (R239). -/
def settleAffected (d : Dev) : Dev :=
  ((d.cmds.filter fun c => c.phase = .affected).map (·.key)).foldl (fun d k => withCmd d k (affectedDone d)) d

/-- A mooring is LOST (R236, R239): MMG event 1; commands held for it, and affected ones that have drained, complete POISONED.
[log 48 DEDUCED unsafe] -/
def loseMoor (d : Dev) (m : Nat) : Dev :=
  let d := raiseEvent (setMoor d m { moorAt d m with st := .lost, repair := [], loaded := 0 }) 8 1
  let held := d.cmds.filter fun c => c.phase = .moorHeld && ctxLive d c.ctx && c.named.contains m
  settleAffected (held.foldl (fun d c => completeCmd d c.key stPoisoned 0) d)

/-- No LIVE reference is left to load or repair from: LOST with references, FREE without (R236). What was affected and has drained
completes POISONED in both cases. [log 48 DEDUCED unsafe] -/
def noSource (d : Dev) (m : Nat) : Dev :=
  if refsOf d m = 0 then settleAffected (setMoor d m {}) else loseMoor d m

/-- The reference after the loader in age order whose context is LIVE (R236). -/
def nextRef (d : Dev) (m : Nat) : Option MoorRef :=
  let rs := d.mmg.refs.filter fun x => x.moor = m
  let loader := (moorAt d m).loader
  let after := if rs.any fun x => x.ctx = loader then (rs.dropWhile fun x => x.ctx ≠ loader).drop 1 else rs
  after.find? fun x => ctxLive d x.ctx

/-- LOAD_RESTART (R236): a read of the loader's copy failed, or its context entered DYING. -/
def loadRestart (d : Dev) (m : Nat) (resp : MemResp) : Dev :=
  let r := moorAt d m
  let (o, e) := loadPoint r
  if e ≤ o || (resp = .ok && ctxLive d r.loader) then d
  else
    let d := memErr d 8 resp (r.source + o)
    match nextRef d m with
    | some x => loadFrom (incSat d fMmgRestarts) m x
    | none => noSource d m

def execLoadRestart (m : BitVec 12) (r : MemResp) (s : State) : Host.Outcome State Fault Refusal :=
  onUnit 11 (fun d => loadRestart d m.toNat r) s

/-! ### Poison and repair (R237 to R239) -/

/-- The repair of the granule recorded first begins (R238), unless the MMG is quiesced (R241). [log 48 DEDUCED unsafe] -/
def startRepair (d : Dev) (m : Nat) : Dev :=
  let r := moorAt d m
  if r.st ≠ .poisoned || r.repair.isEmpty || r.loaded ≠ 0 || flag d (fQuiesced 8) then d
  else match liveRefs d m with
    | x :: _ => loadFrom d m x
    | [] => if refsOf d m = 0 && r.uses ≠ 0 then askMoorLine d m else noSource d m

/-- The mooring whose granules hold an arena address. -/
def moorAtAddr (d : Dev) (a : Nat) : Option Nat :=
  let o := a - d.scu.cfg.arenaVa
  (d.mmg.moors.find? fun e => e.2.placed && e.2.off ≤ o && o < e.2.off + granulesOf e.2.size * granule).map (·.1)

/-- A command that reads poison in the arena is affected: it emits nothing more, and its launched tiles drain (R237). -/
def affect (d : Dev) (k : CmdId) (m : Option Nat) : Dev :=
  withCmd d k fun c =>
    let hit := c.hit.filter (fun x => some x ≠ m) ++ m.toList
    if c.status.isSome then d
    else if c.phase = .affected then modCmd d k fun c => { c with hit := hit }
    else if !(c.phase = .issued || c.phase = .preempting || c.phase = .preempted) then d
    else
      let d := discardQueued (stopSequencers (freeSave d k) k) k
      modCmd d k fun c => { c with phase := .affected, slices := [], grant := [], hit := hit }

/-- MOORING_POISON (R237): the oldest report a quay has passed on. An address of the arena in no mooring's granules leaves every mooring
as it is; the command is affected all the same. [log 48 DEDUCED unsafe] -/
def poisonOp (d : Dev) : Dev :=
  match d.mmg.poison with
  | [] => d
  | (k, a) :: rest =>
    let d := modMmg d fun g => { g with poison := rest }
    match moorAtAddr d a with
    | none => withCmd (affect d k none) k fun c => affectedDone (affect d k none) c
    | some m =>
      let r := moorAt d m
      let g := (a - d.scu.cfg.arenaVa - r.off) / granule
      let fresh := r.repair.isEmpty
      let d := setMoor d m { r with st := if r.st = .resident then .poisoned else r.st, poisons := r.poisons + 1,
                                    repair := if r.repair.contains g then r.repair else r.repair ++ [g],
                                    loaded := if fresh then 0 else r.loaded }
      let d := raiseEvent (incWrap (setFld (setFld d fMmgPoisonIndex m) fMmgPoisonGranule g) fMmgPoisonSeq) 8 0
      let d := affect d k (some m)
      let d := if fresh then startRepair d m else d
      withCmd d k fun c => affectedDone d c

/-- MOORING_POISON (R237). -/
def execMooringPoison (s : State) : Host.Outcome State Fault Refusal := onUnit 11 poisonOp s

/-- GRANULE_REPAIRED (R238): every write of the granule is acknowledged. After the last, the mooring is RESIDENT. -/
def granuleDone (d : Dev) (m : Nat) : Dev :=
  let r := moorAt d m
  let (o, e) := loadPoint r
  if r.st ≠ .poisoned || r.repair.isEmpty || o < e then d
  else
    let rest := r.repair.drop 1
    let d := setMoor d m { r with repair := rest, loaded := 0, st := if rest.isEmpty then .resident else .poisoned }
    if rest.isEmpty then settleAffected d else startRepair d m

def execGranuleRepaired (m : BitVec 12) (s : State) : Host.Outcome State Fault Refusal :=
  onUnit 11 (fun d => granuleDone d m.toNat) s

/-- A quiesce of the MMG ends: repairs that waited begin. -/
def mmgRelease (d : Dev) : Dev := (d.mmg.moors.map (·.1)).foldl startRepair d

/-- After a reset, loads begin anew and repairs go on with the granules they have recorded (13, Same-step coincidences). -/
def restartLoads (d : Dev) : Dev :=
  (d.mmg.moors.map (·.1)).foldl (fun d m =>
    if (moorAt d m).st = .loading then
      match liveRefs d m with
      | x :: _ => loadFrom d m x
      | [] => noSource d m
    else startRepair d m) d

/-! ### MMG_READ (R241) -/

/-- A command of MMG_CMD: READ copies the record to the staging area; that of a Sealed domain is refused in every state (20 R348).
 -/
def mmgCmd (d : Dev) (op m : Nat) : Dev :=
  let ended := fun (d : Dev) (res : Nat) => incWrap (setFld d fMmgResult res) fMmgSeq
  if op ≠ 1 then ended d 2
  else if (moorAt d m).sealCtx ≠ 0 then ended (countRefused d) 3
  else ended ((List.range 32).foldl (fun d i => setReg d 8 (0x100 + 8 * i) ((moorWords d m).getD i 0)) d) 0

/-- A write of MMG_CMD: BUSY until the command is carried out; one that arrives meanwhile is discarded, with LOST (R241).
[log 9 DEDUCED safe] -/
def mmgWrite (d : Dev) (op : Nat) : Dev :=
  if flag d fMmgBusy then setFld d fMmgLost 1
  else modMmg (setFld d fMmgBusy 1) fun g => { g with cmd := some (op, fld d fMmgSel) }

/-- The command that waits is carried out. [log 9 DEDUCED safe] -/
def mmgDone (d : Dev) : Dev :=
  match d.mmg.cmd with
  | some (op, m) => setFld (mmgCmd (modMmg d fun g => { g with cmd := none }) op m) fMmgBusy 0
  | none => d

/-- MMG_READ (R241): the command that waits is carried out; where none does, the row stands for the write of READ and what it does.
[log 9 DEDUCED safe] -/
def execMmgRead (s : State) : Host.Outcome State Fault Refusal :=
  onUnit 11 (fun d => if d.mmg.cmd.isSome then mmgDone d else mmgCmd d 1 (fld d fMmgSel)) s

end Sys2Proof.Machine
end

