-- ==== Sys2Proof/Machine/Reset.lean ====
section
/-!
DEFINITION. Reset sources, the way into reset, pilot lock-up, the clock monitor and the watchdog (19 R321 to R325, R333 to
R336).
-/

namespace Sys2Proof.Machine

/-! ### Cold resets (R324) -/

/-- POWER_ON_RESET (R321, R324). -/
def execPowerOnReset (s : State) : Host.Outcome State Fault Refusal := onDev (fun d => coldReset d 1) s

/-- BROWN_OUT_RESET (R321, R324). -/
def execBrownOutReset (s : State) : Host.Outcome State Fault Refusal := onDev (fun d => coldReset d 2) s

/-- PIN_RESET (R321, R324). -/
def execPinReset (s : State) : Host.Outcome State Fault Refusal := onDev (fun d => coldReset d 3) s

/-- COLD_RESET_RELEASE (R326): the SCU leaves reset and requests the configuration (R328). -/
def execColdResetRelease (s : State) : Host.Outcome State Fault Refusal :=
  onDev (fun d =>
    if d.scu.up then d
    else requestConfig (modScu d fun s => { s with up := true, rst := .release, lastOrder := 1, rstStart := d.now })) s

/-! ### Block-alone resets -/

/-- SCU_RST_CMD (R341): OP 1 BLOCK, 2 BLOCK_RELOAD; KEY must be 0xB10C. `dbg` says that the debug access port wrote it:
the source is then the debug request (R321). -/
def rstCmd (d : Dev) (key op : Nat) (dbg : Bool) : Dev :=
  if key ≠ 0xB10C || (op ≠ 1 && op ≠ 2) then d
  else if dbg then (if admits d 5 1 then beginReset d 6 0 true (op = 2) else countRefused d)
  else beginReset d 5 0 true (op = 2)

/-- BLOCK (R321). -/
def execBlock (key : BitVec 16) (s : State) : Host.Outcome State Fault Refusal :=
  onUnit 13 (fun d => rstCmd d key.toNat 1 false) s

/-- BLOCK_RELOAD (R321). -/
def execBlockReload (key : BitVec 16) (s : State) : Host.Outcome State Fault Refusal :=
  onUnit 13 (fun d => rstCmd d key.toNat 2 false) s

/-- DEBUG_RESET (R321, R348): a rise of dbg_rst_req; ignored and counted where it is not admitted. -/
def execDebugReset (s : State) : Host.Outcome State Fault Refusal :=
  onUnit 13 (fun d => if admits d 5 1 then beginReset d 6 0 true false else countRefused d) s

/-- IDLE_REQUEST (R323 step 1, R214): interrupt delivery stops, every quay drains all work, and preemptions end. -/
def idleRequest (d : Dev) : Dev :=
  if d.scu.rst ≠ .ask then d
  else
    let d := modScu d fun s => { s with rst := .idle, rstStart := d.now }
    let d := if d.scu.goingOff then d
      else
        let d := modHms d fun h => { h with save := [] }
        { d with cmds := d.cmds.map fun c => { c with saveSlot := none },
                 btc := { d.btc with ctx := d.btc.ctx.map fun e => (e.1, { e.2 with save := [] }) } }
    (List.range 56).foldl (fun d q => requestDrain d q .all .reset) d

def execIdleRequest (s : State) : Host.Outcome State Fault Refusal := onUnit 13 idleRequest s

/-- Does every unit report idle: the drains have ended and the journal is durable (R323)? -/
def allIdle (d : Dev) : Bool := (drainsOpen d).isEmpty && d.lbu.durable = d.lbu.nextLsn

/-- IDLE_COMPLETE (R323): the step ends with the final checkpoint, or at IDLE_TMO_US; the park begins (R23). -/
def idleComplete (d : Dev) : Dev :=
  if d.scu.rst ≠ .idle then d
  else if allIdle d then
    modScu (finalCkpt d) fun s => { s with rst := .drain, rstStart := d.now }
  else if d.scu.rstStart + us (fld d fIdleTmoUs) ≤ d.now then
    modScu (setFld d fRstIdleTimeout 1) fun s => { s with rst := .drain, rstStart := d.now }
  else d

def execIdleComplete (s : State) : Host.Outcome State Fault Refusal := onUnit 13 idleComplete s

/-- PARK_ESCALATION (R23, R321): a handshake of a pilot's park is open after 64 reference cycles, and the park escalates to a
block-alone reset; within a block-wide reset it is absorbed. [log 16 DEDUCED safe] -/
def execParkEscalation (island : BitVec 4) (s : State) : Host.Outcome State Fault Refusal :=
  if !islandOk island then reservedOp
  else onUnit 13 (fun d =>
    if island = 4 && d.dtc.pilots.any (fun p => p.reset && p.since + 640 ≤ d.now) then beginReset d 0x0A 0 false false else d) s

/-- Every write of the journal has been answered: replay will find every unit (R255 step 4). [log 17 DEDUCED unsafe] -/
def logInMemory (d : Dev) : Dev :=
  if mirrorSt d 0 ≠ 0 && mirrorSt d 1 ≠ 0 then d else modLbu d fun l => { l with durable := l.nextLsn, acked := [] }

/-- MEMORY_DRAIN_DONE (R323 steps 3 and 4): every transaction is answered and reset is asserted; after more than 10 µs the
block enters UNLOADED with MEM_PORT. An Off entry ends here in OFF_READY (R340). -/
def memoryDrained (d : Dev) : Dev :=
  if d.scu.rst ≠ .drain then d
  else if d.scu.rstStart + us 10 < d.now then failLoad d 6
  else
  let d := logInMemory d
  if d.scu.goingOff then
    let d := setFld (setFld (assertReset d false) fPwrState 4) fLoadState 0
    laterTarget (modScu d fun s => { s with rst := .none, goingOff := false })
  else
    let fromHarbour := !d.scu.rstReload
    let d := modScu (assertReset d true) fun s => { s with rst := .release, lastOrder := 1, rstStart := d.now }
    reload d fromHarbour

def execMemoryDrainDone (s : State) : Host.Outcome State Fault Refusal := onUnit 13 memoryDrained s

/-! ### Pilot lock-up (R334) -/

/-- PILOT_LOCKUP (R334): a pilot that is not held by a debug halt and whose island's clock runs. -/
def execPilotLockup (pilot : BitVec 3) (s : State) : Host.Outcome State Fault Refusal :=
  onUnit 13 (fun d =>
    let p := pilot.toNat
    if pilotRuns d p && d.scu.imgVerdict && !inReset d 4 && !fbit d fDozing 4 && fld d fPwrState ≠ 3
    then lockupPilot d p else d) s

/-- PILOT_RELOAD_DONE (R334 step 4). -/
def execPilotReloadDone (pilot : BitVec 3) (s : State) : Host.Outcome State Fault Refusal :=
  onUnit 13 (fun d =>
    let p := pilot.toNat
    if (at' {} d.dtc.pilots p).reset && !fbit d fPilotOut p then
      let d := modPilot d p fun q => { q with reset := false }
      let d := modScu d fun s => { s with pilotRel := modAt s.pilotRel p fun _ => max 1 (tideW d) }
      raiseEvent (incSat d fPilotResets) 0 5
    else d) s

/-! ### The clock monitor (R335) -/

/-- CLOCK_FAILURE (R335): an island other than a quay sub-island and the SCU, whose clock is not gated. -/
def execClockFailure (island : BitVec 4) (s : State) : Host.Outcome State Fault Refusal :=
  if !islandOk island then reservedOp
  else onUnit 13 (fun d =>
    let u := island.toNat
    if u = 9 || u = 13 || fbit d fDozing u || inReset d u || (fld d fPwrState = 3 && u ≠ 1) then d
    else beginReset (setBit d fClkFail u) 7 u false false) s

/-! ### The watchdog (R336) -/

/-- Do debug halts hold every firmware pilot? -/
def firmwareHeld (d : Dev) : Bool :=
  (rolePilots d false).all fun p => fbit d fDtcHalted p

/-- The watchdog counts: enabled, in REPLAY or LOADED, in Run or Trim, no reset in progress, not held by a halt. -/
def wdogRuns (d : Dev) : Bool :=
  flag d fWdogEn && loaded d && fld d fPwrState ≤ 1 && d.scu.rst = .none && !firmwareHeld d

/-- Time counted since the last restart, in ns. -/
def wdogCount (d : Dev) : Nat := d.now - d.scu.wdogStart

/-- WATCHDOG_EXPIRY (R336): a full TMO_MS. -/
def execWatchdogExpiry (s : State) : Host.Outcome State Fault Refusal :=
  onUnit 13 (fun d =>
    if wdogRuns d && fld d fWdogTmoMs * 1000000 ≤ wdogCount d then beginReset d 4 0 true false else d) s

/-- WDOG_WARN (R336): half of TMO_MS, once. -/
def execWdogWarn (s : State) : Host.Outcome State Fault Refusal :=
  onUnit 13 (fun d =>
    if wdogRuns d && !d.scu.wdogWarned && fld d fWdogTmoMs * 500000 ≤ wdogCount d then
      raiseEvent (modScu d fun s => { s with wdogWarned := true }) 0 7
    else d) s

/-- WATCHDOG_RESTART (R336): firmware on any firmware pilot. -/
def execWatchdogRestart (pilot : BitVec 3) (s : State) : Host.Outcome State Fault Refusal :=
  onUnit 13 (fun d =>
    let p := pilot.toNat
    if !isTranslator d p && pilotRuns d p && d.scu.imgVerdict && !inReset d 4 then
      modScu d fun s => { s with wdogStart := d.now, wdogWarned := false }
    else d) s

end Sys2Proof.Machine
end

