-- ==== Sys2Proof/Machine/Clock.lean ====
section
/-!
DEFINITION. The clock. The manual gives the block a tide counter at 1 GHz (R291) and timers; the command table has no row for
a tick, so a step with no command waiting lets one nanosecond pass. Every row tied to a time acts only once that time has come.
-/

namespace Sys2Proof.Machine

/-- The tide counter after one nanosecond (R291): it follows ref_clk while the SCU runs, stands while an adjustment backwards holds
it, and slews by one tick in 4,000, which is 250 ppm. [log 1 DESIGN CHOICE unsafe, 53 DEDUCED unsafe] -/
def tideTick (d : Dev) : Dev :=
  let t := (d.tide + 1) % 2 ^ 64
  if !d.scu.up || d.now ≤ d.fsa.holdUntil then d
  else if d.fsa.slew = 0 || d.now < d.fsa.slewAt + 4000 then { d with tide := t }
  else if 0 < d.fsa.slew then
    { d with tide := (t + 1) % 2 ^ 64, fsa := { d.fsa with slew := d.fsa.slew - 1, slewAt := d.now } }
  else { d with fsa := { d.fsa with slew := d.fsa.slew + 1, slewAt := d.now } }

/-- A watchdog that is enabled in a loaded block but may not count stands (R336). [log 1 DESIGN CHOICE unsafe] -/
def wdogTick (d : Dev) : Dev :=
  if flag d fWdogEn && loaded d && !wdogRuns d then modScu d fun s => { s with wdogStart := s.wdogStart + 1 } else d

/-- Is a descriptor of a quay held by the pacing limit (R220)? -/
def paceHeld (d : Dev) (q : Nat) : Bool :=
  let u := quayAt d q
  u.offered.isNone && u.queue.any fun x => mayOffer d q x && !paceOk u q x.skind

/-- The counters that count tide ticks (R367): of a quay, and of the latest command of a berth.
[log 1 DESIGN CHOICE unsafe, 59 DEDUCED unsafe] -/
def countTicks (d : Dev) : Dev :=
  let d := (List.range 56).foldl (fun d q =>
    let u := quayAt d q
    let d := if u.out.isEmpty then d else count d 2 q 1
    if u.queue.isEmpty || !paceHeld d q then d else count d 2 q 2) d
  (d.cmds.filter fun c => c.isIssued && !c.isComplete).foldl (fun d c => countLatest d c.key 3 1) d

/-- One nanosecond passes. [log 1 DESIGN CHOICE unsafe, 70 DESIGN CHOICE unsafe] -/
def tick (d : Dev) : Dev := countTicks (mmgDone (wdogTick (tideTick { d with now := d.now + 1 })))

end Sys2Proof.Machine
end

