-- ==== Sys2Proof/Machine/Cycles.lean ====
section
/-!
DEFINITION. The detection of wait cycles (11 R190 to R201): enablers, searches in three laps, queries of other nodes, verdicts.
-/

namespace Sys2Proof.Machine

/-! ### Waiters and enablers (R190) -/

/-- The waiter of a berth: its command with a registered, unmet entry, and that entry. -/
def waiterOf (d : Dev) (b : Nat) : Option (Cmd × SyncEnt) :=
  match d.cmds.find? fun c => c.berth = b && c.regd with
  | some c => some (c, c.spec.waits.getD c.met noEnt)
  | none => none

/-- Could a declared signal meet a wait with this condition and VALUE? -/
def couldMeet (cond : Nat) (v : W64) (e : SyncEnt) : Bool :=
  e.code = cond && (if cond = 1 then sub64 e.value v < 2 ^ 63 else if cond = 2 then e.value ≠ 0
    else if cond = 3 then e.value.toNat % 2 ^ 32 = v.toNat % 2 ^ 32 else true)

/-- Does a command declare an entry that could meet a wait on a bollard of node `n`: a signal not applied yet, or a BARRIER_PASS not
yet registered? -/
def declares (c : Cmd) (n h cond : Nat) (v : W64) : Bool :=
  let on := fun (e : SyncEnt) => e.node = n && e.handle = h && couldMeet cond v e
  ((List.range c.spec.sigs.length).any fun i => on (c.spec.sigs.getD i noEnt) && !c.applied.contains (4 + i)) ||
    (cond = 3 && (List.range c.spec.waits.length).any fun i => on (c.spec.waits.getD i noEnt) && !c.applied.contains i &&
      (c.met < i || (c.met = i && !c.regd)))

/-- Accepted, incomplete commands that could meet a wait. -/
def enablers (d : Dev) (n h cond : Nat) (v : W64) : List Cmd :=
  d.cmds.filter fun c => !c.isComplete && declares c n h cond v

/-- A blocked enabler stands at or behind the waiter of its own berth (R190). -/
def blockedAt (d : Dev) (c : Cmd) : Bool :=
  match waiterOf d c.berth with
  | some (w, _) => !(earlier d w).any fun x => x.key = c.key
  | none => false

/-- What an examination finds: open, or the berths whose waiters are to be followed and the nodes to be asked. -/
inductive Exam where
  | opened
  | next (kids outs : List Nat)
  deriving DecidableEq, Repr

/-- Local enablers of a bollard of node `n`. -/
def examDecl (d : Dev) (n h cond : Nat) (v : W64) : Exam :=
  let es := enablers d n h cond v
  if es.all (blockedAt d) then .next (es.map (·.berth)).eraseDups [] else .opened

/-- A bollard at its owner (R191, R196): HOST_SIG, local enablers, and the nodes to which CAP is exported. -/
def examBol (d : Dev) (h cond : Nat) (v : W64) : Exam :=
  let r := bolAt d (bolIdx h)
  if !bolOk d h || r.state = .abandoned || r.hostSig then .opened
  else match examDecl d 0 h cond v with
    | .opened => .opened
    | .next kids _ =>
      let outs := if r.cap = 0 then [] else (d.fsa.exports.filter fun e => e.1 = h).map (·.2)
      if kids.isEmpty && outs.isEmpty then .opened else .next kids outs

/-! ### Records -/

def partsOfKey (d : Dev) (k : SearchKey) : List Part := d.blu.parts.filter fun p => p.key = k

def putPart (d : Dev) (old : Option Part) (p : Part) : Dev :=
  modBlu d fun b => { b with parts := (match old with | some o => b.parts.filter (· ≠ o) | none => b.parts) ++ [p] }

def gverOf (d : Dev) (n h : Nat) : Nat := tget 0 d.blu.gver (n * 2 ^ 32 + h)

/-- Is a berth the initiator of a search? -/
def isInitiator (d : Dev) (k : SearchKey) (b : Nat) : Bool :=
  k.node.toNat = fld d fFsaId && k.berth.toNat = berthHandle b (berthAt d b).gen

/-- How a query, or a part of one, ends where it does not go on. -/
inductive Stop where
  | opened | abort
  deriving DecidableEq, Repr

/-- May fabric queries of a search be sent and answered: FABRIC_EN, as it was when a search of this node started, or when the first query of
another node's came (R196, R201)? [log 47 DEDUCED unsafe] -/
def fabricOn (d : Dev) (k : SearchKey) : Bool :=
  match d.blu.searches.find? fun s => s.key = k with
  | some s => s.fabric
  | none => !(partsOfKey d k).isEmpty || flag d fBluFabricEn

/-- The query that a record sends: about its bollard at the owner, or about its declared entries elsewhere (R196). -/
def Part.query (d : Dev) (p : Part) (lap : Nat) : Payload :=
  if p.src.isNone && p.node ≠ 0 then
    .waitQuery p.key (BitVec.ofNat 2 lap) (BitVec.ofNat 32 p.bol) (BitVec.ofNat 32 (berthHandle p.berth (berthAt d p.berth).gen))
  else .declQuery p.key (BitVec.ofNat 2 lap) (BitVec.ofNat 32 p.bol) (BitVec.ofNat 4 p.cond) p.value

/-- Queries leave to other nodes (R196); none goes to a node that is not reachable. [log 47 DEDUCED unsafe] -/
def sendQueries (d : Dev) (p : Part) : Except Stop Dev :=
  if p.outs.isEmpty then .ok d
  else if !fabricOn d p.key then .error .opened
  else if p.outs.all (reachable d) then .ok (p.outs.foldl (fun d n => sendPkt d n (p.query d p.lap)) d)
  else .error .abort

/-- A record made in lap 1, or found unchanged in lap 2, with its queries sent (R195). What lap 2 finds of enablers is found anew; REACH
stays that of lap 1. -/
def keepPart (d : Dev) (old : Option Part) (p : Part) : Except Stop Dev :=
  match old with
  | none =>
    if p.lap ≠ 1 then .error .opened
    else if 4096 ≤ d.blu.parts.length then .error .abort
    else (sendQueries d p).map fun d => putPart d none { p with asked := p.outs }
  | some o =>
    if !(o.ident = p.ident && o.node = p.node && o.bol = p.bol && o.gver = p.gver) then .error .opened
    else (sendQueries d p).map fun d => putPart d (some o) { p with asked := o.asked, reach := o.reach }

/-- A waiter of this node is engaged in the search or the confirm lap, in the tree of query `root` (R195, R196). Answers the berths to
follow; a waiter engaged already is answered at once. -/
def engageOne (d : Dev) (k : SearchKey) (lap root b : Nat) : Except Stop (Dev × List Nat) :=
  let old := (partsOfKey d k).find? fun p => p.src.isNone && p.berth = b
  if old.any fun o => o.lap = lap then .ok (d, [])
  else match waiterOf d b with
    | none => .error .opened
    | some (c, e) =>
      let base : Part := { key := k, lap := lap, root := root, src := none, berth := b, ident := some (c.key, c.met), node := e.node,
                           bol := e.handle, gver := gverOf d e.node e.handle, cond := e.code, value := e.value }
      if e.node ≠ 0 then (keepPart d old { base with outs := [e.node] }).map fun d => (d, [])
      else match examBol d e.handle e.code e.value with
        | .opened => .error .opened
        | .next kids outs =>
          (keepPart d old { base with kids := kids, outs := outs, found := !kids.isEmpty, reach := kids.any (isInitiator d k) }).map
            fun d => (d, kids.filter fun x => !isInitiator d k x)

/-- Waiters are engaged until none is left to follow; each is engaged once a lap. -/
def engage : Nat → Dev → SearchKey → Nat → Nat → List Nat → Except Stop Dev
  | 0, d, _, _, _, _ => .ok d
  | _, d, _, _, _, [] => .ok d
  | n + 1, d, k, lap, root, b :: bs =>
    match engageOne d k lap root b with
    | .error e => .error e
    | .ok (d, more) => engage n d k lap root (bs ++ more)

/-- A record goes into the verdict lap: its queries of lap 1 leave again, to the nodes that can be reached. -/
def toVerdict (d : Dev) (p : Part) (root : Nat) : Dev :=
  let p' := { p with lap := 3, root := root, done := false, outs := p.asked.filter (reachable d) }
  putPart (p'.outs.foldl (fun d n => sendPkt d n (p'.query d 3)) d) (some p) p'

/-- The verdict lap follows what lap 1 recorded, whatever has become of it since (R197, R200). -/
def engage3 : Nat → Dev → SearchKey → Nat → List Nat → Dev
  | 0, d, _, _, _ => d
  | _, d, _, _, [] => d
  | n + 1, d, k, root, b :: bs =>
    match (partsOfKey d k).find? fun p => p.src.isNone && p.berth = b && p.lap ≠ 3 with
    | some p => engage3 n (toVerdict d p root) k root (bs ++ p.kids.filter fun x => !isInitiator d k x)
    | none => engage3 n d k root bs

/-- Engagements one query can lead to. -/
def engageFuel (d : Dev) : Nat := d.cmds.length * d.cmds.length + d.cmds.length + d.blu.parts.length * d.blu.parts.length + 1

/-! ### What the records say -/

/-- Records of waiters reached from some berths within this node. -/
def closureOf (ps : List Part) : Nat → List Nat → List Nat
  | 0, seen => seen
  | n + 1, seen =>
    let more := (ps.filter fun p => p.src.isNone && seen.contains p.berth).flatMap (·.kids)
    let next := (seen ++ more).eraseDups
    if next.length = seen.length then seen else closureOf ps n next

def closure (ps : List Part) (bs : List Nat) : List Part :=
  let all := closureOf ps (ps.length + 1) bs
  ps.filter fun p => p.src.isNone && all.contains p.berth

/-- REACH of a record: of itself, or of one it leads to (R196). -/
def reaches (ps : List Part) (p : Part) : Bool := p.reach || (closure ps p.kids).any (·.reach)

/-- The records of waiters engaged in the tree of a query. -/
def members (ps : List Part) (root : Nat) : List Part := ps.filter fun p => p.src.isNone && p.root = root

/-! ### The end of a search -/

/-- A search ends: its records go, its waiter counts CONFIRM_US anew (R194). -/
def endSearch (d : Dev) (k : SearchKey) : Dev :=
  modBlu d fun b => { b with searches := b.searches.filter fun s => s.key ≠ k
                             parts := b.parts.filter fun p => p.key ≠ k
                             searchAt := tput b.searchAt (berthIdx k.berth.toNat) d.now }

/-- The record of the initiator's own waiter. -/
def rootPart (d : Dev) (k : SearchKey) : Option Part :=
  (partsOfKey d k).find? fun p => p.src.isNone && isInitiator d k p.berth

/-- A lap of a search of this node begins. [log 47 DEDUCED unsafe] -/
def startLap (d : Dev) (k : SearchKey) (lap : Nat) : Except Stop Dev :=
  let d := modBlu d fun b => { b with searches := b.searches.map fun s => if s.key = k then { s with lap := lap } else s }
  let b := berthIdx k.berth.toNat
  if lap = 3 then .ok (engage3 (engageFuel d) d k 0 [b]) else engage (engageFuel d) d k lap 0 [b]

/-- Does a lap of a search wait for no reply: have the queries of the initiator's own tree been answered? -/
def lapQuiet (d : Dev) (k : SearchKey) : Bool := (members (partsOfKey d k) 0).all fun p => p.outs.isEmpty

/-- Every record of the initiator's tree has an enabler, and in lap 1 the initiator is reached: it lies on a cycle of a closed set. -/
def lapBlocked (d : Dev) (k : SearchKey) : Bool :=
  let ps := partsOfKey d k
  match rootPart d k with
  | some r => (members ps 0).all (·.found) && reaches ps r
  | none => false

/-- A lap of a search of this node has all its replies: the next begins, or the search ends without a verdict. A search that asked no
other node makes its confirm lap at the verdict. [log 47 DEDUCED unsafe] -/
def nextLap (d : Dev) (s : Search) : Dev :=
  if !lapQuiet d s.key || s.lap = 3 then d
  else if !lapBlocked d s.key then endSearch d s.key
  else match startLap d s.key (s.lap + 1) with
    | .ok d => d
    | .error _ => endSearch d s.key

/-- A search starts (R194): lap 1. [log 47 DEDUCED unsafe] -/
def startSearch (d : Dev) (b : Nat) : Dev :=
  let k : SearchKey := { node := BitVec.ofNat 32 (fld d fFsaId), berth := BitVec.ofNat 32 (berthHandle b (berthAt d b).gen),
                         num := BitVec.ofNat 32 d.blu.nextSearch }
  let d := modBlu d fun x => { x with nextSearch := (x.nextSearch + 1) % 2 ^ 32,
                                      searches := x.searches ++ [{ key := k, lap := 1, fabric := flag d fBluFabricEn }] }
  match startLap d k 1 with
  | .error _ => endSearch d k
  | .ok d => if lapQuiet d k && !lapBlocked d k then endSearch d k else d

/-- Start of the CONFIRM_US period that runs for a waiter. -/
def periodStart (d : Dev) (b : Nat) (c : Cmd) : Nat := max c.entrySince (tget 0 d.blu.searchAt b)

/-- A waiter whose CONFIRM_US has run starts its search, while CYC_EN is 1; otherwise its periods go on (R194). One blocked on another
entry since has not run it. -/
def tryStart (d : Dev) (b : Nat) (start : Dev → Dev) : Dev :=
  match waiterOf d b with
  | none => d
  | some (c, _) =>
    let t := periodStart d b c + us (fld d fBluConfirmUs)
    if d.now < t then d
    else if !flag d fBluCycEn then modBlu d fun x => { x with searchAt := tput x.searchAt b t }
    else start d

/-- Searches whose start waited for one of the 64 places (R194). [log 47 DEDUCED unsafe] -/
def pumpSearches : Nat → Dev → Dev
  | 0, d => d
  | n + 1, d =>
    if 64 ≤ d.blu.searches.length then d
    else match d.blu.startQ with
      | [] => d
      | b :: r => pumpSearches n (tryStart (modBlu d fun x => { x with startQ := r }) b fun d => startSearch d b)

/-- A waiter joins those whose start waits, in the order of registration (R194). [log 47 DEDUCED unsafe] -/
def queueStart (d : Dev) (b : Nat) : Dev :=
  let since := fun (b : Nat) => match waiterOf d b with | some (c, _) => c.entrySince | none => 0
  modBlu d fun x => { x with startQ := (x.startQ.filter fun y => since y ≤ since b) ++ [b] ++ x.startQ.filter fun y => since b < since y }

/-- SEARCH_START (R194): a waiter has been blocked on the same entry for CONFIRM_US. -/
def searchStartOp (d : Dev) (b : Nat) : Dev :=
  if d.blu.startQ.contains b || d.blu.searches.any fun s => isInitiator d s.key b then d
  else tryStart d b fun d => if 64 ≤ d.blu.searches.length then queueStart d b else startSearch d b

/-- SEARCH_START (R194). -/
def execSearchStart (berth : BitVec 22) (s : State) : Host.Outcome State Fault Refusal :=
  onUnit 6 (fun d => searchStartOp d berth.toNat) s

/-! ### Queries of other nodes (R196) -/

def replyTo (d : Dev) (n : Nat) (k : SearchKey) (lap : Nat) (v : QVerdict) (reach : Bool) : Dev :=
  sendPkt d n (.reply k (BitVec.ofNat 2 lap) v reach)

def Stop.verdict : Stop → QVerdict
  | .opened => .opened | .abort => .abort

/-- Queries of a search that have been answered by everything in their tree are answered themselves (R196); in the verdict lap once the
waiters in it have had their verdict step. -/
def answerRoots (d : Dev) (k : SearchKey) : Dev :=
  let due := (partsOfKey d k).filter fun p => p.src.isSome && !p.done
  due.foldl (fun d p =>
    let ps := partsOfKey d k
    let ms := members ps p.root
    if !p.outs.isEmpty || ms.any (fun q => !q.outs.isEmpty) || (p.lap = 3 && ms.any fun q => !q.done) then d
    else
      let ok := p.lap = 3 || (p.found && ms.all (·.found))
      replyTo (putPart d (some p) { p with done := true }) (p.src.getD 0) k p.lap (if ok then .blocked else .opened) (reaches ps p)) d

/-- Once the verdict lap of another node's search has passed through this one, its records go (R197). [log 47 DEDUCED unsafe] -/
def dropPassed (d : Dev) (k : SearchKey) : Dev :=
  if d.blu.searches.any (fun s => s.key = k) || (partsOfKey d k).any fun p => p.lap ≠ 3 || !p.done then d
  else modBlu d fun b => { b with parts := b.parts.filter fun p => p.key ≠ k }

/-- Part of a query failed: every query of the search not yet answered here ends so, and a search of this node ends (R195). -/
def failSearch (d : Dev) (k : SearchKey) (v : QVerdict) : Dev :=
  let due := (partsOfKey d k).filter fun p => p.src.isSome && !p.done
  let d := due.foldl (fun d p => replyTo (putPart d (some p) { p with done := true, outs := [] }) (p.src.getD 0) k p.lap v false) d
  if d.blu.searches.any fun s => s.key = k then pumpSearches 64 (endSearch d k) else d

/-- Records of earlier searches of the same initiator are dropped when a new one arrives. [log 47 DEDUCED unsafe] -/
def dropOld (d : Dev) (k : SearchKey) : Dev :=
  modBlu d fun b => { b with parts := b.parts.filter fun p => !(p.key.node = k.node && p.key.berth = k.berth && p.key.num ≠ k.num) }

/-- A number for the tree of a query. -/
def freshRoot (d : Dev) : Nat := d.blu.parts.foldl (fun n p => max n p.root) 0 + 1

/-- The record of an earlier lap of a query: from the same node, about the same bollard, of the same waiter. -/
def oldQuery (d : Dev) (k : SearchKey) (src node h waiter lap : Nat) : Option Part :=
  (partsOfKey d k).find? fun p => p.src = some src && p.node = node && p.bol = h && p.berth = waiter && p.lap ≠ lap

/-- A query of lap 1 or 2 is taken: its record, the queries and waiters it leads to, and its answer when nothing is awaited.
[log 47 DEDUCED unsafe] -/
def takeQuery (d : Dev) (src : Nat) (p : Part) (x : Exam) : Dev :=
  let k := p.key
  match x with
  | .opened => replyTo d src k p.lap .opened false
  | .next kids outs =>
    let root := freshRoot d
    let p := { p with root := root, src := some src, gver := gverOf d p.node p.bol, kids := kids, outs := outs, found := !kids.isEmpty,
                      reach := kids.any (isInitiator d k) }
    match keepPart d (oldQuery d k src p.node p.bol p.berth p.lap) p with
    | .error e => replyTo d src k p.lap e.verdict false
    | .ok d =>
      match engage (engageFuel d) d k p.lap root (kids.filter fun b => !isInitiator d k b) with
      | .error e => failSearch d k e.verdict
      | .ok d => answerRoots d k

/-- A query of the verdict lap: it follows the record of the earlier laps; without one there is nothing to complete (R197).
[log 47 DEDUCED unsafe] -/
def takeVerdict (d : Dev) (src : Nat) (k : SearchKey) (node h waiter : Nat) : Dev :=
  match oldQuery d k src node h waiter 3 with
  | none => replyTo d src k 3 .blocked false
  | some p =>
    let root := freshRoot d
    let d := engage3 (engageFuel d) (toVerdict d p root) k root (p.kids.filter fun b => !isInitiator d k b)
    dropPassed (answerRoots d k) k

/-- WAIT_QUERY (R196). [log 47 DEDUCED unsafe] -/
def waitQueryOp (d : Dev) (src : Nat) : Dev :=
  match firstIn d src with
  | some (.waitQuery k lap h waiter) =>
    let d := dropOld (takeIn d src) k
    let l := lap.toNat
    if !fabricOn d k then replyTo d src k l .abort false
    else if l = 3 then takeVerdict d src k 0 h.toNat waiter.toNat
    else
      match d.blu.waits.find? fun w => w.bol = bolIdx h.toNat &&
        (match w.who with | .away n b _ => n = src && b = waiter.toNat | .here .. => false) with
      | none => replyTo d src k l .opened false
      | some w =>
        takeQuery d src { key := k, lap := l, src := none, berth := waiter.toNat, node := 0, bol := h.toNat, gver := 0,
                          cond := w.code, value := w.value } (examBol d h.toNat w.code w.value)
  | _ => d

/-- WAIT_QUERY (R196). -/
def execWaitQuery (src : BitVec 32) (s : State) : Host.Outcome State Fault Refusal :=
  onUnit 6 (fun d => waitQueryOp d src.toNat) s

/-- DECL_QUERY (R196). Where lap 1 found enablers and lap 2 finds none, something has changed (R195). -/
def declQueryOp (d : Dev) (src : Nat) : Dev :=
  match firstIn d src with
  | some (.declQuery k lap h cond v) =>
    let d := dropOld (takeIn d src) k
    let l := lap.toNat
    if !fabricOn d k then replyTo d src k l .abort false
    else if l = 3 then takeVerdict d src k src h.toNat 0
    else match examDecl d src h.toNat cond.toNat v with
      | .next [] _ => replyTo d src k l (if (oldQuery d k src src h.toNat 0 l).isSome then .opened else .empty) false
      | x => takeQuery d src { key := k, lap := l, src := none, node := src, bol := h.toNat, gver := 0, cond := cond.toNat, value := v } x
  | _ => d

/-- DECL_QUERY (R196). -/
def execDeclQuery (src : BitVec 32) (s : State) : Host.Outcome State Fault Refusal :=
  onUnit 6 (fun d => declQueryOp d src.toNat) s

/-- Replies are in: what waited for them goes on. -/
def afterReply (d : Dev) (k : SearchKey) : Dev :=
  let d := answerRoots d k
  match d.blu.searches.find? fun s => s.key = k with
  | some s => pumpSearches 64 (nextLap d s)
  | none => dropPassed d k

/-- REPLY (R196): it answers the oldest query of its search and lap to that node. [log 47 DEDUCED unsafe] -/
def replyOp (d : Dev) (src : Nat) : Dev :=
  match firstIn d src with
  | some (.reply k lap v reach) =>
    let d := takeIn d src
    match (partsOfKey d k).find? fun p => p.lap = lap.toNat && p.outs.contains src with
    | none => d
    | some p =>
      let p' := { p with outs := p.outs.erase src }
      if p.lap = 3 then afterReply (putPart d (some p) p') k
      else match v with
      | .blocked => afterReply (putPart d (some p) { p' with found := true, reach := p.reach || (p.lap = 1 && reach) }) k
      | .empty => afterReply (putPart d (some p) p') k
      | .opened => failSearch d k .opened
      | .abort => failSearch d k .abort
  | _ => d

/-- REPLY (R196). -/
def execReply (src : BitVec 32) (s : State) : Host.Outcome State Fault Refusal :=
  onUnit 6 (fun d => replyOp d src.toNat) s

/-- A node can no longer answer: its queries count as answered ABORT (R196, R200); in the verdict lap nothing more is awaited of it. -/
def nodeGone (d : Dev) (n : Nat) : Dev :=
  (((d.blu.parts.filter fun p => p.outs.contains n).map fun p => (p.key, p.lap)).eraseDups).foldl (fun d e =>
    if e.2 = 3 then
      afterReply (modBlu d fun b => { b with parts := b.parts.map fun p =>
        if p.key = e.1 && p.lap = 3 then { p with outs := p.outs.filter (· ≠ n) } else p }) e.1
    else failSearch d e.1 .abort) d

/-! ### Verdicts (R197, R198) -/

/-- A marked waiter completes DEADLOCK, if its entry is still the one recorded; the owner node of its bollard is told. -/
def deadlockOne (d : Dev) (p : Part) : Dev :=
  match waiterOf d p.berth with
  | some (c, _) =>
    if p.ident ≠ some (c.key, c.met) then d
    else
      let tag := if (ctxAt d (ctxIdx c.ctx)).secrecy = .open && d.scu.sec ≠ 0 then c.spec.tag else 0
      let d := withdrawWaits (withdrawAway d c .deadlock) c.key
      marker (completeCmd d c.key stDeadlock c.met) 2 tag
  | none => d

/-- Waiters of this node that a search has marked, in the verdict lap, before their verdict step: the initiator or the others. -/
def markedParts (d : Dev) (k : SearchKey) (initiator : Bool) : List Part :=
  let ps := partsOfKey d k
  ps.filter fun p => p.src.isNone && p.lap = 3 && !p.done && reaches ps p && isInitiator d k p.berth = initiator

/-- The verdict step of the initiator, or of the other waiters, at this node. -/
def verdictHere (d : Dev) (k : SearchKey) (initiator : Bool) : Dev :=
  let d := (markedParts d k initiator).foldl deadlockOne d
  modBlu d fun b => { b with parts := b.parts.map fun p =>
    if p.key = k && p.src.isNone && p.lap = 3 && isInitiator d k p.berth = initiator then { p with done := true } else p }

/-- The laps that a search which stayed on this node can make at once: its confirm lap, and the verdict lap after it. -/
def lapsHere : Nat → Dev → SearchKey → Dev
  | 0, d, _ => d
  | n + 1, d, k =>
    match d.blu.searches.find? fun s => s.key = k with
    | some s => if s.lap < 3 && lapQuiet d k then lapsHere n (nextLap d s) k else d
    | none => d

/-- VERDICT (R197): the marked waiters of this node complete, and what waited for that is answered; the initiator completes when the verdict
lap has returned, and the verdict is counted. A search that stayed on this node makes its confirm lap first.
[log 47 DEDUCED unsafe] -/
def verdictOp (d : Dev) (k : SearchKey) : Dev :=
  let d := lapsHere 2 d k
  let d := if (partsOfKey d k).any fun p => p.lap = 3 && p.src.isNone then answerRoots (verdictHere d k false) k else d
  match d.blu.searches.find? fun s => s.key = k with
  | none => pumpSearches 64 (dropPassed d k)
  | some s =>
    if s.lap ≠ 3 || !lapQuiet d k then d
    else pumpSearches 64 (endSearch (count (incWrap (verdictHere d k true) fBluCycles) 0 0 9) k)

/-- VERDICT (R197). -/
def execVerdict (key : SearchKey) (s : State) : Host.Outcome State Fault Refusal :=
  onUnit 6 (fun d => verdictOp d key) s

end Sys2Proof.Machine
end

