-- ==== Sys2Proof/Machine/Partners.lean ====
section
/-!
DEFINITION. What happens towards a partner as packets leave, are sent again, or can no longer be sent (16 R282, R285, R288, R294).
-/

namespace Sys2Proof.Machine

/-! ### Packets leave (R177, R285) -/

/-- Commands whose signal to a node has left go on (R177, R178). -/
def leftSignals (d : Dev) (n : Nat) : Dev :=
  (d.cmds.filter fun c => c.phase = .closing && c.sent.contains c.sigNext &&
      (c.spec.sigs.getD c.sigNext noEnt).node = n).foldl (fun d c =>
    afterSignals (remoteSignal d c c.sigNext (c.spec.sigs.getD c.sigNext noEnt)) c) d

/-- Queued packets of a partner leave while its credits and its route allow (R286). -/
def pumpPartner (d : Dev) (n : Nat) : Dev :=
  leftSignals ((List.range (partnerAt d n).queue.length).foldl (fun d _ => sendHead d n) d) n

/-- Packets sent and not acknowledged leave again on the partner's primary link, as they were (R282, R285). -/
def resend (d : Dev) (n : Nat) (os : List OutPkt) : Dev :=
  match (partnerAt d n).primary with
  | none => d
  | some link => os.foldl (fun d o =>
      modPartner (emit d link (mkPacket d n o.credit o.pseq o.body)) n fun p =>
        { p with queue := p.queue.map fun x =>
          if x.sent.isSome && x.pseq = o.pseq then { x with sent := some (d.now, link) } else x }) d

/-! ### A node can no longer be reached (R175, R280, R288) -/

/-- Local waits registered at a node, and signals to it that are still queued, complete UNREACHABLE with DETAIL set to the
entry; its queue is discarded, and queries that it has not answered end their searches. -/
def dropTowards (d : Dev) (n : Nat) : Dev :=
  let q := (partnerAt d n).queue.filter fun o => o.sent.isNone
  let d := (d.blu.away.filter fun a => a.1 = n).foldl (fun d a => completeCmd d a.2.1 stUnreachable a.2.2) d
  let d := q.foldl (fun d o => match o.of with
    | some (k, e) => withCmd d k fun c =>
        if 8 ≤ e then completeCmd d k stUnreachable 4
        else if 4 ≤ e && c.phase = .closing && c.sigNext + 4 = e then
          afterSignals (remoteSignal d c c.sigNext (c.spec.sigs.getD c.sigNext noEnt)) c
        else d
    | none => d) d
  let d := modPartner d n fun p => { p with queue := [], shares := 0, used := 0 }
  nodeGone d n

/-- The wait entries that a partner holds here are withdrawn (R288). -/
def dropWaitsOf (d : Dev) (n : Nat) : Dev :=
  let mine := d.blu.waits.filter fun w => match w.who with | .away m _ _ => m = n | .here .. => false
  let d := modBlu d fun b => { b with waits := b.waits.filter fun w => !mine.contains w }
  mine.foldl (fun d w => serveWaits (bumpGraph d 0 (bolHandle w.bol (bolAt d w.bol).gen)) w.bol) d

/-- PARTNER_ABSENT and its like (R288): a partner becomes ABSENT, QUARANTINED or ISOLATED. [log 52 DEDUCED unsafe] -/
def loseNode (d : Dev) (n : Nat) (st : PartSt) : Dev :=
  let p := partnerAt d n
  if p.st = st || (p.st = .quarantined && st = .absent) then d
  else
    let d := modPartner d n fun p => { p with st := st, kept := [] }
    dropWaitsOf (dropTowards d n) n

/-- This node enters ISOLATED (R280). [log 52 DEDUCED unsafe] -/
def isolateSelf (d : Dev) : Dev :=
  if fld d fFsaState = 2 then d
  else
    let d := setFld d fFsaState 2
    d.fsa.partners.foldl (fun d e => dropTowards d e.1) d

/-! ### Links -/

def linkAt (d : Dev) (k : Nat) : LinkRec := at' {} d.fsa.links k
def modLink (d : Dev) (k : Nat) (f : LinkRec → LinkRec) : Dev := modFsa d fun s => { s with links := modAt s.links k f }

/-- Can a link carry packets: up, and not quarantined (R282, R294)? -/
def linkUsable (d : Dev) (k : Nat) : Bool := (linkAt d k).up && !(linkAt d k).quarantined

/-- A destination whose primary link fell moves to its alternate, and what went out on the link is sent again there; without
an alternate it becomes ABSENT (R282). -/
def moveRoute (link : Nat) (d : Dev) (e : Nat × Partner) : Dev :=
  if e.2.primary ≠ some link then d
  else match e.2.alternate with
    | some a =>
      if linkUsable d a then
        let d := modPartner d e.1 fun p => { p with primary := some a, alternate := none }
        resend d e.1 (e.2.queue.filter fun o => match o.sent with | some (_, l) => l = link | none => false)
      else loseNode (modPartner d e.1 fun p => { p with primary := none, alternate := none }) e.1 .absent
    | none => loseNode (modPartner d e.1 fun p => { p with primary := none }) e.1 .absent

end Sys2Proof.Machine
end

