-- ==== Sys2Proof/Machine/Enum.lean ====
section
/-!
DEFINITION. Enumeration, census and routes of the fabric (16 R278 to R282): the token, the reports of a subtree, the root's part, and
links that come up or fall.
-/

namespace Sys2Proof.Machine

/-! ### Enumeration packets -/

/-- An enumeration packet leaves to the neighbour on a link: DEST 0xFFFF_FFFF, PSEQ 0 (R278, R283).
[log 71 DESIGN CHOICE safe] -/
def sendLink (d : Dev) (k : Nat) (body : Payload) : Dev :=
  if linkUsable d k then
    emit d k { dest := 0xFFFFFFFF, src := BitVec.ofNat 32 (fld d fFsaId), credit := 0, pseq := 0, ack := 0,
               lowRef := BitVec.ofNat 40 (lowRef d), session := BitVec.ofNat 16 d.fsa.session, body := body }
  else d

/-- A packet that names a way down the tree goes to its first link. -/
def sendPath (d : Dev) (path : List (BitVec 6)) (mk : List (BitVec 6) → Payload) : Dev :=
  match path with
  | [] => d
  | k :: r => sendLink d k.toNat (mk r)

/-- The first packet of PKIND 0x10 to 0x1F that waits from a link: its arrival and the packet. -/
def nextIn (d : Dev) (k : Nat) : Option (Nat × Packet) := (d.fsa.inbox.find? fun x => x.1 = k).map (·.2)

/-- That packet is taken. -/
def takeLink (d : Dev) (k : Nat) : Dev :=
  match takeFirst (fun (x : Nat × Nat × Packet) => x.1 = k) d.fsa.inbox with
  | some (_, r) => modFsa d fun s => { s with inbox := r }
  | none => d

def isRoot (d : Dev) : Bool := flag d fFsaRoot

/-! ### Routes (R281) -/

/-- Links between the nodes of a census, by index in token order: link, index of the neighbour. A link counts when both
ends report it. -/
def adjOf (ns : List CensusNode) : List (List (Nat × Nat)) :=
  let inTree := fun (l : BitVec 6 × BitVec 3 × W32) => l.2.1 = 1 || l.2.1 = 2 || l.2.1 = 3
  (List.range ns.length).map fun i =>
    match ns[i]? with
    | none => []
    | some a => a.links.filterMap fun l =>
      if !inTree l then none
      else
        ((List.range ns.length).find? fun j => match ns[j]? with
          | some b => j ≠ i && b.id = l.2.2 && b.links.any fun m => inTree m && m.2.2 = a.id
          | none => false).map fun j => (l.1.toNat, j)

/-- Distances from a node, in links, over nodes other than `avoid`. [log 49 DEDUCED unsafe] -/
def distOf (adj : List (List (Nat × Nat))) (avoid : Nat) : Nat → Nat → List Nat → List (Nat × Nat) → List (Nat × Nat)
  | 0, _, _, seen => seen
  | n + 1, h, front, seen =>
    let seen := seen ++ front.map fun i => (i, h)
    let next := (front.flatMap fun i => (adj.getD i []).map (·.2)).eraseDups.filter fun j =>
      j ≠ avoid && !seen.any fun e => e.1 = j
    if next.isEmpty then seen else distOf adj avoid n (h + 1) next seen

/-- The link with the shortest way, the lowest one on a tie. [log 49 DEDUCED unsafe] -/
def bestLink (cs : List (Nat × Nat)) : Option Nat :=
  (cs.foldl (fun (b : Option (Nat × Nat)) c => match b with
    | some x => if c.2 < x.2 || (c.2 = x.2 && c.1 < x.1) then some c else b
    | none => some c) none).map (·.1)

/-- Primary and alternate links of node `s` towards node `t` (R281). [log 49 DEDUCED unsafe] -/
def routeOf (adj : List (List (Nat × Nat))) (s t : Nat) : Option Nat × Option Nat :=
  let ds := distOf adj s adj.length 0 [t] []
  let cs := (adj.getD s []).filterMap fun e => (ds.find? fun x => x.1 = e.2).map fun x => (e.1, x.2)
  let p := bestLink cs
  (p, bestLink (cs.filter fun c => some c.1 ≠ p))

/-- 0x3F stands for no link (R295). -/
def linkField (l : Option Nat) : BitVec 6 := BitVec.ofNat 6 (l.getD 63)

/-- A route's flit for the local I/O die leaves on the link it concerns, with DEST 0 (R281). -/
def routeSet (d : Dev) (dst : Nat) (l : Option Nat) : Dev :=
  match l with
  | some k => emit d k { dest := 0, src := BitVec.ofNat 32 (fld d fFsaId), credit := 0, pseq := 0, ack := 0,
                         lowRef := BitVec.ofNat 40 (lowRef d), session := BitVec.ofNat 16 d.fsa.session,
                         body := .routeSet (BitVec.ofNat 32 dst) (BitVec.ofNat 6 k) }
  | none => d

/-- The routes for one destination are installed in one step, and passed to the I/O dies (R281); a destination with a route leaves
ABSENT, one marked absent enters it (R282). -/
def installRoute (d : Dev) (dst : Nat) (p a : Option Nat) (absent : Bool) : Dev :=
  if dst = fld d fFsaId then d
  else if absent then
    loseNode (modPartner d dst fun x => { x with primary := none, alternate := none }) dst .absent
  else
    let d := modPartner d dst fun x =>
      { x with primary := p, alternate := a, st := if x.st = .quarantined then x.st else .active }
    pumpPartner (routeSet (routeSet d dst p) dst a) dst

/-! ### The end of a census at the root (R280 to R282) -/

/-- The node that keeps an ID: the first pinned one in token order, else the first. [log 49 DEDUCED unsafe] -/
def keeperOf (ns : List CensusNode) (id : W32) : Option Nat :=
  let has := fun (i : Nat) => match ns[i]? with | some n => n.id = id | none => false
  let pinned := fun (i : Nat) => match ns[i]? with | some n => n.pinned | none => false
  match (List.range ns.length).find? fun i => has i && pinned i with
  | some i => some i
  | none => (List.range ns.length).find? has

/-- New IDs: of the keeper its own; of an unpinned loser the next one; none for a pinned loser. [log 49 DEDUCED unsafe] -/
def settleIds (ns : List CensusNode) (next : Nat) : List (Option Nat) × Nat :=
  (List.range ns.length).foldl (fun (r : List (Option Nat) × Nat) i =>
    match ns[i]? with
    | some n =>
      if keeperOf ns n.id = some i then (r.1 ++ [some n.id.toNat], r.2)
      else if n.pinned then (r.1 ++ [none], r.2) else (r.1 ++ [some r.2], r.2 + 1)
    | none => r) ([], next)

/-- A loser of a duplicate is told (R280): a new ID, or ISOLATE. -/
def tellLoser (d : Dev) (path : List (BitVec 6)) (id : Option Nat) : Dev :=
  match id with
  | some v => sendPath d path fun r => .census (.newId r (BitVec.ofNat 32 v))
  | none => sendPath d path fun r => .isolate r

/-- The routes of one node: ROUTE packets down the tree, or installed here (R281). -/
def giveRoute (d : Dev) (path : List (BitVec 6)) (dst : Nat) (r : Option Nat × Option Nat) (absent : Bool) : Dev :=
  if path.isEmpty then installRoute d dst r.1 r.2 absent
  else sendPath d path fun rest => .route rest (BitVec.ofNat 32 dst) (linkField r.1) (linkField r.2) absent

/-- A census has come to its end at the root. [log 49 DEDUCED unsafe] -/
def finishCensus (d : Dev) (reports : List (List (BitVec 6) × CensusNode)) : Dev :=
  let ns := reports.map (·.2)
  let paths := reports.map (·.1)
  let next := ns.foldl (fun m n => max m (n.id.toNat + 1)) d.fsa.next
  let (ids, next) := settleIds ns next
  let losers := (List.range ns.length).filter fun i => match ns[i]? with
    | some n => keeperOf ns n.id ≠ some i
    | none => false
  let d := modFsa d fun s => { s with next := next, censusOn := false }
  let d := losers.foldl (fun d i => tellLoser d (paths.getD i []) (ids.getD i none)) d
  let d := if losers.isEmpty then d else raiseEvent (incSat d fFsaDups losers.length) 9 3
  let cross := (ns.flatMap (·.links)).filter fun l => l.2.1 = 3
  let d := setFld (setFld d fFsaNodes ns.length) fFsaCross (cross.length / 2)
  let adj := adjOf ns
  let inRange := fun (v : Nat) => fld d fFsaId ≤ v && v ≤ fld d fFsaId + 65535
  let dests := (List.range ns.length).filterMap fun t => match ids.getD t none with
    | some v => if inRange v then some (t, v) else none
    | none => none
  let d := (List.range ns.length).foldl (fun d s =>
    dests.foldl (fun d t => if t.1 = s then d else
      let r := routeOf adj s t.1
      if r.1.isNone then d else giveRoute d (paths.getD s []) t.2 r false) d) d
  let gone := d.fsa.known.filter fun v => !dests.any fun t => t.2 = v
  let d := (List.range ns.length).foldl (fun d s =>
    gone.foldl (fun d v => giveRoute d (paths.getD s []) v (none, none) true) d) d
  let out := (ids.filterMap id).filter fun v => !inRange v
  let d := out.foldl (fun d v => loseNode d v .isolated) d
  let d := modFsa d fun s => { s with known := dests.map (·.2) }
  if flag d fFsaEnumBusy then raiseEvent (incWrap (setFld d fFsaEnumBusy 0) fFsaEnumSeq) 9 0 else d

/-! ### The census (R280) -/

def LinkSt.code : LinkSt → BitVec 3
  | .none => 0 | .parent => 1 | .child => 2 | .cross => 3 | .foreign => 4

/-- What this node reports of itself. -/
def ownReport (d : Dev) : CensusNode :=
  { id := BitVec.ofNat 32 (fld d fFsaId), serial := BitVec.ofNat 64 d.scu.cfg.unitSerial,
    pinned := flag d fFsaPinned || isRoot d,
    links := (List.range 48).filterMap fun k =>
      let l := linkAt d k
      if l.st = .none || !linkUsable d k then none else some (BitVec.ofNat 6 k, l.st.code, BitVec.ofNat 32 l.nbr) }

/-- Every child has reported: the subtree's reports go up, in token order, or the root closes the census. -/
def censusDone (d : Dev) : Dev :=
  let kids := (List.range 48).flatMap fun k =>
    (d.fsa.censusGot.filter fun g => g.1 = k).flatMap fun g => g.2.map fun n => (BitVec.ofNat 6 k :: n.1, n.2)
  let all := ([], ownReport d) :: kids
  if isRoot d then finishCensus d all
  else match d.fsa.parent with
    | some p => sendLink (modFsa d fun s => { s with censusOn := false }) p (.census (.report all))
    | none => modFsa d fun s => { s with censusOn := false }

/-- A census reaches this node and goes on to its children. -/
def startCensus (d : Dev) : Dev :=
  let kids := (List.range 48).filter fun k => (linkAt d k).st = .child && linkUsable d k
  let d := modFsa d fun s => { s with censusOn := true, censusLeft := kids, censusGot := [] }
  let d := kids.foldl (fun d k => sendLink d k (.census .ask)) d
  if kids.isEmpty then censusDone d else d

/-- A child has reported, or its link has gone. -/
def censusFrom (d : Dev) (k : Nat) (r : List (List (BitVec 6) × CensusNode)) : Dev :=
  if !d.fsa.censusLeft.contains k then d
  else
    let left := d.fsa.censusLeft.filter (· ≠ k)
    let d := modFsa d fun s => { s with censusLeft := left, censusGot := s.censusGot ++ [(k, r)] }
    if left.isEmpty then censusDone d else d

/-! ### The token (R279) -/

/-- The token has come back on every link: DONE goes to the parent; at the root the census begins. [log 49 DEDUCED unsafe] -/
def tokenDone (d : Dev) : Dev :=
  match d.fsa.parent with
  | some p => sendLink d p (.enumReply .done (BitVec.ofNat 32 d.fsa.next) (BitVec.ofNat 32 (fld d fFsaId)))
  | none => if isRoot d then startCensus d else d

/-- The token goes to the next link in rising order that may take it. -/
def passToken : Nat → Dev → Dev
  | 0, d => d
  | n + 1, d =>
    match d.fsa.tokenLeft with
    | [] => tokenDone (modFsa d fun s => { s with tokenAt := none })
    | k :: r =>
      let d := modFsa d fun s => { s with tokenLeft := r, tokenAt := none }
      let l := linkAt d k
      if !linkUsable d k || l.st = .foreign || l.gotEnum then passToken n d
      else sendLink (modFsa d fun s => { s with tokenAt := some k }) k
        (.enumTok (BitVec.ofNat 16 (d.fsa.epoch.getD 0)) (BitVec.ofNat 32 d.fsa.rootId) (BitVec.ofNat 32 d.fsa.base)
          (BitVec.ofNat 32 d.fsa.next) (BitVec.ofNat 32 (d.fsa.hops + 1)))

/-- Link states are formed afresh in every epoch, but for FOREIGN. -/
def freshLinks (d : Dev) (parent : Option Nat) : Dev :=
  modFsa d fun s => { s with links := (List.range s.links.length).map fun k =>
    let l := at' {} s.links k
    { l with st := if some k = parent then .parent else if l.st = .foreign then .foreign else .none
             gotEnum := some k = parent } }

/-- A node takes the token of a new epoch: its ID, NEXT, and the token goes on. [log 49 DEDUCED unsafe] -/
def adoptToken (d : Dev) (k epoch root base next hops : Nat) : Dev :=
  let d := freshLinks (modFsa d fun s => { s with epoch := some epoch, rootId := root, parent := some k, hops := hops, base := base,
                                                  tokenLeft := List.range 48, tokenAt := none, censusOn := false,
                                                  censusLeft := [], tideHeard := some d.now }) (some k)
  let d := setFld d fFsaDepth (min hops (2 ^ 24 - 1))
  let pinned := flag d fFsaPinned
  let fixed := d.scu.cfg.fixedId
  let (d, next) := if fld d fFsaId ≠ 0 then (d, next)
    else if pinned then (setFld d fFsaId fixed, next) else (setFld d fFsaId next, next + 1)
  let d := if fld d fFsaState = 2 then d else setFld d fFsaState 1
  let d := if pinned && (fixed < base || base + 65535 < fixed) then isolateSelf d else d
  passToken 49 (modFsa d fun s => { s with next := if next ≤ fld d fFsaId then fld d fFsaId + 1 else next })

/-- ENUM (R279): a token on a link. [log 49 DEDUCED unsafe] -/
def enumOp (d : Dev) (k : Nat) : Dev :=
  match nextIn d k with
  | some (_, p) => match p.body with
    | .enumTok epoch root base next hops =>
      let d := takeLink d k
      let own := BitVec.ofNat 32 (fld d fFsaId)
      if d.fsa.rootId ≠ 0 && root.toNat ≠ d.fsa.rootId then
        modLink (sendLink d k (.enumReply .nakForeign 0 own)) k fun l => { l with st := .foreign }
      else if d.fsa.epoch = some epoch.toNat then
        sendLink (modLink d k fun l => { l with gotEnum := true, st := .cross }) k (.enumReply .nakVisited 0 own)
      else adoptToken d k epoch.toNat root.toNat base.toNat next.toNat hops.toNat
    | _ => d
  | none => d

/-- An enumeration begins at the root, with a new epoch (R279). -/
def startEnum (d : Dev) : Dev :=
  let id := fld d fFsaId
  let e := (d.fsa.lastEpoch + 1) % 2 ^ 16
  let d := freshLinks (modFsa d fun s =>
    { s with startDue := false, censusDue := false, lastEpoch := e, epoch := some e, rootId := id, parent := none, hops := 0,
             base := id, next := max s.next (id + 1), tokenLeft := List.range 48, tokenAt := none }) none
  let d := setFld (setFld (setFld d fFsaEnumBusy 1) fFsaDepth 0) fFsaState 1
  passToken 49 d

/-- What is due at the root begins when nothing else runs: an enumeration, unless the FSA is quiesced (R295), or a census. -/
def pumpRoot1 (d : Dev) : Dev :=
  if !isRoot d || flag d fFsaEnumBusy || d.fsa.censusOn then d
  else if d.fsa.startDue && !flag d (fQuiesced 9) then startEnum d
  else if d.fsa.censusDue && d.fsa.epoch.isSome then startCensus (modFsa d fun s => { s with censusDue := false })
  else d

def pumpRoot (d : Dev) : Dev := pumpRoot1 (pumpRoot1 d)

/-- ENUM_START (R279): FSA_ENUM_CMD START, at the root only. -/
def enumStartOp (d : Dev) : Dev := if isRoot d then pumpRoot (modFsa d fun s => { s with startDue := true }) else d

/-- ENUM_REPLY (R279): the answer to the token on a link. -/
def enumReplyOp (d : Dev) (k : Nat) : Dev :=
  match nextIn d k with
  | some (_, p) => match p.body with
    | .enumReply a next id =>
      let d := takeLink d k
      if d.fsa.tokenAt ≠ some k then d
      else
        let d := modLink d k fun l => { l with nbr := id.toNat, st := match a with
          | .done => .child | .nakVisited => .cross | .nakForeign => .foreign }
        let d := if a = .done then modFsa d fun s => { s with next := next.toNat } else d
        pumpRoot (passToken 49 d)
    | _ => d
  | none => d

/-- The root hears of a link that came up or fell (R279, R282); another node passes the report on. -/
def linkReport (d : Dev) (up : Bool) : Dev :=
  if isRoot d then
    modFsa d fun s => if up then { s with startDue := true } else { s with censusDue := true }
  else match d.fsa.parent with
    | some p => sendLink d p (.census (.change up))
    | none => d

/-- CENSUS (R280). [log 69 DESIGN CHOICE safe] -/
def censusOp (d : Dev) (k : Nat) : Dev :=
  match nextIn d k with
  | some (_, p) => match p.body with
    | .census m =>
      let d := takeLink d k
      match m with
      | .ask => if d.fsa.parent = some k then startCensus d else d
      | .report r => pumpRoot (censusFrom d k r)
      | .newId path id =>
        if path.isEmpty then raiseEvent (setFld d fFsaId id.toNat) 9 3
        else sendPath d path fun r => .census (.newId r id)
      | .change up => pumpRoot (linkReport d up)
    | _ => d
  | none => d

/-- ROUTE (R281, R282). [log 69 DESIGN CHOICE safe] -/
def routeOp (d : Dev) (k : Nat) : Dev :=
  match nextIn d k with
  | some (_, p) => match p.body with
    | .route path dst pr al absent =>
      let d := takeLink d k
      let link := fun (x : BitVec 6) => if x.toNat < 48 then some x.toNat else none
      if path.isEmpty then installRoute d dst.toNat (link pr) (link al) absent
      else sendPath d path fun r => .route r dst pr al absent
    | _ => d
  | none => d

/-- ISOLATE (R280). -/
def isolateOp (d : Dev) (k : Nat) : Dev :=
  match nextIn d k with
  | some (_, p) => match p.body with
    | .isolate path =>
      let d := takeLink d k
      if path.isEmpty then raiseEvent (isolateSelf d) 9 3 else sendPath d path fun r => .isolate r
    | _ => d
  | none => d

/-! ### Links (R282) -/

/-- A link has fallen or been quarantined: routes move, the change is reported, and a reply that will not come is not waited
for. -/
def linkFell (d : Dev) (k : Nat) : Dev :=
  let d := d.fsa.partners.foldl (moveRoute k) d
  let d := linkReport (raiseEvent d 9 2) false
  let d := if d.fsa.tokenAt = some k then passToken 49 d else d
  pumpRoot (censusFrom d k [])

/-- LINK_DOWN (R282). [log 49 DEDUCED unsafe] -/
def linkDownOp (d : Dev) (k : Nat) : Dev :=
  if !(linkAt d k).up then d
  else
    let d := modLink d k fun l => { l with up := false }
    if inReset d 12 then d else linkFell (wakeUnit d 12) k

/-- LINK_UP (R279, R282). [log 49 DEDUCED unsafe] -/
def linkUpOp (d : Dev) (k : Nat) : Dev :=
  if (linkAt d k).up then d
  else
    let d := modLink d k fun l => { l with up := true }
    if inReset d 12 then d else pumpRoot (linkReport (raiseEvent (wakeUnit d 12) 9 2) true)

/-- LINK_SESSION_KEY (R284): the key is installed, and both packet counters of the link start at 0. -/
def linkKeyOp (d : Dev) (sel : BitVec 16) (key : BitVec 256) : Dev :=
  modLink d (sel.extractLsb' 0 6).toNat fun l =>
    { l with key := some key, far := (sel.extractLsb' 6 6).toNat, role := sel.getLsbD 12, tx := 0, rx := 0 }

/-! ### Rows -/

/-- ENUM_START (R279). -/
def execEnumStart (s : State) : Host.Outcome State Fault Refusal := onUnit 12 enumStartOp s

/-- ENUM (R279). -/
def execEnumToken (link : BitVec 6) (s : State) : Host.Outcome State Fault Refusal :=
  if !linkOk link then reservedOp else onUnit 12 (fun d => enumOp d link.toNat) s

/-- ENUM_REPLY (R279). -/
def execEnumReply (link : BitVec 6) (s : State) : Host.Outcome State Fault Refusal :=
  if !linkOk link then reservedOp else onUnit 12 (fun d => enumReplyOp d link.toNat) s

/-- CENSUS (R280). -/
def execCensus (link : BitVec 6) (s : State) : Host.Outcome State Fault Refusal :=
  if !linkOk link then reservedOp else onUnit 12 (fun d => censusOp d link.toNat) s

/-- ROUTE (R281). -/
def execRoute (link : BitVec 6) (s : State) : Host.Outcome State Fault Refusal :=
  if !linkOk link then reservedOp else onUnit 12 (fun d => routeOp d link.toNat) s

/-- ISOLATE (R280). -/
def execIsolate (link : BitVec 6) (s : State) : Host.Outcome State Fault Refusal :=
  if !linkOk link then reservedOp else onUnit 12 (fun d => isolateOp d link.toNat) s

/-- LINK_DOWN (R282). -/
def execLinkDown (link : BitVec 6) (s : State) : Host.Outcome State Fault Refusal :=
  if !linkOk link then reservedOp else onDev (fun d => linkDownOp d link.toNat) s

/-- LINK_UP (R279). -/
def execLinkUp (link : BitVec 6) (s : State) : Host.Outcome State Fault Refusal :=
  if !linkOk link then reservedOp else onDev (fun d => linkUpOp d link.toNat) s

/-- What reaches the FSA, or stays raised while its island is in reset (R24). [log 6 DEDUCED safe] -/
def atFsa (a : FsaAcc) (f : Dev → Dev) (d : Dev) : Dev :=
  if inReset d 12 then modFsa d fun x => { x with held := x.held ++ [a] } else f (wakeUnit d 12)

/-- LINK_SESSION_KEY (R284). -/
def execLinkSessionKey (sel : BitVec 16) (key : BitVec 256) (s : State) : Host.Outcome State Fault Refusal :=
  if !(linkOk (sel.extractLsb' 0 6) && linkOk (sel.extractLsb' 6 6)) then reservedOp
  else onDev (atFsa (.key sel key) fun d => linkKeyOp d sel key) s

end Sys2Proof.Machine
end

