-- ==== Sys2Proof/Machine/Eval.lean ====
section
/-!
DEFINITION. The launch evaluator (09 R154 to R159): staging, the instructions, loads and stores, and the end of an EVAL; the
commands that only join others (06 R100, R106).
-/

namespace Sys2Proof.Machine

/-! ### Instruction words (R155, R156) -/

def evOp (w : W64) : Nat := getBits w 63 56
def evD (w : W64) : Nat := getBits w 55 52
def evA (w : W64) : Nat := getBits w 51 48
def evB (w : W64) : Nat := getBits w 47 44
def evC (w : W64) : Nat := getBits w 43 40
def evRes (w : W64) : Nat := getBits w 39 32
def evImm (w : W64) : Nat := getBits w 31 0

/-- sext(IMM) as a 64-bit word. -/
def evSext (w : W64) : Nat := if 2 ^ 31 ≤ evImm w then evImm w + 2 ^ 64 - 2 ^ 32 else evImm w

/-- Does an instruction use D, A, B, C (R156)? -/
def evUses (op : Nat) : Bool × Bool × Bool × Bool :=
  if op = 0x01 then (true, false, false, false)
  else if op = 0x02 || op = 0x04 || op = 0x05 || op = 0x12 then (true, true, false, false)
  else if op = 0x03 || op = 0x16 || op = 0x17 then (true, true, true, false)
  else if op = 0x06 then (false, true, false, false)
  else if op = 0x13 then (false, true, true, false)
  else if op = 0x10 || op = 0x11 || op = 0x14 || op = 0x15 then (false, true, true, true)
  else (true, true, true, true)

/-- Is IMM one that the instruction allows (R155, R157)? -/
def evImmOk (op imm pset : Nat) : Bool :=
  if op = 0x01 || op = 0x02 || op = 0x04 || op = 0x05 || op = 0x10 || op = 0x11 then true
  else if op = 0x03 || op = 0x14 then imm ≤ 0xD
  else if op = 0x17 then imm = 0 || imm = 6 || imm = 7
  else if op = 0x06 then imm < 4 && nbit pset imm
  else imm = 0

/-- OP values of the instruction table. -/
def evOpOk (op : Nat) : Bool := (1 ≤ op && op ≤ 6) || (0x10 ≤ op && op ≤ 0x19)

/-- Does an instruction word pass the check at staging (R157)? -/
def evWordOk (pset : Nat) (w : W64) : Bool :=
  let u := evUses (evOp w)
  evOpOk (evOp w) && evRes w = 0 && (u.1 || evD w = 0) && (u.2.1 || evA w = 0) && (u.2.2.1 || evB w = 0) &&
    (u.2.2.2 || evC w = 0) && evImmOk (evOp w) (evImm w) pset

/-! ### Values -/

/-- An ALU operation on 64-bit values; none for a zero divisor (R156, R157). -/
def evAlu (code a b : Nat) : Option Nat :=
  if (code = 3 || code = 4 || code = 5) && b = 0 then none
  else some ((if code = 0 then a + b else if code = 1 then a + 2 ^ 64 - b else if code = 2 then a * b
    else if code = 3 then a / b else if code = 4 then (a + b - 1) / b else if code = 5 then a % b
    else if code = 6 then min a b else if code = 7 then max a b
    else if code = 8 then Nat.land a b else if code = 9 then Nat.lor a b
    else if code = 10 then a * 2 ^ (b % 64) else if code = 11 then a / 2 ^ (b % 64)
    else if code = 12 then (if a = b then 1 else 0) else (if a < b then 1 else 0)) % 2 ^ 64)

/-- A scalar register; S0 reads as zero (R155). -/
def EvalRun.sc (r : EvalRun) (n : Nat) : Nat := if n = 0 then 0 else (r.s.getD n 0).toNat

/-- A write of a scalar; one to S0 is discarded (R155). -/
def EvalRun.setSc (r : EvalRun) (n v : Nat) : EvalRun :=
  if n = 0 then r else { r with s := r.s.set n (BitVec.ofNat 64 v) }

/-- An element of E. -/
def EvalRun.el (r : EvalRun) (i : Nat) : Nat := (tget 0 r.e i).toNat

def EvalRun.setEl (r : EvalRun) (i v : Nat) : EvalRun := { r with e := tset 0 r.e i (BitVec.ofNat 32 v) }

/-- Elements from `a` on take the values of a list. -/
def EvalRun.setEls (r : EvalRun) (a : Nat) : List Nat → EvalRun
  | [] => r
  | v :: vs => (r.setEl a v).setEls (a + 1) vs

/-- The elements of a range. -/
def EvalRun.els (r : EvalRun) (a n : Nat) : List Nat := (List.range n).map fun i => r.el (a + i)

/-- A range that reaches beyond E[4095] (R157); an empty one does not. -/
def evOut (a n : Nat) : Bool := n ≠ 0 && 4095 < a + n - 1

def evOver (a n b m : Nat) : Bool := n ≠ 0 && m ≠ 0 && a < b + m && b < a + n

/-- Exclusive prefix sums from `acc` on. -/
def evScan (acc : Nat) : List Nat → List Nat
  | [] => []
  | x :: xs => acc :: evScan (acc + x) xs

/-- The value `i` as often as its element says, from `i` on (AEXPAND). -/
def evExpand (i : Nat) : List Nat → List Nat
  | [] => []
  | x :: xs => List.replicate x i ++ evExpand (i + 1) xs

/-! ### One instruction (R156, R157) -/

/-- What an instruction comes to: the engine after it, a fault with the faulting access, a load of words of 4 bytes from an address, or
the words an ASTORE posts. -/
inductive EvOut where
  | run (r : EvalRun)
  | fault (cause addr : Nat)
  | load (addr words : Nat)
  | store (addr : Nat) (vs : List Nat)
  | setp (n v : Nat)
  deriving DecidableEq, Repr

/-- A load (R157 EVAL_SRC): an offset of 2^32 or more, an address not naturally aligned. -/
def evLoad (src off size words : Nat) : EvOut :=
  if 2 ^ 32 ≤ off || (src + off) % size ≠ 0 then .fault 0x33 (src + off) else .load (src + off) words

/-- ASTORE (R157 EVAL_DST). [log 45 DEDUCED unsafe] -/
def evStore (dst off : Nat) (vs : List Nat) : EvOut :=
  let a := dst + off
  if dst = 0 || a % 4 ≠ 0 || 2 ^ 57 ≤ a then .fault 0x34 a
  else if 2 ^ 57 < a + 4 * vs.length then .fault 0x34 (2 ^ 57)
  else .store a vs

/-- The instructions over a range that is not empty. -/
def evArray (r : EvalRun) (w : W64) (src dst : Nat) : EvOut :=
  let a := r.sc (evA w)
  let n := r.sc (evB w)
  let c := r.sc (evC w)
  let op := evOp w
  if evOut a n then .fault 0x32 0
  else
    let xs := r.els a n
    if op = 0x10 then evLoad src (c + evImm w) 4 n
    else if op = 0x11 then evStore dst (c + evImm w) xs
    else if op = 0x14 then
      (if (evAlu (evImm w) 0 c).isNone then .fault 0x31 0
       else .run (r.setEls a (xs.map fun x => (evAlu (evImm w) x c).getD 0)))
    else if op = 0x15 then .run (r.setEls a ((List.range n).map fun i => r.el (a + i) + i * c))
    else if op = 0x16 then .run ((r.setEls a (evScan 0 xs)).setSc (evD w) (xs.foldl (· + ·) 0))
    else if op = 0x17 then
      .run (r.setSc (evD w) (if evImm w = 0 then xs.foldl (· + ·) 0
        else if evImm w = 6 then xs.foldl min 0xFFFFFFFF else xs.foldl max 0))
    else if op = 0x18 then
      let d := r.sc (evD w)
      let ys := ((List.range n).filter fun i => r.el (c + i) ≠ 0).map fun i => r.el (a + i)
      if evOut c n || evOut d ys.length || evOver d ys.length a n || evOver d ys.length c n then .fault 0x32 0
      else .run (r.setEls d ys)
    else
      let m := xs.foldl (· + ·) 0
      if evOut c m || evOver c m a n then .fault 0x32 0
      else .run ((r.setEls c (evExpand 0 xs)).setSc (evD w) m)

/-- An array instruction with n = 0 touches no element and no memory; a scalar takes the value for an empty range (R157). -/
def evEmpty (r : EvalRun) (w : W64) : EvOut :=
  if evOp w = 0x16 || evOp w = 0x19 then .run (r.setSc (evD w) 0)
  else if evOp w = 0x17 then .run (r.setSc (evD w) (if evImm w = 6 then 0xFFFFFFFF else 0))
  else .run r

/-- The scalar instructions, AGET and ASET. -/
def evScalar (r : EvalRun) (w : W64) (src : Nat) : EvOut :=
  let a := r.sc (evA w)
  let b := r.sc (evB w)
  let op := evOp w
  if op = 0x01 then .run (r.setSc (evD w) (evSext w))
  else if op = 0x02 then .run (r.setSc (evD w) ((a + evSext w) % 2 ^ 64))
  else if op = 0x03 then (match evAlu (evImm w) a b with | some v => .run (r.setSc (evD w) v) | none => .fault 0x31 0)
  else if op = 0x04 then evLoad src (a + evImm w) 4 1
  else if op = 0x05 then evLoad src (a + evImm w) 8 2
  else if op = 0x06 then .setp (evImm w) (a % 2 ^ 32)
  else if 4095 < a then .fault 0x32 0
  else if op = 0x12 then .run (r.setSc (evD w) (r.el a))
  else .run (r.setEl a b)

/-- One instruction of a program with the given SRC_VA and DST_VA. [log 45 DEDUCED unsafe] -/
def evStep (r : EvalRun) (w : W64) (src dst : Nat) : EvOut :=
  if evOp w < 0x10 || evOp w = 0x12 || evOp w = 0x13 then evScalar r w src
  else if r.sc (evB w) = 0 then evEmpty r w
  else evArray r w src dst

/-! ### Staging (R154, R157) -/

def evalAt (d : Dev) (e : Nat) : Option EvalRun := at' none d.lev.engines e
def setEval (d : Dev) (e : Nat) (r : Option EvalRun) : Dev := modLev d fun l => { l with engines := l.engines.set e r }

/-- Programs in the store: staged ones and those that run (R154). [log 45 DEDUCED unsafe] -/
def storeUse (d : Dev) : Nat := d.lev.store.length + (d.lev.engines.filter (·.isSome)).length

/-- A program that may start takes an engine: the PSET registers are set to zero (R155). -/
def startEval (d : Dev) (e : Nat) (k : CmdId) (prog : List W64) : Dev :=
  withCmd d k fun c =>
    let pset := match c.spec.op with | .eval _ _ _ _ p => p | _ => 0
    let d := modBerth d c.berth fun r => { r with params := (List.range 4).map fun n => if nbit pset n then 0 else r.params.getD n 0 }
    setEval d e (some { cmd := k, prog := prog })

/-- Staged programs take free engines in the order in which they were issued; none starts while the LEV is quiesced (R154, R167).
[log 45 DEDUCED unsafe] -/
def pumpEval : Nat → Dev → Dev
  | 0, d => d
  | n + 1, d =>
    if flag d (fQreq 6) then d
    else match (List.range 4).find? (fun e => (evalAt d e).isNone), d.lev.store with
      | some e, (k, some prog) :: rest => pumpEval n (startEval (modLev d fun l => { l with store := rest }) e k prog)
      | _, _ => d

def pumpEvals (d : Dev) : Dev := pumpEval 4 d

/-- An EVAL of the LEV ends: counted in LEV_CNT.EVALS (R167). [log 45 DEDUCED unsafe] -/
def fLevEvals : Fld := ⟨6, 0x0B8, 63, 32⟩
def fLevWaits : Fld := ⟨6, 0x0B8, 31, 0⟩

def evalFault (d : Dev) (k : CmdId) (cause addr ix : Nat) : Dev :=
  faultCmd (incSat d fLevEvals) k { cause := cause, unit := 7, addr := addr, argA := ix }

/-- A program joins the store in the order of issue (R154). -/
def insStore (d : Dev) (c : Cmd) : List (CmdId × Option (List W64)) → List (CmdId × Option (List W64))
  | [] => [(c.key, none)]
  | e :: r =>
    match cmdAt d e.1 with
    | some x => if c.issueNo < x.issueNo then (c.key, none) :: e :: r else e :: insStore d c r
    | none => e :: insStore d c r

/-- EVAL (R154): the program is asked for, from an aligned address and below 2^57. [log 45 DEDUCED unsafe] -/
def evalOp (d : Dev) (c : Cmd) : Dev :=
  match c.spec.op with
  | .eval prog _ _ n _ =>
    if 1024 ≤ storeUse d then d
    else if prog % 8 ≠ 0 then evalFault d c.key 0x33 prog 0
    else if 2 ^ 57 < prog + 8 * n then evalFault d c.key 0x33 (2 ^ 57) ((2 ^ 57 - prog) / 8)
    else
      let x := cmdCtx d c
      let d := memReq d (.progRead x.asid x.keyid x.pid prog)
      modLev (modCmd d c.key fun c => { c with step := 1 }) fun l => { l with store := insStore d c l.store }
  | _ => d

/-- EVAL (R154). -/
def execEval (c : CmdId) (s : State) : Host.Outcome State Fault Refusal :=
  onUnit 7 (fun d => atIssue d c fun x => evalOp d x) s

/-- Is the program of a command asked for and not yet read? -/
def progAsked (d : Dev) (k : CmdId) : Bool := d.lev.store.any fun e => e.1 = k && e.2.isNone

def dropStaged (d : Dev) (k : CmdId) : Dev := modLev d fun l => { l with store := l.store.filter fun e => e.1 ≠ k }

/-- The first instruction of the line in which the read of a program failed, after `got` words. -/
def failedIx (prog got n : Nat) : Nat := (lineOf (prog + 8 * min got (n - 1)) - prog) / 8

/-- The program has been read (R157): the check of every word, or EVAL_SRC. [log 45 DEDUCED unsafe] -/
def programRead (d : Dev) (c : Cmd) (r : MemResp) (ws : List W64) : Dev :=
  match c.spec.op with
  | .eval prog _ _ n pset =>
    if !progAsked d c.key then d
    else if r ≠ .ok then
      let k := failedIx prog ws.length n
      pumpEvals (evalFault (dropStaged (memErr d 6 r (prog + 8 * k)) c.key) c.key 0x33 (prog + 8 * k) k)
    else if ws.length ≠ n then d
    else match (List.range n).find? fun k => !evWordOk pset (ws.getD k 0) with
      | some k => pumpEvals (evalFault (dropStaged d c.key) c.key 0x30 0 k)
      | none => pumpEvals (modLev d fun l => { l with store := l.store.map fun e => if e.1 = c.key then (e.1, some ws) else e })
  | _ => d

/-- EVAL_PROGRAM_READ (R157): `words` are those that arrived before an error. -/
def execEvalProgramRead (c : CmdId) (r : MemResp) (words : List (BitVec 64)) (s : State) : Host.Outcome State Fault Refusal :=
  onUnit 7 (fun d => withCmd d c fun x => needBerth d x.berth (programRead d x r words)) s

/-! ### Execution -/

/-- The running program fails at its present instruction. -/
def engineFault (d : Dev) (e : Nat) (r : EvalRun) (cause addr ix : Nat) : Dev :=
  pumpEvals (evalFault (setEval d e none) r.cmd cause addr ix)

/-- SRC_VA and DST_VA of an EVAL. -/
def evalBases (o : CmdOp) : Nat × Nat := match o with | .eval _ src dst _ _ => (src, dst) | _ => (0, 0)

/-- The next instruction of an engine, when it is the one the row names (R156). -/
def evalRow (d : Dev) (e op : Nat) : Dev :=
  match evalAt d e with
  | none => d
  | some r =>
    match r.prog[r.pc]? with
    | none => d
    | some w =>
      if r.loading || evOp w ≠ op then d
      else withCmd d r.cmd fun c => needBerth d c.berth <|
        let x := cmdCtx d c
        let (src, dst) := evalBases c.spec.op
        match evStep r w src dst with
        | .run r' => setEval d e (some { r' with pc := r.pc + 1 })
        | .fault cause a => engineFault d e r cause (a % 2 ^ 64) r.pc
        | .load a n => memReq (setEval d e (some { r with loading := true })) (.levRead x.asid x.keyid x.pid 0 a n)
        | .store a vs =>
          let ws := (List.range vs.length).map fun i => (a + 4 * i, vs.getD i 0)
          let d := ws.foldl (fun d (q : Nat × Nat) => memReq d (.levWrite x.asid x.keyid x.pid 1 q.1 (BitVec.ofNat 32 q.2))) d
          setEval d e (some { r with pc := r.pc + 1, stores := r.stores ++ ws.map fun q => (q.1, r.pc) })
        | .setp n v =>
          setEval (modBerth d c.berth fun b => { b with params := b.params.set n v }) e (some { r with pc := r.pc + 1 })

/-- LDI (R156). -/
def execLdi (e : BitVec 2) (s : State) : Host.Outcome State Fault Refusal := onUnit 7 (fun d => evalRow d e.toNat 0x01) s
/-- ADDI (R156). -/
def execAddi (e : BitVec 2) (s : State) : Host.Outcome State Fault Refusal := onUnit 7 (fun d => evalRow d e.toNat 0x02) s
/-- ALU (R156). -/
def execAlu (e : BitVec 2) (s : State) : Host.Outcome State Fault Refusal := onUnit 7 (fun d => evalRow d e.toNat 0x03) s
/-- LD32 (R156). -/
def execLd32 (e : BitVec 2) (s : State) : Host.Outcome State Fault Refusal := onUnit 7 (fun d => evalRow d e.toNat 0x04) s
/-- LD64 (R156). -/
def execLd64 (e : BitVec 2) (s : State) : Host.Outcome State Fault Refusal := onUnit 7 (fun d => evalRow d e.toNat 0x05) s
/-- SETP (R156). -/
def execSetp (e : BitVec 2) (s : State) : Host.Outcome State Fault Refusal := onUnit 7 (fun d => evalRow d e.toNat 0x06) s
/-- ALOAD (R156). -/
def execAload (e : BitVec 2) (s : State) : Host.Outcome State Fault Refusal := onUnit 7 (fun d => evalRow d e.toNat 0x10) s
/-- ASTORE (R156). -/
def execAstore (e : BitVec 2) (s : State) : Host.Outcome State Fault Refusal := onUnit 7 (fun d => evalRow d e.toNat 0x11) s
/-- AGET (R156). -/
def execAget (e : BitVec 2) (s : State) : Host.Outcome State Fault Refusal := onUnit 7 (fun d => evalRow d e.toNat 0x12) s
/-- ASET (R156). -/
def execAset (e : BitVec 2) (s : State) : Host.Outcome State Fault Refusal := onUnit 7 (fun d => evalRow d e.toNat 0x13) s
/-- AMAP (R156). -/
def execAmap (e : BitVec 2) (s : State) : Host.Outcome State Fault Refusal := onUnit 7 (fun d => evalRow d e.toNat 0x14) s
/-- AIDX (R156). -/
def execAidx (e : BitVec 2) (s : State) : Host.Outcome State Fault Refusal := onUnit 7 (fun d => evalRow d e.toNat 0x15) s
/-- ASCAN (R156). -/
def execAscan (e : BitVec 2) (s : State) : Host.Outcome State Fault Refusal := onUnit 7 (fun d => evalRow d e.toNat 0x16) s
/-- AREDUCE (R156). -/
def execAreduce (e : BitVec 2) (s : State) : Host.Outcome State Fault Refusal := onUnit 7 (fun d => evalRow d e.toNat 0x17) s
/-- ACOMPACT (R156). -/
def execAcompact (e : BitVec 2) (s : State) : Host.Outcome State Fault Refusal := onUnit 7 (fun d => evalRow d e.toNat 0x18) s
/-- AEXPAND (R156). -/
def execAexpand (e : BitVec 2) (s : State) : Host.Outcome State Fault Refusal := onUnit 7 (fun d => evalRow d e.toNat 0x19) s

/-! ### Loads and stores answered (R157) -/

/-- Address and number of 32-bit words of the load that an instruction waits for. -/
def loadOf (r : EvalRun) (w : W64) (src : Nat) : Nat × Nat :=
  match evStep r w src 0 with
  | .load a n => (a, n)
  | _ => (0, 0)

/-- What the data of a load leave in the engine. -/
def loadInto (r : EvalRun) (w : W64) (ws : List W32) : EvalRun :=
  if evOp w = 0x10 then r.setEls (r.sc (evA w)) (ws.map (·.toNat))
  else if evOp w = 0x05 then r.setSc (evD w) ((ws.getD 0 0).toNat + (ws.getD 1 0).toNat * 2 ^ 32)
  else r.setSc (evD w) (ws.getD 0 0).toNat

/-- Address of the line in which a read of words from `a` failed after `got` words. [log 45 DEDUCED unsafe] -/
def failedAddr (a got n : Nat) : Nat := max a (lineOf (a + 4 * min got (n - 1)))

def loadData (d : Dev) (e : Nat) (resp : MemResp) (ws : List W32) : Dev :=
  match evalAt d e with
  | none => d
  | some r =>
    match r.prog[r.pc]? with
    | none => d
    | some w =>
      if !r.loading then d
      else withCmd d r.cmd fun c => needBerth d c.berth <|
        let (a, n) := loadOf r w (evalBases c.spec.op).1
        if resp ≠ .ok then
          let f := failedAddr a ws.length n
          engineFault (memErr d 6 resp f) e r 0x33 f r.pc
        else if ws.length ≠ n then d
        else setEval d e (some { loadInto r w ws with pc := r.pc + 1, loading := false })

/-- EVAL_LOAD_DATA (R157): the words of the load in rising order, those before an error where it fails. -/
def execEvalLoadData (e : BitVec 2) (r : MemResp) (words : List (BitVec 32)) (s : State) :
    Host.Outcome State Fault Refusal := onUnit 7 (fun d => loadData d e.toNat r words) s

/-- EVAL_STORE_FAULT (R157, R306): a store is answered with a translation fault or an access error. -/
def storeFault (d : Dev) (e a : Nat) (resp : MemResp) : Dev :=
  match evalAt d e with
  | none => d
  | some r =>
    match r.stores.find? fun q => q.1 = a with
    | some q => if resp = .ok || resp = .poison then d else withCmd d r.cmd fun c => needBerth d c.berth <| engineFault (memErr d 6 resp a) e r 0x34 a q.2
    | none => d

def execEvalStoreFault (e : BitVec 2) (addr : BitVec 57) (r : MemResp) (s : State) : Host.Outcome State Fault Refusal :=
  onUnit 7 (fun d => storeFault d e.toNat addr.toNat r) s

/-! ### The end of a program (R159) -/

/-- EVAL_COMPLETE (R159): the last instruction has run and every store is acknowledged. The values of the parameter registers are
recorded with the completion, and P0 decides the branch (R101, R102). [log 45 DEDUCED unsafe] -/
def evalComplete (d : Dev) (e : Nat) : Dev :=
  match evalAt d e with
  | none => d
  | some r =>
    if r.loading || r.pc < r.prog.length then d
    else withCmd d r.cmd fun c => needBerth d c.berth <|
      let d := incSat (setEval d e none) fLevEvals
      let d := withCmd d r.cmd fun c =>
        let p := (berthAt d c.berth).params
        branchCheck (finishOk (modCmd d r.cmd fun c =>
          { c with pre := [.evalOut p], outs := p, branched := c.spec.brCond = 2 && p.getD 0 0 = 0 }) r.cmd) r.cmd
      pumpEvals d

def execEvalComplete (e : BitVec 2) (s : State) : Host.Outcome State Fault Refusal := onUnit 7 (fun d => evalComplete d e.toNat) s

/-! ### BARRIER, NOP, END (06 R100, R106) -/

/-- A command without work of its own completes once the commands it joins are complete. -/
def joinOp (d : Dev) (c : Cmd) (js : List Cmd) : Dev := if js.all (·.isComplete) then finishOk d c.key else d

/-- BARRIER (R100): every earlier command of the berth. -/
def execBarrier (c : CmdId) (s : State) : Host.Outcome State Fault Refusal :=
  onUnit 6 (fun d => atIssue d c fun x => match x.spec.op with
    | .barrier => joinOp d x (earlier d x)
    | _ => d) s

/-- NOP (R106). -/
def execNop (c : CmdId) (s : State) : Host.Outcome State Fault Refusal :=
  onUnit 6 (fun d => atIssue d c fun x => match x.spec.op with
    | .nop => finishOk d x.key
    | _ => d) s

/-- END (R100): every command of its own manifest. -/
def execEndCmd (c : CmdId) (s : State) : Host.Outcome State Fault Refusal :=
  onUnit 6 (fun d => atIssue d c fun x => match x.spec.op with
    | .endOp => joinOp d x ((earlier d x).filter fun y => y.headIdx = x.headIdx)
    | _ => d) s

end Sys2Proof.Machine
end

