-- ==== Sys2Proof/Machine/Fabric.lean ====
section
/-!
DEFINITION. Packets from partners (16 R283 to R289, R294): checks on arrival, order and acknowledgement, signals and waits of other
nodes; records that come on chip (04 R63).
-/

namespace Sys2Proof.Machine

/-! ### Bad events (R294) -/

/-- PARTNER_QUARANTINED (R294): its waits go, FSA event 1; a neighbour takes its link with it. [log 52 DEDUCED unsafe] -/
def quarantine (d : Dev) (n : Nat) : Dev :=
  if (partnerAt d n).st = .quarantined then d
  else
    let d := raiseEvent (loseNode d n .quarantined) 9 1
    ((List.range 48).filter fun k => (linkAt d k).nbr = n && linkUsable d k).foldl (fun d k =>
      linkFell (modLink d k fun l => { l with quarantined := true }) k) d

/-- A bad event is counted against a node; QUAR_THRESH of them within one window of 1 ms quarantine it. Changes of the threshold
apply from the next window (R295). -/
def badEvent (d : Dev) (n : Nat) : Dev :=
  if n = 0 || n = fld d fFsaId then d
  else
    let d := modPartner d n fun p =>
      if p.badLim = 0 || p.badStart + 1000000 ≤ d.now then { p with bad := 1, badStart := d.now, badLim := fld d fFsaQuarThresh }
      else { p with bad := p.bad + 1 }
    if (partnerAt d n).badLim ≤ (partnerAt d n).bad then quarantine d n else d

/-! ### Arrival (R284, R285) -/

/-- The nonce of the next packet that arrives on a link (R284): packet counter, the sender's link, the receiver's, and the
sender's role, which is opposite to this end's. [log 50 DEDUCED unsafe] -/
def rxNonce (d : Dev) (k : Nat) : BitVec 96 :=
  let l := linkAt d k
  BitVec.ofNat 96 (l.rx % 2 ^ 64 * 2 ^ 32 + l.far % 64 * 2 ^ 26 + k % 64 * 2 ^ 20 + (if l.role then 0 else 2 ^ 19))

/-- The header of a packet taken in order, or of an ACK_ONLY: acknowledged packets go, credits return, identities that LOW_REF has
passed are freed (R283, R286, R289). -/
def applyHeader (d : Dev) (n : Nat) (q : Packet) : Dev :=
  let d := modPartner d n fun p =>
    { p with used := p.used - q.credit.toNat
             queue := p.queue.filter fun o => o.sent.isNone ||
               !(1 ≤ sub32 q.ack.toNat o.pseq && sub32 q.ack.toNat o.pseq < 2 ^ 31) }
  let passed := fun (i : Ident) =>
    let e := (q.lowRef.toNat + 2 ^ 40 - i.ref % 2 ^ 40) % 2 ^ 40
    i.src = n && 1 ≤ e && e < 2 ^ 39
  pumpPartner (modFsa d fun s => { s with idents := s.idents.filter fun i => !passed i }) n

/-- A partner begins a new SESSION (R285): its packets are expected from 0 again, and those for it are numbered from 0 and sent
again. The first SESSION seen leaves the numbering here as it is. [log 50 DEDUCED unsafe] -/
def newSession (d : Dev) (n : Nat) (s : Nat) : Dev :=
  match (partnerAt d n).session with
  | none => modPartner d n fun p => { p with session := some s, expect := 0 }
  | some _ =>
    let d := modPartner d n fun p =>
      let out := p.queue.filter fun o => o.sent.isSome
      { p with session := some s, expect := 0, waitAck := [], nextSeq := out.length, used := out.length,
               queue := ((List.range out.length).filterMap fun i => (out[i]?).map fun o => { o with pseq := i }) ++
                 p.queue.filter fun o => o.sent.isNone }
    resend d n ((partnerAt d n).queue.filter fun o => o.sent.isSome)

/-- A packet above RATE in its window of 1 µs is dropped; every 64 drops make a bad event (R294). The flag says whether the packet
stays. [log 50 DEDUCED unsafe] -/
def rateCheck (d : Dev) (n : Nat) : Dev × Bool :=
  let d := modPartner d n fun p =>
    if p.rateLim = 0 || p.rateStart + 1000 ≤ d.now then { p with rate := 1, rateStart := d.now, rateLim := fld d fFsaRate }
    else { p with rate := p.rate + 1 }
  let p := partnerAt d n
  if p.rate ≤ p.rateLim then (d, true)
  else
    let d := modPartner (incSat d fFsaRateDrop) n fun p => { p with rateDrops := p.rateDrops + 1 }
    (if (p.rateDrops + 1) % 64 = 0 then badEvent d n else d, false)

/-- A packet of a partner, after its tag and its E2E (R285, R286, R294). [log 50 DEDUCED unsafe] -/
def partnerPacket (d : Dev) (k : Nat) (q : Packet) : Dev :=
  let n := q.src.toNat
  let p := partnerAt d n
  if fld d fFsaState = 2 || (linkAt d k).st = .foreign || q.dest.toNat ≠ fld d fFsaId || p.st = .quarantined then d
  else if p.primary ≠ some k && p.alternate ≠ some k then badEvent (incSat d fFsaSpoof) n
  else
    let (d, stays) := rateCheck d n
    if !stays then d
    else
      let d := if p.session = some q.session.toNat then d else newSession d n q.session.toNat
      let e := sub32 q.pseq.toNat (partnerAt d n).expect
      if q.body = .ackOnly then modPartner d n fun p => { p with inbox := p.inbox ++ [q] }
      else if e ≠ 0 then (if e < 2 ^ 31 then d else ackNow d n)
      else
        let sig := match q.body with | .signal .. => true | _ => false
        let d := modPartner d n fun p =>
          { p with expect := (p.expect + 1) % 2 ^ 32, inbox := p.inbox ++ [q],
                   waitAck := if sig then p.waitAck ++ [(q.pseq.toNat, none)] else p.waitAck }
        let d := applyHeader d n q
        if (partnerAt d n).waitAck.isEmpty then ackNow d n else d

/-- The value nearest the tide counter that a 16-bit stamp can stand for (R291). -/
def extendStamp (d : Dev) (s : Nat) : Nat :=
  let e := (s + 2 ^ 16 - d.tide % 2 ^ 16) % 2 ^ 16
  (if e < 2 ^ 15 then d.tide + e else d.tide + 2 ^ 64 - (2 ^ 16 - e)) % 2 ^ 64

/-- An enumeration packet or a TIDE_SYNC waits for its row; the neighbour's ID is that of its sender. [log 50 DEDUCED unsafe] -/
def linkPacket (d : Dev) (k arrive : Nat) (q : Packet) : Dev :=
  let d := modFsa d fun s => { s with inbox := s.inbox ++ [(k, extendStamp d arrive, q)] }
  modLink d k fun l => { l with nbr := q.src.toNat }

/-- FABRIC_PACKET_RECEIVE (R284): the counter advances with every packet; the tag, then E2E, then the packet's own checks.
[log 50 DEDUCED unsafe] -/
def receiveOp (d : Dev) (k arrive : Nat) (s : SealedPacket) : Dev :=
  let l := linkAt d k
  if !linkUsable d k then d
  else
    let ok := l.key = some s.key && s.nonce = rxNonce d k && s.intact
    let d := modLink d k fun l => { l with rx := l.rx + 1 }
    if !ok then badEvent (incSat d fFsaAuthFail) l.nbr
    else if !s.e2eOk then badEvent (incSat d fFsaE2eFail) s.pkt.src.toNat
    else
      let d := count d 0 0 11
      match s.pkt.body with
      | .reserved _ => badEvent (incSat d fFsaE2eFail) s.pkt.src.toNat
      | .enumTok .. | .enumReply .. | .census _ | .route .. | .isolate _ | .tideSync .. => linkPacket d k arrive s.pkt
      | .routeSet .. => d
      | _ => partnerPacket d k s.pkt

/-- [log 50 DEDUCED unsafe] -/
def execFabricPacketReceive (link : BitVec 6) (arrive : BitVec 16) (p : SealedPacket) (s : State) :
    Host.Outcome State Fault Refusal :=
  if !linkOk link then reservedOp else onDev (atFsa (.packet link.toNat arrive.toNat p) fun d => receiveOp d link.toNat arrive.toNat p) s

/-- PACKET_RESEND (R285): a packet not acknowledged within RESEND_US leaves again, with every later one. -/
def resendOp (d : Dev) (n : Nat) : Dev :=
  let late := fun (o : OutPkt) => match o.sent with | some (t, _) => decide (t + us (fld d fFsaResendUs) ≤ d.now) | none => false
  if !reachable d n then d
  else resend d n ((((partnerAt d n).queue.filter fun o => o.sent.isSome)).dropWhile fun o => !late o)

def execPacketResend (node : BitVec 32) (s : State) : Host.Outcome State Fault Refusal :=
  onUnit 12 (fun d => resendOp d node.toNat) s

/-- ACK_ONLY (R283): the first one that waits. -/
def ackOnlyOp (d : Dev) (n : Nat) : Dev :=
  match takeFirst (fun (q : Packet) => q.body = .ackOnly) (partnerAt d n).inbox with
  | some (q, r) => applyHeader (modPartner d n fun p => { p with inbox := r }) n q
  | none => d

def execAckOnly (src : BitVec 32) (s : State) : Host.Outcome State Fault Refusal :=
  onUnit 12 (fun d => ackOnlyOp d src.toNat) s

/-! ### Signals of other nodes (R178, R288, R289) -/

/-- The checks of the owner node, in order; an ABANDONED bollard comes before the capability, which its abandonment revoked.
[log 51 DEDUCED unsafe] -/
def remoteTest (d : Dev) (n h : Nat) (cap : W64) : Option RefuseRow :=
  let r := bolAt d (bolIdx h)
  if !bolOk d h then some .stale
  else if r.state = .abandoned then some .abandoned
  else if cap = 0 || r.cap ≠ cap || !d.fsa.exports.contains (h, n) then some .cap
  else none

/-- A refusal that counts against the partner: of a capability, or one that would fault a local signaller (R294).
[log 51 DEDUCED unsafe] -/
def badRow : RefuseRow → Bool
  | .stale | .abandoned | .backward => false
  | .cap | .kind | .counterOver | .barrierOver | .barrierLate => true

/-- The fate of a SIGNAL is known: it is acknowledged once all units below `need` are durable. [log 50 DEDUCED unsafe] -/
def settleAck (d : Dev) (n pseq need : Nat) : Dev :=
  let due := fun (x : Nat × Option Nat) => match x.2 with | some l => decide (l ≤ d.lbu.durable) | none => false
  modPartner d n fun p =>
    { p with waitAck := (p.waitAck.map fun x => if x.1 = pseq then (pseq, some need) else x).dropWhile due }

/-- SIGNAL (R288): the first packet of a partner. [log 51 DEDUCED unsafe] -/
def signalOp (d : Dev) (n : Nat) : Dev :=
  match headIn d n with
  | some q => match q.body with
    | .signal h v cap op ref line entry =>
      let i := bolIdx h.toNat
      let settle := fun (d : Dev) (need : Nat) => takeIn (settleAck d n q.pseq.toNat need) n
      if d.fsa.idents.any fun x => x.src = n && x.ref = ref.toNat && x.line = line.toNat && x.entry = entry.toNat then
        settle d 0
      else if 1048576 ≤ d.fsa.idents.length then d
      else withRecs d (bolRecs d h.toNat) fun d =>
        let res : SigOut := match remoteTest d n h.toNat cap with
          | some row => .no row
          | none => sigOp (bolAt d i) op.toNat v
        match res with
        | .ok w =>
          let lsn := d.lbu.nextLsn
          let d := harbourWrite d (offIdent + 32 * d.fsa.idents.length) (identWords n ref.toNat line.toNat entry.toNat lsn)
          let d := modFsa d fun s => { s with idents := s.idents ++
            [{ src := n, ref := ref.toNat, line := line.toNat, entry := entry.toNat, lsn := lsn }] }
          let d := count (stepValue d i w 0xFF 0 0 0) 0 0 8
          settle d d.lbu.nextLsn
        | .no row =>
          let d := sendPkt (countRefusal d h.toNat row) n (.sigNotice ref line entry h row)
          let d := settle d 0
          if badRow row then badEvent d n else d
    | _ => d
  | none => d

def execSignal (src : BitVec 32) (s : State) : Host.Outcome State Fault Refusal :=
  onUnit 6 (fun d => signalOp d src.toNat) s

/-- Berth and context handle of a manifest, by the low bits of its ACCEPT LSN. -/
def acceptedBy (d : Dev) (ref : Nat) : Option (Nat × Nat) :=
  match d.lbu.journal.find? fun u => u.lsn % 2 ^ 40 = ref && (match u.body with | .accept .. => true | _ => false) with
  | some u => match u.body with
    | .accept b c .. => some (berthIdx b, c)
    | _ => none
  | none => none

/-- A backward fence of a STRICT_FENCE context at another node: a REMOTE_ORDER record, and the context enters DYING (R180).
[log 51 DEDUCED unsafe] -/
def remoteOrder (d : Dev) (ref line entry h : Nat) : Dev :=
  let f : FaultInfo := { cause := 0x40, unit := 6, argA := entry, argB := h }
  match d.cmds.find? fun c => c.ref = ref && c.spec.lineNo = line with
  | some c =>
    if !(ctxAt d (ctxIdx c.ctx)).strictFence || !ctxOk d c.ctx then d
    else startTeardown (haltBerth (fixFault d c.berth fun s => cmdFaultRec d c 3 s f none).1 c.berth) (ctxIdx c.ctx)
  | none => match acceptedBy d ref with
    | some (b, c) =>
      let r := ctxAt d (ctxIdx c)
      if !r.strictFence || !ctxOk d c then d
      else startTeardown (haltBerth (fixFault d b fun s => suppress
        { seq := s, cause := 0x40, unit := 6, kind := 3, secrecy := r.secrecy, context := c,
          berth := berthHandle b (berthAt d b).gen, line := line, ref := ref, time := tideW d, argA := entry,
          argB := h }).1 b) (ctxIdx c)
    | none => d

/-- SIG_NOTICE (R178, R180). -/
def sigNoticeOp (d : Dev) (n : Nat) : Dev :=
  match firstIn d n with
  | some (.sigNotice ref line entry h row) =>
    let d := incSat (takeIn d n) fBluRejRemote
    if row = .backward then remoteOrder d ref.toNat line.toNat entry.toNat h.toNat else d
  | _ => d

def execSigNotice (src : BitVec 32) (s : State) : Host.Outcome State Fault Refusal :=
  onUnit 6 (fun d => sigNoticeOp d src.toNat) s

/-! ### Waits of other nodes (R175, R287, R288) -/

/-- Wait entries a partner holds here. -/
def sharesOf (d : Dev) (n : Nat) : Nat :=
  (d.blu.waits.filter fun w => match w.who with | .away m _ _ => m = n | .here .. => false).length

/-- A WAIT_REG within its share, its bollard on chip: checked and registered, or answered. [log 51 DEDUCED unsafe] -/
def regRemote (d : Dev) (n : Nat) (h : Nat) (v cap : W64) (cond : Nat) (waiter : W32) (entry : BitVec 3) (cont : Bool) : Dev :=
  let i := bolIdx h
  let r := bolAt d i
  let ended := fun (d : Dev) (st : WaitEndStatus) => sendPkt d n (.waitEnd waiter entry st)
  let enq := fun (d : Dev) => count (bumpGraph (modBlu d fun b => { b with waits := b.waits ++
    [{ bol := i, who := .away n waiter.toNat entry.toNat, code := cond, value := v, cont := cont }] }) 0 h) 0 0 7
  match remoteTest d n h cap with
  | some .stale => ended (incSat d fBluRejStale) .stale
  | some .abandoned =>
    if cont then sendPkt d n (.waitMet waiter entry (BitVec.ofNat 64 (tideW d))) else ended d .abandoned
  | some _ => badEvent (ended (incSat d fBluRejCap) .stale) n
  | none =>
    if kindOfCode cond ≠ some r.kind then ended d .stale
    else match r.kind with
      | .counter => if capacityOf r < v.toNat then ended d .stale else serveWaits (enq d) i
      | .barrier => match arriveOp (participantsOf r) r.value (v.toNat % 2 ^ 32) with
        | .no _ => ended d .stale
        | .ok x => stepValue (enq d) i x 0xFF 0 0 0
      | _ => serveWaits (enq d) i

/-- WAIT_REG (R288): the oldest one kept for want of a share (R287), or the first packet of the partner.
[log 51 DEDUCED unsafe] -/
def waitRegOp (d : Dev) (n : Nat) : Dev :=
  let room := sharesOf d n < fld d fFsaShare
  let run := fun (q : Packet) (drop : Dev → Dev) => match q.body with
    | .waitReg h v cap cond waiter entry cont =>
      withRecs d (bolRecs d h.toNat) fun d => regRemote (drop d) n h.toNat v cap cond.toNat waiter entry cont
    | _ => d
  match (partnerAt d n).kept, headIn d n with
  | q :: r, none => if room then run q (fun d => ackNow (modPartner d n fun p => { p with kept := r, owed := p.owed + 1 }) n) else d
  | q :: r, some x =>
    if room then run q (fun d => ackNow (modPartner d n fun p => { p with kept := r, owed := p.owed + 1 }) n) else keepIt d x
  | [], some x => if room then run x (fun d => takeIn d n) else keepIt d x
  | [], none => d
where
  keepIt (d : Dev) (x : Packet) : Dev :=
    match x.body with
    | .waitReg .. => modPartner d n fun p => { p with inbox := p.inbox.drop 1, kept := p.kept ++ [x] }
    | _ => d

def execWaitReg (src : BitVec 32) (s : State) : Host.Outcome State Fault Refusal :=
  onUnit 6 (fun d => waitRegOp d src.toNat) s

/-- The wait of a local command registered at a node, by its berth handle and entry. -/
def awayOf (d : Dev) (n waiter entry : Nat) : Option CmdId :=
  (d.blu.away.find? fun a => a.1 = n && a.2.2 = entry &&
    berthHandle a.2.1.berth.toNat (berthAt d a.2.1.berth.toNat).gen = waiter).map (·.2.1)

/-- Its registration ends, and the share comes back (R286). -/
def endAway (d : Dev) (n : Nat) (k : CmdId) : Dev :=
  modPartner (modBlu d fun b => { b with away := b.away.filter fun a => !(a.1 = n && a.2.1 = k) }) n fun p =>
    { p with shares := p.shares - 1 }

/-- WAIT_MET (R175). -/
def waitMetOp (d : Dev) (n : Nat) : Dev :=
  match firstIn d n with
  | some (.waitMet waiter entry _) =>
    let d := takeIn d n
    match awayOf d n waiter.toNat entry.toNat with
    | some k => waitMet (endAway d n k) k
    | none => d
  | _ => d

def execWaitMet (src : BitVec 32) (s : State) : Host.Outcome State Fault Refusal :=
  onUnit 6 (fun d => waitMetOp d src.toNat) s

/-- The command status that a WAIT_END fixes; one withdrawn by its owner's node can no longer be met there.
[log 51 DEDUCED unsafe] -/
def waitEndStatus : WaitEndStatus → Nat
  | .stale => stStale | .abandoned => stAbandoned | .deadlock => stDeadlock | .withdrawn => stUnreachable

/-- An entry that a partner's berth holds here is withdrawn. -/
def withdrawRemote (d : Dev) (n waiter entry : Nat) : Dev :=
  match d.blu.waits.find? fun w => w.who = .away n waiter entry with
  | some w =>
    let d := modBlu d fun b => { b with waits := b.waits.filter (· ≠ w) }
    serveWaits (bumpGraph d 0 (bolHandle w.bol (bolAt d w.bol).gen)) w.bol
  | none => d

/-- WAIT_END (R288): from the owner, it completes the waiting command; from the waiter's node, it withdraws the entry.
[log 51 DEDUCED unsafe] -/
def waitEndOp (d : Dev) (n : Nat) : Dev :=
  match firstIn d n with
  | some (.waitEnd waiter entry st) =>
    let d := takeIn d n
    let w := waiter.toNat
    let e := entry.toNat
    let mine := d.blu.waits.any fun x => x.who = .away n w e
    if mine && (st = .withdrawn || st = .deadlock) then withdrawRemote d n w e
    else match awayOf d n w e with
      | some k => completeCmd (endAway d n k) k (waitEndStatus st) e
      | none => withdrawRemote d n w e
  | _ => d

def execWaitEnd (src : BitVec 32) (s : State) : Host.Outcome State Fault Refusal :=
  onUnit 6 (fun d => waitEndOp d src.toNat) s

/-- CAP_NOTE (R290): FSA_IMPORT_LAST, EXPORTED, FSA event 4. -/
def capNoteOp (d : Dev) (n : Nat) : Dev :=
  match firstIn d n with
  | some (.capNote h added) =>
    let d := setFld (setFld (takeIn d n) fFsaImportNode n) fFsaImportHandle h.toNat
    raiseEvent (setFld d fFsaExported (if added then 1 else 0)) 9 4
  | _ => d

def execCapNote (src : BitVec 32) (s : State) : Host.Outcome State Fault Refusal :=
  onUnit 12 (fun d => capNoteOp d src.toNat) s

/-! ### Partner commands (R294, R295) -/

def PartSt.code : PartSt → Nat
  | .active => 0 | .quarantined => 1 | .absent => 2 | .isolated => 3

/-- Does a selection name a node that can be a partner? [log 52 DEDUCED unsafe] -/
def nodeOk (d : Dev) (n : Nat) : Bool := n ≠ 0 && n ≠ 0xFFFFFFFF && n ≠ fld d fFsaId

/-- FSA_PARTNER_INFO as of a READ. -/
def partnerInfo (d : Dev) (n : Nat) : Dev :=
  let p := partnerAt d n
  let d := setFld (setFld d fFsaInfoState p.st.code) fFsaInfoPrimary (p.primary.getD 63)
  let d := setFld d fFsaInfoAlternate (p.alternate.getD 63)
  setFld (setFld d fFsaInfoBad (if d.now < p.badStart + 1000000 then p.bad else 0)) fFsaInfoQueued p.queue.length

/-- Quarantine ends (R294): the bad count is reset, and the link of a neighbour is used again. [log 52 DEDUCED unsafe] -/
def releasePartner (d : Dev) (n : Nat) : Dev :=
  let d := modPartner d n fun p =>
    { p with st := if p.primary.isSome then .active else .absent, bad := 0, badLim := 0 }
  modFsa d fun s => { s with links := s.links.map fun l => if l.nbr = n then { l with quarantined := false } else l }

/-- The effect of a partner command and its RESULT. [log 52 DEDUCED unsafe] -/
def partnerRun (d : Dev) (op n : Nat) : Dev × Nat :=
  if !nodeOk d n || op < 1 || 3 < op then (d, 2)
  else if (tfind d.fsa.partners n).isNone then (d, 5)
  else if op = 1 then (partnerInfo d n, 0)
  else if op = 2 then (if (partnerAt d n).st = .quarantined then (releasePartner d n, 0) else (d, 3))
  else (quarantine d n, 0)

/-- A partner command begun is carried out, unless the FSA is quiesced (R295). [log 64 DESIGN CHOICE safe] -/
def partnerTry (d : Dev) : Dev :=
  match d.fsa.partnerOp with
  | none => d
  | some (op, n) =>
    if flag d (fQuiesced 9) then d
    else
      let (d, res) := partnerRun (modFsa d fun s => { s with partnerOp := none }) op n
      setFld (incWrap (setFld d fFsaPartnerResult res) fFsaPartnerSeq) fFsaPartnerBusy 0

/-- A write of FSA_PARTNER_CMD (R295): while BUSY it is discarded and LOST is set. [log 9 DEDUCED safe] -/
def partnerCmd (d : Dev) (op : Nat) : Dev :=
  if flag d fFsaPartnerBusy then setFld d fFsaPartnerLost 1
  else partnerTry (modFsa (setFld d fFsaPartnerBusy 1) fun s => { s with partnerOp := some (op, fld d fFsaPartnerSel) })

/-- PARTNER_READ (R295). -/
def execPartnerRead (s : State) : Host.Outcome State Fault Refusal := onUnit 12 (fun d => partnerCmd d 1) s
/-- RELEASE (R294). -/
def execRelease (s : State) : Host.Outcome State Fault Refusal := onUnit 12 (fun d => partnerCmd d 2) s
/-- QUARANTINE (R295). -/
def execQuarantine (s : State) : Host.Outcome State Fault Refusal := onUnit 12 (fun d => partnerCmd d 3) s

/-! ### Export commands (R290) -/

/-- The effect of an export command on a bollard whose record is on chip, and its RESULT. [log 52 DEDUCED unsafe] -/
def exportRun (d : Dev) (op n h : Nat) : Dev × Nat :=
  let r := bolAt d (bolIdx h)
  if op < 1 || 3 < op then (d, 2)
  else if !bolOk d h then (d, 1)
  else if op = 3 then (removePairs d h, 0)
  else if !nodeOk d n then (d, 2)
  else if op = 1 then
    if r.state ≠ .live || r.cap = 0 then (d, 2)
    else if d.fsa.exports.contains (h, n) then (d, 0)
    else if 262144 ≤ d.fsa.exports.length then (d, 4)
    else (sendPkt (modFsa d fun s => { s with exports := s.exports ++ [(h, n)] }) n (.capNote (BitVec.ofNat 32 h) true), 0)
  else if d.fsa.exports.contains (h, n) then
    (sendPkt (modFsa d fun s => { s with exports := s.exports.filter (· ≠ (h, n)) }) n (.capNote (BitVec.ofNat 32 h) false), 0)
  else (d, 2)

/-- An export command begun is carried out, unless the FSA is quiesced or the bollard's record is not on chip.
[log 64 DESIGN CHOICE safe] -/
def exportTry (d : Dev) : Dev :=
  match d.fsa.expOp with
  | none => d
  | some (op, n, h) =>
    if flag d (fQuiesced 9) then d
    else withRecs d (if 1 ≤ op && op ≤ 3 then bolRecs d h else []) fun d =>
      let (d, res) := exportRun (modFsa d fun s => { s with expOp := none }) op n h
      setFld (incWrap (setFld (bumpGraph d 0 h) fFsaExpResult res) fFsaExpSeq) fFsaExpBusy 0

/-- A write of FSA_EXP_CMD (R290, R295). [log 9 DEDUCED safe] -/
def exportCmd (d : Dev) (op : Nat) : Dev :=
  if flag d fFsaExpBusy then setFld d fFsaExpLost 1
  else exportTry (modFsa (setFld d fFsaExpBusy 1) fun s => { s with expOp := some (op, fld d fFsaExpNode, fld d fFsaExpHandle) })

/-- ADD (R290). -/
def execAdd (s : State) : Host.Outcome State Fault Refusal := onUnit 12 (fun d => exportCmd d 1) s
/-- REMOVE (R290). -/
def execRemove (s : State) : Host.Outcome State Fault Refusal := onUnit 12 (fun d => exportCmd d 2) s
/-- REMOVE_ALL (R290). -/
def execRemoveAll (s : State) : Host.Outcome State Fault Refusal := onUnit 12 (fun d => exportCmd d 3) s

/-! ### RECORD_FILL (R63, R265) -/

/-- The mirrors have answered with `a` and `b`: the record comes on chip, and the host and export commands that wait for it go on. -/
def execRecordFill (rec : RecId) (a b : MemResp) (s : State) : Host.Outcome State Fault Refusal :=
  onUnit 2 (fun d => exportTry (hcmdTry (fillRecord d rec a b (recMemErr rec)))) s

end Sys2Proof.Machine
end

