-- ==== Sys2Proof/Machine/Load.lean ====
section
/-!
DEFINITION. Loading (19 R328 to R332): the configuration, the image, the logbook, the check of epochs.
-/

namespace Sys2Proof.Machine

/-- The stores of every sequencer are written from the image, and the sequencers leave UNLOADED, once it is verified and their island is out
of reset (R123, R326). -/
def startSeqs (d : Dev) : Dev :=
  if d.scu.imgVerdict && !inReset d 8 then (List.range 16).foldl (fun d s => loadStores (setFld d (fTsqState s) 1) s d.scu.imgHead) d else d

/-- Epoch and catalogue version of the verified image. [log 26 PRESUMED unsafe] -/
def imgEpoch (d : Dev) : Nat := (Config.imageEpoch d.scu.imgHead).toNat
/-- [log 26 PRESUMED unsafe] -/
def imgCatVer (d : Dev) : Nat := (Config.imageCatVer d.scu.imgHead).toNat

/-- The anchor, as either mirror holds it, passes its CRC (R242, R255 step 3). -/
def anchorOk (d : Dev) : Bool := d.lbu.anchor.2 = crcWords [d.lbu.anchor.1]

/-- R129, R255 step 2: no ACCEPT record of the window has another epoch or catalogue version. [log 57 DEDUCED unsafe] -/
def epochsOk (d : Dev) : Bool :=
  d.lbu.journal.all fun u => match u.body with
    | .acceptEnd _ e v _ => e = imgEpoch d && v = imgCatVer d
    | _ => true

/-- The check of R331 once the image verdict and the scan are both in. [log 57 DEDUCED unsafe] -/
def checkLoad (d : Dev) : Dev :=
  if d.scu.load ≠ .image || !d.scu.imgVerdict || d.scu.formatDue || inReset d 10 then d
  else if !anchorOk d then failLoad d 4
  else if !epochsOk d then failLoad d 3
  else
    let d := if fld d fLoadLog = 2 then d else setFld d fLoadLog 1
    let d := modPlx d fun p => { p with entries := p.entries.filter fun e => e.epoch = imgEpoch d && e.catVer = imgCatVer d }
    startSeqs (modScu d fun s => { s with load := .checked })

/-! ### The configuration (R328) -/

/-- CONFIG_CHUNK (R328): more than 64 KiB end the load with CONFIG_FORM. -/
def execConfigChunk (data : BitVec 256) (last : Bool) (s : State) : Host.Outcome State Fault Refusal :=
  onUnit 13 (fun d =>
    if d.scu.load ≠ .config || d.scu.cfgDone then d
    else if 2048 ≤ d.scu.cfgChunks.length then failLoad d 7
    else modScu d fun s => { s with cfgChunks := s.cfgChunks ++ [data], cfgDone := last }) s

/-- A verified and checked configuration takes hold (R328, R342, R347): its fields, the watchdog, S, and the fault queue's
place; both mirrors work (R260); then the image is requested (R329). [log 57 DEDUCED unsafe] -/
def takeConfig (d : Dev) (c : ChipCfg) : Dev :=
  let d := modScu d fun s => { s with cfg := c, cfgVerified := true, formatDue := c.logFormat, sec := secOf c s.tokens }
  let d := setFld (setFld (modLbu d fun l => { l with place := [0, 1] }) (fLbuMirror 0) 0) (fLbuMirror 1) 0
  let d := setFld (applyConfig d) fWdogEn (if c.wdog then 1 else 0)
  let d := if c.logFormat then d else loadFq d
  modScu d fun s => { s with load := .image, loadStart := d.now, fromHarbour := false, imgCount := 0, imgDone := false,
                             imgVerdict := false, rtOut := s.rtOut ++ [(0, 2)] }

/-- CONFIG_VERDICT (R328, R332). -/
def execConfigVerdict (v : Bool) (s : State) : Host.Outcome State Fault Refusal :=
  onUnit 13 (fun d =>
    if d.scu.load ≠ .config || !d.scu.cfgDone then d
    else if !v then failLoad d 1
    else match parseConfig d.scu.cfgChunks with
      | some c => takeConfig d c
      | none => failLoad d 7) s

/-! ### The image (R329) -/

/-- IMAGE_CHUNK (R329): its place and the harbour copy are written as it arrives; more than 16 MiB end the load. -/
def execImageChunk (data : BitVec 256) (last : Bool) (s : State) : Host.Outcome State Fault Refusal :=
  onUnit 13 (fun d =>
    if d.scu.load ≠ .image || d.scu.fromHarbour || d.scu.imgDone then d
    else if 524288 ≤ d.scu.imgCount then failLoad d 2
    else
      let d := harbourWrite d (offImage + d.scu.imgCount * 32) ((List.range 4).map fun i => data.extractLsb' (64 * i) 64)
      modScu d fun s => { s with imgHead := if s.imgCount = 0 then data else s.imgHead, imgCopy := none,
                                 imgCount := s.imgCount + 1, imgDone := last }) s

/-- IMAGE_VERDICT (R329, R331, R332). -/
def execImageVerdict (v : Bool) (s : State) : Host.Outcome State Fault Refusal :=
  onUnit 13 (fun d =>
    if d.scu.load ≠ .image || d.scu.fromHarbour || !d.scu.imgDone || d.scu.imgVerdict then d
    else if !v then failLoad d 2
    else checkLoad (startSeqs (modScu d fun s => { s with imgVerdict := true, imgCopy := some s.imgHead }))) s

/-- IMAGE_RELOAD_DONE (R329): a reload from the harbour copy has ended well, or falls back to the root of trust. -/
def execImageReloadDone (ok : Bool) (s : State) : Host.Outcome State Fault Refusal :=
  onUnit 13 (fun d =>
    if d.scu.load ≠ .image || !d.scu.fromHarbour || d.scu.imgVerdict then d
    else match ok, d.scu.imgCopy with
      | true, some h => checkLoad (startSeqs (modScu d fun s => { s with imgVerdict := true, imgHead := h }))
      | _, _ => modScu d fun s => { s with fromHarbour := false, loadStart := d.now, imgCount := 0, imgDone := false,
                                           rtOut := s.rtOut ++ [(0, 2)] }) s

/-! ### The logbook (R330) -/

/-- FORMAT (R330, R242): every harbour table at its initial content, the journal empty but for a CKPT record at LSN 0, and
the fault queue empty. -/
def formatHarbour (d : Dev) : Dev :=
  let d := { d with
    harbour := {}, cmds := []
    btc := {}, mfu := {}, plx := {}, blu := {}, lev := {}, mmg := {}
    lbu := { journal := groupUnits 0 [{ body := .ckpt 0 (tideW d) }], nextLsn := 1, durable := 1
             anchor := (0, crcWords [0]), lastCkpt := d.now }
    fsa := { d.fsa with idents := [], exports := [] }
    scu := { d.scu with open_ := [], queue := [], slots := [], pendList := [], faultSeq := 0, formatDue := false } }
  setFld (loadFq d) fLoadLog 2

/-- LOG_FORMAT_DONE (R330). -/
def execLogFormatDone (s : State) : Host.Outcome State Fault Refusal :=
  onUnit 13 (fun d =>
    if d.scu.formatDue && d.scu.load = .image && !inReset d 10 then checkLoad (formatHarbour d) else d) s

/-! ### The end of a load (R331, R332) -/

/-- LOAD_COMPLETE (R331): every island is out of reset; kcp_loaded rises and the block enters REPLAY. -/
def execLoadComplete (s : State) : Host.Outcome State Fault Refusal :=
  onUnit 13 (fun d =>
    if d.scu.load = .checked && fld d fInReset = 0 && d.scu.rst = .none then
      modScu (setFld d fLoadState 2) fun s =>
        { s with load := .none, wdogStart := d.now, wdogWarned := false }
    else d) s

/-- LOAD_FAIL (R332): a reason of SCU_LOAD_STAT.REASON ends the load in progress. -/
def execLoadFail (reason : BitVec 8) (s : State) : Host.Outcome State Fault Refusal :=
  onUnit 13 (fun d =>
    if fld d fLoadState = 1 && 1 ≤ reason.toNat && reason.toNat ≤ 8 then failLoad d reason.toNat else d) s

/-- NO_VERDICT (R332): no verdict within 100 ms of a request. -/
def execNoVerdict (s : State) : Host.Outcome State Fault Refusal :=
  onUnit 13 (fun d =>
    if (d.scu.load = .config || (d.scu.load = .image && !d.scu.fromHarbour && !d.scu.imgVerdict)) &&
        d.scu.loadStart + 100000000 ≤ d.now
    then failLoad d 8 else d) s

/-- SCU_LOAD_CMD RETRY (R332): in UNLOADED only, from the configuration request on. -/
def retryOp (d : Dev) : Dev :=
  if fld d fLoadState ≠ 4 then d
  else requestConfig (modScu d fun s =>
    { s with rst := .release, rstStart := d.now, lastOrder := if fbit d fInReset 1 then 1 else 2 })

/-- RETRY (R332). -/
def execRetry (s : State) : Host.Outcome State Fault Refusal := onUnit 13 retryOp s

end Sys2Proof.Machine
end

