-- ==== Sys2Proof/Machine/Replay.lean ====
section
/-!
DEFINITION. Replay of the logbook after a reset (14 R255 to R257; 10 R174; 16 R289; 19 R331).
-/

namespace Sys2Proof.Machine

/-! ### Redo (R255 step 5) -/

def redoBerth (d : Dev) (st h t : Nat) : Dev :=
  let i := berthIdx h
  let g := berthGen h
  if st = 0 then (if (berthAt d i).gen = g then d else putBerth d i { gen := g })
  else if st = 4 then putBerth d i { state := .retired, gen := g, retireTime := t }
  else if (berthAt d i).gen ≠ g then d
  else modBerth d i fun r => { r with state := if st = 1 then .live else if st = 2 then .halted else .draining }

def redoCtx (d : Dev) (st h t : Nat) : Dev :=
  let i := ctxIdx h
  let g := ctxGen h
  if st = 0 then (if (ctxAt d i).gen = g then d else putCtx d i { gen := g })
  else if st = 3 then putCtx d i { state := .retired, gen := g, retireTime := t }
  else if (ctxAt d i).gen ≠ g then d
  else modCtx d i fun r => { r with state := if st = 1 then .live else .dying }

def modPool (d : Dev) (p : Nat) (f : Pool → Pool) : Dev :=
  modLev d fun l => { l with pools := tset {} l.pools p (f (tget {} l.pools p)) }

/-- A pool step, from its absolute values: the depth and the fresh mark after it, and the indices it moved.
[log 56 DEDUCED unsafe] -/
def redoPool (d : Dev) (p : Nat) (isFree : Bool) (n fresh depth : Nat) (ix : List Nat) : Dev :=
  modPool d p fun r =>
    if isFree then { r with fresh := fresh, stack := r.stack.take (depth - n) ++ ix, held := r.held.filter fun i => !ix.contains i }
    else { r with fresh := fresh, stack := r.stack.take depth, held := (r.held ++ ix).eraseDups }

/-- Indices of the INDEX records that follow a POOL record. -/
def indicesOf : List LogUnit → List Nat
  | u :: r => match u.body with
    | .index ix => ix ++ indicesOf r
    | _ => []
  | [] => []

/-- A MOOR record says whether the context holds the reference (R247). [log 56 DEDUCED unsafe] -/
def redoRef (d : Dev) (ctx m : Nat) (created : Bool) (backing : Nat) : Dev :=
  modMmg d fun g =>
    let same := fun (r : MoorRef) => r.ctx = ctx && r.moor = m
    if created then (if g.refs.any same then g else { g with refs := g.refs ++ [{ ctx := ctx, moor := m, backing := backing, slot := freeSlot g.refs }] })
    else { g with refs := g.refs.filter fun r => !same r }

/-- One record of the window is applied (R255 step 5). The state of a mooring was written through when it changed (R229).
[log 56 DEDUCED unsafe] -/
def redoUnit (d : Dev) (u : LogUnit) (rest : List LogUnit) : Dev :=
  match u.body with
  | .bollard h _ v =>
    if (bolAt d (bolIdx h)).gen = bolGen h then modBol d (bolIdx h) fun r => { r with value := v } else d
  | .pool p f n fresh depth => redoPool d p f n fresh depth (indicesOf rest)
  | .state 1 st h t => redoBerth d st h t
  | .state 2 st h t => redoCtx d st h t
  | .state 4 st h _ =>
    modPool d h fun r => if st = 0 then {} else { r with st := if st = 1 then .live else .dying }
  | .moor ctx m created _ backing => redoRef d ctx m created backing
  | .evalOut p => modBerth d u.berth fun r => { r with params := p }
  | _ => d

/-- [log 56 DEDUCED unsafe] -/
def redo (d : Dev) : List LogUnit → Dev
  | [] => d
  | u :: r => redo (redoUnit d u r) r

/-! ### Settle (R256) -/

/-- Is the context of a command DYING in the durable log? -/
def ctxDying (d : Dev) (h : Nat) : Bool := ctxOk d h && (ctxAt d (ctxIdx h)).state = .dying

/-- Does a command run again with REPLAYED set (R256)? [log 56 DEDUCED unsafe] -/
def reruns (c : Cmd) : Bool :=
  c.spec.replay && (c.spec.op.launchesTiles || (match c.spec.op with | .eval .. => true | _ => false))

/-- [log 56 DEDUCED unsafe] -/
def settleCmd (d : Dev) (c : Cmd) : Dev :=
  if c.completeLsn.isSome then d
  else if ctxDying d c.ctx then incSat (completeCmd d c.key stAborted 1) fLbuAborted
  else if c.skipped then d
  else if c.needsBegin && c.beginLsn.isSome then incSat (completeCmd d c.key stAborted 2) fLbuAborted
  else
    let d := modCmd d c.key fun x => { x with readySince := d.now, replayed := reruns c }
    if reruns c then incSat d fLbuReplayed else d

/-- Commands that a durable record with BRANCHED skips (R102: replay never decides a branch again). -/
def branchedCmds (d : Dev) : List Cmd := d.cmds.filter fun c => c.branched && c.completeLsn.isSome

def reskip (d : Dev) : Dev :=
  (branchedCmds d).foldl (fun d c => markSkips d c.berth c.headIdx c.spec.lineNo c.spec.brTarget) d

/-! ### Rings and indices (R255 step 7, R257) -/

/-- The greater of two indices modulo 2^32 (R77). -/
def idxMax (a b : Nat) : Nat := if idxSub b a < 2 ^ 31 then b else a

/-- Ring SEQs of a berth that the window's COMPLETE records take: those written, and, from CPL_PROD on, those owed. -/
def windowSeqs (d : Dev) (h : Nat) : List Nat :=
  let r := berthAt d (berthIdx h)
  let owed := (d.cmds.filter fun c => c.berth = berthIdx h && c.completeLsn.isSome && !c.ringDone).length
  (d.lbu.rings.filter fun e => d.lbu.tail ≤ e.1 && e.2.1 = h).map (·.2.2.1) ++ (List.range owed).map fun i => (r.cplProd + i) % 2 ^ 32

/-- Ring records to write again: those of the window, oldest ring SEQ first, without those whose slot a later one uses.
[log 56 DEDUCED unsafe] -/
def ringRewrites (d : Dev) : List (Nat × Nat × Nat × List W64) :=
  (d.lbu.rings.filter fun e => d.lbu.tail ≤ e.1 && berthOk d e.2.1).filter fun e =>
    let size := 2 ^ (berthAt d (berthIdx e.2.1)).cplLog2
    !(windowSeqs d e.2.1).any fun n => n ≠ e.2.2.1 && idxSub n e.2.2.1 < 2 ^ 31 && n % size = e.2.2.1 % size

/-- [log 56 DEDUCED unsafe] -/
def rewriteRing (d : Dev) (e : Nat × Nat × Nat × List W64) : Dev :=
  let r := berthAt d (berthIdx e.2.1)
  let c := ctxAt d r.ctxIdx
  incWrap (memReq d (.cplWrite c.asid c.keyid c.pid (cplAddr r e.2.2.1) e.2.2.2)) fLbuRings

/-- ACC_IDX of a berth from the window. -/
def windowAcc (d : Dev) (b : Nat) : Nat :=
  d.lbu.journal.foldl (fun a u => match u.body with
    | .accept h _ head n _ => if h = berthHandle b (berthAt d b).gen then idxMax a ((head + 1 + n) % 2 ^ 32) else a
    | _ => a) (berthAt d b).acc

/-- CPL_PROD of a berth: one past the highest ring SEQ written. -/
def windowCpl (d : Dev) (b : Nat) : Nat :=
  d.lbu.rings.foldl (fun a e => if e.2.1 = berthHandle b (berthAt d b).gen then idxMax a ((e.2.2.1 + 1) % 2 ^ 32) else a)
    (berthAt d b).cplProd

def setIndices (d : Dev) (b : Nat) : Dev :=
  let acc := windowAcc d b
  let d := modBerth d b fun r => { r with acc := acc, cons := acc, prod := idxMax r.prod acc, fopen := false, rung := false,
                                          cplProd := windowCpl d b }
  modBerth d b fun r => { r with done := doneIdx d b }

/-- COMPLETE records of the window whose ring record had not been written are written now, in CPL_SEQ order.
[log 56 DEDUCED unsafe] -/
def writeOwed : Nat → Dev → Nat → Dev
  | 0, d, _ => d
  | n + 1, d, b =>
    match nextRing d b with
    | some c =>
      if c.phase = .complete && (match c.completeLsn with | some l => durableAt d l | none => false) then
        writeOwed n (incWrap (ringWrite d c) fLbuRings) b
      else d
    | none => d

/-! ### Release (R255 step 8) -/

/-- Teardowns of DYING contexts resume; their bollards are ABANDONED. Other ABANDONED bollards hold anew (R71).
[log 56 DEDUCED unsafe] -/
def resumeTeardowns (d : Dev) : Dev :=
  let dying := (d.btc.ctx.filter fun e => e.2.state = .dying).map fun e => (e.1, ctxHandle e.1 e.2.gen)
  let d := dying.foldl (fun d e =>
    let d := modBtc d fun b => { b with teardowns := tput b.teardowns e.1 { handle := e.2, stopped := false } }
    (d.blu.slots.filter fun s => s.2.state = .live && bolOwner s.2 = e.2).foldl (fun d s => abandonBol e.2 d s.1) d) d
  (d.blu.slots.filter fun s => s.2.state = .abandoned && !dying.any fun e => e.2 = bolOwner s.2).foldl (fun d s =>
    modBtc d fun b => { b with holds := tput b.holds s.1 (d.now + us (fld d fBtcHoldUs)) }) d

/-- The counts of a context record that other records give: its slots, its blocks, its references (04, Records; R161, R230).
[log 56 DEDUCED unsafe] -/
def recountCtx (d : Dev) (i : Nat) : Dev :=
  let h := ctxHandle i (ctxAt d i).gen
  let berths := d.btc.berth.filter fun e => ownerOf e.2 = h && (e.2.state = .live || e.2.state = .halted || e.2.state = .draining)
  let bols := d.blu.slots.filter fun e => bolOwner e.2 = h && (e.2.state = .live || e.2.state = .abandoned)
  modCtx d i fun r => ({ r with
    berthCount := berths.length, bollardCount := bols.length, mooringsHeld := (d.mmg.refs.filter fun x => x.ctx = h).length,
    blocksHeld := d.lev.pools.foldl (fun n e => if e.2.owner = h then n + e.2.held.length else n) 0 } : CtxRec).recount

def recountAll (d : Dev) : Dev :=
  ((d.btc.ctx.filter fun e => e.2.state = .live || e.2.state = .dying).map (·.1)).foldl recountCtx d

/-- The watch writes not acknowledged at the reset are issued again with the same VALUE word (R259); an event that had not been
raised is raised now (R186). [log 56 DEDUCED unsafe] -/
def resendWatches (d : Dev) : Dev :=
  let ws := d.blu.watches
  ws.foldl (fun d w =>
    let c := ctxAt d (ctxIdx w.owner)
    let d := modBol d (bolIdx w.handle) fun r => { r with watchArm := false }
    let d := memReq d (.watchWrite c.asid c.keyid c.pid w.va w.value)
    if w.irq && !w.sent then raiseEvent d 5 0 else d)
    (modBlu d fun b => { b with watches := ws.map fun w => { w with sent := true } })

/-- The replay (R255 steps 3 to 8, R256, R257). [log 56 DEDUCED unsafe] -/
def replayOp (d : Dev) : Dev :=
  let d := setFld (setFld (setFld d fLbuReplayed 0) fLbuAborted 0) fLbuRings 0
  let d := recountAll (redo d (d.lbu.journal.filter fun u => d.lbu.tail ≤ u.lsn))
  let d := (d.mfu.mans.filter fun m => m.st = .logged).foldl installManifest d
  let d := (d.mfu.mans.filterMap (·.entry)).foldl raiseUse (setEntries d (d.plx.entries.map fun e => { e with inUse := 0 }))
  let d := modHms d fun h => { h with order := (d.mfu.mans.map (·.berthIdx)).eraseDups }
  let bs := (d.btc.berth.filter fun e => e.2.state = .live || e.2.state = .halted || e.2.state = .draining).map (·.1)
  let d := bs.foldl (fun d b => modBerth d b fun r => { r with cplProd := windowCpl d b }) (reskip d)
  let d := d.cmds.foldl settleCmd d
  let d := (branchedCmds d).foldl (fun d c => runSkips d c.berth c.headIdx) d
  let d := (ringRewrites d).foldl rewriteRing d
  let d := bs.foldl setIndices d
  let d := bs.foldl (fun d b => writeOwed d.cmds.length d b) d
  let d := restartLoads (resendWatches (resumeTeardowns d))
  let d := modHms d fun h => { h with released := true }
  let d := raiseEvent (setFld d fLoadState 3) 7 0
  let d := if d.scu.rstCause ≠ 0 then raiseEvent (modScu d fun s => { s with rstCause := 0 }) 0 4 else d
  laterTarget d

/-- The log ends at an LSN: what the block has kept beyond it is undone. [log 17 DEDUCED unsafe] -/
def cutLog (d : Dev) (n : Nat) : Dev :=
  if d.lbu.nextLsn ≤ n then d
  else
    let d := modLbu d fun l => { l with durable := n }
    let cs := keptCmds d
    let ms := keptMans d
    let g := keptMmg d
    let d := modLbu d fun l => { l with journal := durableJournal d, nextLsn := n, acked := [] }
    { d with cmds := cs, mfu := { d.mfu with mans := ms }, mmg := g }

/-- The units of the window that the scan takes: up to the first that fails its CRC (R244, R255 step 4). -/
def scanned (prev : List W64) : List LogUnit → List LogUnit
  | [] => []
  | u :: r => if u.passes prev then u :: scanned u.words r else []

/-- The journal's window starts at the tail of the CKPT record that the anchor names (R255 step 3). -/
def locate (d : Dev) : Dev :=
  match d.lbu.journal.find? fun u => u.lsn = d.lbu.anchor.1.toNat with
  | some u => match u.body with
    | .ckpt tail _ => modLbu d fun l => { l with tail := tail }
    | _ => d
  | none => d

/-- The scan (R255 steps 3 and 4): the log ends before the first unit that fails. -/
def scan (d : Dev) : Dev :=
  let d := locate d
  let us := scanned [] d.lbu.journal
  match (d.lbu.journal.drop us.length).head? with
  | some u => cutLog d u.lsn
  | none => d

/-- REPLAY (R255): the block is in REPLAY; at its release it enters LOADED (R331). -/
def execReplay (s : State) : Host.Outcome State Fault Refusal :=
  onUnit 10 (fun d => if fld d fLoadState ≠ 2 || d.scu.rst ≠ .none then d else replayOp (scan d)) s

/-- LSN of the unit of the window at an offset in the harbour region (R242). [log 17 DEDUCED unsafe] -/
def lsnAt (d : Dev) (o : Nat) : Option Nat :=
  let c := d.scu.cfg
  let k := (o - (offLog + 0x1000)) / 32
  let n := d.lbu.tail + (k + c.logUnits - d.lbu.tail % c.logUnits) % c.logUnits
  if offLog + 0x1000 ≤ o && k < c.logUnits && n < d.lbu.nextLsn then some n else none

/-- HARBOUR_POISON_READ (R261): `other` is the other mirror's answer. A unit of the window that neither mirror can read at replay is the
machine check of code 0x23, and the log ends there (R259). [log 17 DEDUCED unsafe] -/
def execHarbourPoisonRead (mirror : Bool) (page : HarbourAt) (other : MemResp) (s : State) : Host.Outcome State Fault Refusal :=
  onUnit 10 (fun d =>
    let m := if mirror then 1 else 0
    let o := page.page.toNat * 4096 + page.unit.toNat * 32
    let lost := fld d fLoadState = 2 && d.scu.rst = .none && (other ≠ .ok || mirrorSt d (1 - m) ≠ 0)
    poisonRead (match (if lost then lsnAt d o else none) with | some n => cutLog d n | none => d) m o other) s
end Sys2Proof.Machine
end

