-- ==== Sys2Proof/Machine/Pools.lean ====
section
/-!
DEFINITION. Block pools (09 R160 to R165, R167; 06 R109): ALLOC_BLOCKS, FREE_BLOCKS and the pool commands.
-/

namespace Sys2Proof.Machine

def poolAt (d : Dev) (p : Nat) : Pool := tget {} d.lev.pools p

/-- Free blocks of a pool: those on its stack and those above the fresh mark. -/
def freeBlocks (r : Pool) : Nat := r.stack.length + (r.blocks - r.fresh)

/-- A pool command of a LAUNCHED command: its pool and COUNT (R101, R109). -/
def poolOf (o : CmdOp) : Nat := match o with | .alloc p .. => p | .free p .. => p | _ => 0
def countOf (d : Dev) (c : Cmd) : Nat := match c.spec.op with | .alloc _ _ n _ _ => dynVal d c n | .free _ n _ => dynVal d c n | _ => 0

/-- A fault of the pool rules (R161, R162, R298). -/
def poolFault (d : Dev) (k : CmdId) (cause addr a b : Nat) : Dev :=
  faultCmd d k { cause := cause, unit := 7, addr := addr, argA := a, argB := b }

/-- Blocks of a context's allocations between pool step and commit (R161). -/
def blocksInFlight (d : Dev) (ctx : Nat) : Nat :=
  d.lev.allocs.foldl (fun n a => match cmdAt d a.cmd with | some c => if c.ctx = ctx then n + a.ix.length else n | none => n) 0

/-- POOL_STATE of R161: not LIVE, or of another owner. [log 46 DEDUCED unsafe] -/
def poolMine (r : Pool) (ctx : Nat) : Bool := r.st = .live && r.owner = ctx

/-- The checks of an allocation, in order; 0 when it passes (R161). [log 46 DEDUCED unsafe] -/
def allocCause (d : Dev) (c : Cmd) (n : Nat) : Nat :=
  let r := poolAt d (poolOf c.spec.op)
  let x := cmdCtx d c
  if !poolMine r c.ctx then 0x38
  else if r.blocks < n || 65536 < n then 0x39
  else if x.blockLimit < x.blocksHeld + blocksInFlight d c.ctx + n then 0x3A
  else 0

/-- The first `n` indices: from the top of the stack, then from the fresh mark upwards; and the pool after it (R161). -/
def takeIx (r : Pool) (n : Nat) : List Nat × Pool :=
  let k := min n r.stack.length
  let ix := (r.stack.drop (r.stack.length - k)).reverse ++ (List.range (n - k)).map fun i => r.fresh + i
  (ix, { r with stack := r.stack.take (r.stack.length - k), fresh := r.fresh + (n - k), held := r.held ++ ix })

/-- Indices in fours, as INDEX records carry them (R247). -/
def inFours : Nat → List Nat → List (List Nat)
  | 0, _ => []
  | _, [] => []
  | k + 1, l => l.take 4 :: inFours k (l.drop 4)

/-- The POOL and INDEX records of a pool step, for the command's completion group (R245). -/
def poolRecs (p : Nat) (isFree : Bool) (ix : List Nat) (r : Pool) : List LogRec :=
  .pool p isFree ix.length r.fresh r.stack.length :: (inFours ix.length ix).map .index

/-- Where index i of an allocation goes (R109). -/
def outAddrs (out slot n : Nat) (off : List W32) : List Nat :=
  (List.range n).map fun i => if slot = 0 then out + 4 * i else out + (off.getD i 0).toNat

/-- The index writes leave, up to the first whose address is out of range (R161). -/
def sendIndices (d : Dev) (c : Cmd) (ix as : List Nat) : Dev :=
  let x := cmdCtx d c
  ((ix.zip as).takeWhile fun e => e.2 + 4 ≤ 2 ^ 57).foldl (fun d e =>
    memReq d (.levWrite x.asid x.keyid x.pid 2 e.2 (BitVec.ofNat 32 e.1))) d

/-- The pool step of an allocation (R161): the indices are taken and held; the read of SLOT_VA leaves, or the index writes. -/
def takeStep (d : Dev) (c : Cmd) (n : Nat) : Dev :=
  let p := poolOf c.spec.op
  let (ix, r) := takeIx (poolAt d p) n
  let x := cmdCtx d c
  let d := modPool d p fun _ => r
  let d := modLev d fun l => { l with allocs := l.allocs ++ [{ cmd := c.key, pool := p, ix := ix }] }
  let d := modCmd d c.key fun c => { c with step := 1, pre := poolRecs p false ix r }
  match c.spec.op with
  | .alloc _ _ _ out slot =>
    if slot = 0 then sendIndices d c ix (outAddrs out 0 n []) else memReq d (.levRead x.asid x.keyid x.pid 2 slot n)
  | _ => d

/-- POOL_HEAD_RETRY (R165): the head of the wait list while it can be met. -/
def retryHead : Nat → Dev → Nat → Dev
  | 0, d, _ => d
  | k + 1, d, p =>
    match (poolAt d p).waiters with
    | [] => d
    | h :: _ =>
      let pop := fun (d : Dev) => modPool d p fun r => { r with waiters := r.waiters.filter (· ≠ h) }
      match cmdAt d h with
      | none => retryHead k (pop d) p
      | some c =>
        let n := countOf d c
        if flag d (fQreq 6) || freeBlocks (poolAt d p) < n then d
        else
          let cause := allocCause d c n
          let d := pop d
          if cause = 0 then retryHead k (takeStep d c n) p else retryHead k (poolFault d h cause 0 0 0) p

def retryHeads (d : Dev) (p : Nat) : Dev := retryHead (poolAt d p).waiters.length d p

/-! ### FREE_BLOCKS (R162) -/

/-- The check of the indices of a FREE in list order: the first position that fails. Each must lie below the fresh mark and be held,
and not stand earlier in the list. -/
def badIndex (r : Pool) (ix : List Nat) : Option Nat :=
  (List.range ix.length).find? fun i =>
    let x := ix.getD i 0
    r.fresh ≤ x || !r.held.contains x || (ix.take i).contains x

/-- The cause with which a FREE fails before its read; 0 when it passes (R162). -/
def freeCause (d : Dev) (c : Cmd) (n : Nat) : Nat :=
  if !poolMine (poolAt d (poolOf c.spec.op)) c.ctx then 0x38 else if 65536 < n then 0x39 else 0

def inVa (o : CmdOp) : Nat := match o with | .free _ _ a => a | _ => 0

/-- The read of IN_VA leaves (R374). -/
def askFree (d : Dev) (c : Cmd) (n : Nat) : Dev :=
  let x := cmdCtx d c
  memReq d (.levRead x.asid x.keyid x.pid 3 (inVa c.spec.op) n)

/-- The pool step of a FREE whose indices pass (R162). -/
def freeStep (d : Dev) (c : Cmd) (ix : List Nat) : Dev :=
  let p := poolOf c.spec.op
  let r := poolAt d p
  let r := { r with stack := r.stack ++ ix, held := r.held.filter fun i => !ix.contains i }
  let d := modPool d p fun _ => r
  let d := modCtx d (ctxIdx c.ctx) fun x => { x with blocksHeld := x.blocksHeld - ix.length }
  let d := modCmd d c.key fun c => { c with pre := poolRecs p true ix r }
  retryHeads (finishOk d c.key) p

/-- FREE_BLOCKS at its own turn; none for a context that is DYING (R67). [log 46 DEDUCED unsafe] -/
def freeOp (d : Dev) (c : Cmd) (read : FreeRead) : Dev :=
  let n := countOf d c
  let ix := read.idx.map (·.toNat)
  match c.spec.op with
  | .free .. =>
    if flag d (fQreq 6) || !ctxLive d c.ctx then d
    else if n = 0 then finishOk d c.key
    else if freeCause d c n ≠ 0 then poolFault d c.key (freeCause d c n) 0 0 0
    else if read.cmd ≠ c.key then d
    else
      let d := askFree d c n
      if read.r ≠ .ok || 2 ^ 57 < inVa c.spec.op + 4 * n then
        let a := if read.r ≠ .ok then failedAddr (inVa c.spec.op) ix.length n else 2 ^ 57
        poolFault (memErr d 6 read.r a) c.key 0x3C a 0 0
      else if ix.length ≠ n then d
      else match badIndex (poolAt d (poolOf c.spec.op)) ix with
        | some i => poolFault d c.key 0x3B 0 i (ix.getD i 0)
        | none => freeStep d c ix
  | _ => d

/-- FREE_BLOCKS (R162): `read` is what the read of IN_VA returned. -/
def execFreeBlocks (c : CmdId) (read : FreeRead) (s : State) : Host.Outcome State Fault Refusal :=
  onUnit 7 (fun d => atIssue d c fun x => freeOp d x read) s

/-! ### ALLOC_BLOCKS (R161, R163, R165) -/

/-- Has a command had no effect yet: not issued, or issued and not carried out? -/
def untouched (x : Cmd) : Bool := x.phase = .waiting || (x.phase = .issued && x.step = 0 && x.status.isNone)

/-- FREE_BLOCKS that an allocation may hoist (R163), in ring order: later in the same manifest, on the same pool, without waits, its
parameter registers set, not applied, and passing the checks that need no read. [log 46 DEDUCED unsafe] -/
def hoistable (d : Dev) (c : Cmd) : List Cmd :=
  d.cmds.filter fun x => x.berth = c.berth && x.headIdx = c.headIdx && c.spec.lineNo < x.spec.lineNo &&
    (match x.spec.op with | .free p _ _ => p = poolOf c.spec.op | _ => false) && x.spec.waits.isEmpty && untouched x &&
    !x.skipped && x.spec.op.reads.all (paramReady d x) && (countOf d x = 0 || freeCause d x (countOf d x) = 0)

/-- FREE_HOIST (R163): the free is applied and completed early; one that would fail changes nothing. -/
def hoistOne (reads : List FreeRead) (d : Dev) (k : CmdId) : Dev :=
  match cmdAt d k with
  | none => d
  | some x =>
    let n := countOf d x
    if !untouched x then d
    else if n = 0 then finishOk d k
    else if freeCause d x n ≠ 0 then d
    else
      let d := askFree d x n
      match reads.find? fun r => r.cmd = k with
      | none => d
      | some r =>
        let ix := r.idx.map (·.toNat)
        if r.r ≠ .ok || 2 ^ 57 < inVa x.spec.op + 4 * n then memErr d 6 r.r (failedAddr (inVa x.spec.op) ix.length n)
        else if (badIndex (poolAt d (poolOf x.spec.op)) ix).isSome then d
        else freeStep d x ix

/-- Have the reads of every free to be hoisted come back? -/
def readsIn (d : Dev) (c : Cmd) (reads : List FreeRead) : Bool :=
  (hoistable d c).all fun x => countOf d x = 0 ||
    reads.any fun r => r.cmd = x.key && (r.r ≠ .ok || r.idx.length = countOf d x)

/-- Can an allocation be served at once (R161)? [log 46 DEDUCED unsafe] -/
def servable (d : Dev) (p n : Nat) : Bool := (poolAt d p).waiters.isEmpty && n ≤ freeBlocks (poolAt d p)

/-- What an allocation comes to after hoisting: served, POOL_EMPTY with its branch, or waiting (R165).
[log 46 DEDUCED unsafe] -/
def allocDecide (d : Dev) (c : Cmd) (nowait : Bool) (n : Nat) : Dev :=
  let p := poolOf c.spec.op
  if servable d p n then takeStep d c n
  else if nowait then
    branchCheck (completeCmd (modCmd d c.key fun c => { c with branched := c.spec.brCond = 1 }) c.key stPoolEmpty 0) c.key
  else incSat (modPool d p fun r => { r with waiters := r.waiters ++ [c.key] }) fLevWaits

/-- The pool step of an ALLOC, or its wait. The LEV takes no pool step for a command of a context that is DYING: it receives
ABORTED (R165, R67). -/
def allocOp (d : Dev) (c : Cmd) (reads : List FreeRead) : Dev :=
  match c.spec.op with
  | .alloc p nowait _ _ _ =>
    let n := countOf d c
    if flag d (fQreq 6) || !ctxLive d c.ctx || (poolAt d p).waiters.contains c.key then d
    else if n = 0 then finishOk d c.key
    else if allocCause d c n ≠ 0 then poolFault d c.key (allocCause d c n) 0 0 0
    else if servable d p n then takeStep d c n
    else if !readsIn d c reads then d
    else
      let d := ((hoistable d c).map (·.key)).foldl (hoistOne reads) d
      withCmd d c.key fun c => if c.status.isSome || !ctxLive d c.ctx then d else allocDecide d c nowait n
  | _ => d

/-- ALLOC_BLOCKS (R161): `reads` is what the reads of the hoisted FREE_BLOCKS returned. -/
def execAllocBlocks (c : CmdId) (reads : List FreeRead) (s : State) : Host.Outcome State Fault Refusal :=
  onUnit 7 (fun d => atIssue d c fun x => allocOp d x reads) s

/-- The addresses of the output writes: one a line for contiguous output, one an index otherwise (R166). -/
def outWrites (slot : Nat) (as : List Nat) : List Nat :=
  if slot = 0 then as.filter fun a => as.head? = some a || lineOf (a - 4) ≠ lineOf a else as

/-- The indices of a failed allocation return to the stack in reverse order; the command ends with POOL_IO (R161). -/
def allocFail (d : Dev) (c : Cmd) (a : AllocOpen) (r : MemResp) (addr : Nat) : Dev :=
  let d := memErr d 6 r addr
  let d := modLev d fun l => { l with allocs := l.allocs.filter (· ≠ a) }
  let d := modPool d a.pool fun p =>
    { p with stack := p.stack ++ a.ix.reverse, held := p.held.filter fun i => !a.ix.contains i }
  retryHeads (poolFault d c.key 0x3C addr 0 0) a.pool

/-- Every write is acknowledged: BLOCKS_HELD and BLOCKS_PEAK rise and the command completes (R161). -/
def allocDone (d : Dev) (c : Cmd) (a : AllocOpen) : Dev :=
  let d := modLev d fun l => { l with allocs := l.allocs.filter (· ≠ a) }
  let d := modCtx d (ctxIdx c.ctx) fun x =>
    let h := x.blocksHeld + a.ix.length
    { x with blocksHeld := h, blocksPeak := max x.blocksPeak h }
  finishOk d c.key

/-- The answers have come: a poison bit on a write's answer is ignored (02 R383). -/
def allocCommit (d : Dev) (c : Cmd) (slots : SlotRead) (w : List MemResp) : Dev :=
  match c.spec.op, d.lev.allocs.find? fun a => a.cmd = c.key with
  | .alloc _ _ _ out slot, some a =>
    let n := a.ix.length
    if slot ≠ 0 && (slots.r ≠ .ok || 2 ^ 57 < slot + 4 * n) then
      allocFail d c a slots.r (if slots.r ≠ .ok then failedAddr slot slots.off.length n else 2 ^ 57)
    else if slot ≠ 0 && slots.off.length ≠ n then d
    else
      let as := outAddrs out slot n slots.off
      let ws := outWrites slot as
      let d' := if slot = 0 then d else sendIndices d c a.ix as
      match as.find? fun a => 2 ^ 57 < a + 4 with
      | some bad => allocFail d' c a .ok bad
      | none => match (List.range ws.length).find? fun i => w.getD i .ok ≠ .ok && w.getD i .ok ≠ .poison with
        | some i => allocFail d' c a (w.getD i .ok) (ws.getD i 0)
        | none => if w.length < ws.length then d else allocDone d' c a
  | _, _ => d

/-- ALLOC_COMMIT (R161): the answers of the SLOT_VA read and of the output writes. -/
def execAllocCommit (c : CmdId) (slots : SlotRead) (w : List MemResp) (s : State) : Host.Outcome State Fault Refusal :=
  onUnit 7 (fun d => withCmd d c fun x => if x.status.isSome then d else needBerth d x.berth (allocCommit d x slots w)) s

/-! ### Pool commands (R160, R167) -/

/-- Blocks the pool area holds: 4 bytes of stack and 1 bit of held state each (R160). -/
def areaBlocks (d : Dev) : Nat := d.scu.cfg.poolArea * 8 / 33

/-- A part of the area joins a list sorted by base. -/
def insPart (x : Nat × Nat) : List (Nat × Nat) → List (Nat × Nat)
  | [] => [x]
  | y :: r => if x.1 ≤ y.1 then x :: y :: r else y :: insPart x r

/-- The parts of the area in use, by base. -/
def areaUsed (d : Dev) : List (Nat × Nat) :=
  ((d.lev.pools.filter fun p => p.2.st ≠ .free).map fun p => (p.2.base, p.2.blocks)).foldr insPart []

/-- First fit from `at_` (R160). -/
def firstFit (cap blocks at_ : Nat) : List (Nat × Nat) → Option Nat
  | [] => if at_ + blocks ≤ cap then some at_ else none
  | (b, n) :: r => if at_ + blocks ≤ b then some at_ else firstFit cap blocks (b + n) r

/-- CREATE, DESTROY and READ: the block after it and the RESULT. [log 46 DEDUCED unsafe] -/
def poolStep (d : Dev) (op p : Nat) (cfg : W64) : Dev × Nat :=
  let r := poolAt d p
  let owner := getBits cfg 63 32
  let blocks := getBits cfg 24 0
  if op = 1 then
    if r.st ≠ .free || blocks = 0 || 2 ^ 24 < blocks then (d, 2)
    else if !ctxLive d owner then (d, 1)
    else match firstFit (areaBlocks d) blocks 0 (areaUsed d) with
      | none => (d, 3)
      | some b => (logState (modPool d p fun _ => { st := .live, owner := owner, blocks := blocks, base := b }) 4 1 p, 0)
  else if op = 2 then
    if r.st ≠ .live then (d, 2)
    else if !r.held.isEmpty || !r.waiters.isEmpty then (d, 4)
    else (logState (modPool d p fun _ => {}) 4 0 p, 0)
  else if op = 3 then
    let st := match r.st with | .free => 0 | .live => 1 | .dying => 2
    let d := setFld (setFld d fLevPoolOwner r.owner) fLevPoolBlocks r.blocks
    let d := setFld (setFld d fLevInfoState st) ⟨6, 0x0A0, 56, 32⟩ (freeBlocks r)
    (setFld d ⟨6, 0x0A0, 15, 0⟩ (min r.waiters.length 0xFFFF), 0)
  else (d, 2)

/-- The pool command begun is carried out, unless the LEV is quiesced: RESULT, SEQ and BUSY in one cycle, and LEV event 0 (R167).
[log 12 DEDUCED unsafe] -/
def poolTry (d : Dev) : Dev :=
  match d.lev.poolOp with
  | none => d
  | some (op, p, cfg) =>
    if flag d (fQuiesced 6) then d
    else
      let (d, res) := poolStep (modLev d fun l => { l with poolOp := none }) op p cfg
      raiseEvent (setFld (incWrap (setFld d fLevPoolResult res) fLevPoolSeq) fLevPoolBusy 0) 6 0

/-- A write of LEV_POOL_CMD: while BUSY it is discarded and LOST is set. -/
def poolCmd (d : Dev) (op : Nat) : Dev :=
  if flag d fLevPoolBusy then setFld d fLevPoolLost 1
  else poolTry (modLev (setFld d fLevPoolBusy 1) fun l => { l with poolOp := some (op, fld d fLevPoolIndex, reg d 6 0x088) })

/-- POOL_CREATE (R160). -/
def execPoolCreate (s : State) : Host.Outcome State Fault Refusal := onUnit 7 (fun d => poolCmd d 1) s
/-- POOL_DESTROY (R160). -/
def execPoolDestroy (s : State) : Host.Outcome State Fault Refusal := onUnit 7 (fun d => poolCmd d 2) s
/-- POOL_READ (R167). -/
def execPoolRead (s : State) : Host.Outcome State Fault Refusal := onUnit 7 (fun d => poolCmd d 3) s

/-- A quiesce of the LEV ends: programs, pool steps and the pool command go on (R167). -/
def levRelease (d : Dev) : Dev :=
  let d := poolTry (pumpEvals d)
  (d.lev.pools.map (·.1)).foldl retryHeads d

/-! ### The owner's end (R67, R160) -/

/-- The pools of a context that ends move from DYING to FREE; all their blocks count as returned. -/
def freePools (d : Dev) (h : Nat) : Dev :=
  (d.lev.pools.filter fun p => p.2.st ≠ .free && p.2.owner = h).foldl (fun d p => logState (modPool d p.1 fun _ => {}) 4 0 p.1) d

/-- The LEV holds nothing more of a command; an engine or a place it leaves is taken at once (R154). -/
def levDrop (d : Dev) (k : CmdId) : Dev :=
  pumpEvals (modLev d fun l => { l with
    engines := l.engines.map fun e => match e with | some r => if r.cmd = k then none else some r | none => none
    store := l.store.filter fun e => e.1 ≠ k
    allocs := l.allocs.filter fun a => a.cmd ≠ k })

end Sys2Proof.Machine
end

