-- ==== Sys2Proof/Machine/RegRead.lean ====
section
/-!
DEFINITION. What a register reads as (03 R41, R46): its stored fields, and the fields that only report what the block holds
elsewhere.
-/

namespace Sys2Proof.Machine

/-- Pages with a quay marked absent (R36). [log 11 DEDUCED unsafe] -/
def pageAbsent (d : Dev) (p : Nat) : Bool := pageKind p = .quay && nbit d.scu.cfg.quayAbsent (pageInst p)

/-- PAGE_ID of an implemented page. -/
def pageId (p : Nat) : W64 :=
  mkW [(48, 0x4B43), (32, pageUnit p), (24, if pageKind p = .window then 1 else 0), (16, pageInst p), (0, p)]

/-- PAGE_VER. -/
def pageVer : W64 := mkW [(32, 2), (24, 2), (8, 1)]

/-- PAGE_CAP. -/
def pageCap (p : Nat) : W64 := mkW [(24, pageIrqN p), (0, pageTop p)]

/-- Header fields that report (R46, R201). -/
def headRead (d : Dev) (p off : Nat) : List (Nat × Nat) :=
  if off = 0x020 then
    [(3, bit01 (pageAbsent d p)), (2, fld d (fErrValid p))] ++ (if p = 5 then [(32, d.blu.parts.length)] else [])
  else []

/-- Levels of 64 sources from `n` on (R309, R320). -/
def levels (d : Dev) (n : Nat) : Nat := (List.range 64).foldl (fun m i => if srcLevel d (n + i) then m + 2 ^ i else m) 0

/-- Every island that may doze dozes (R337). -/
def allDoze (d : Dev) : Bool := (List.range 15).all fun u => u < 2 || u = 9 || u = 13 || fbit d fDozing u

/-- SCU fields that report (R320, R341, R355). -/
def scuRead (d : Dev) (off : Nat) : List (Nat × Nat) :=
  let toks := d.scu.tokens
  if off = 0x0A0 then [(0, levels d 0)]
  else if off = 0x0A8 then [(0, levels d 64)]
  else if 0x100 ≤ off && off < 0x180 then
    let g := (off - 0x100) / 8
    [(63, bit01 (timerLost d g)), (62, bit01 (!grpOpen d g))]
  else if off = 0x1B8 then (if fld d fPwrState = 0 && allDoze d then [(0, 2)] else [])
  else if off = 0x200 then
    let acts := (List.range 6).foldl (fun m i => if toks.any fun t => t.any fun k => nbit k.actions i then m + 2 ^ i else m) 0
    let slots := (List.range 8).foldl (fun m i => if (toks.getD i none).isSome then m + 2 ^ i else m) 0
    [(24, acts), (16, slots), (4, d.scu.cfg.secMax), (2, d.scu.cfg.secBase), (0, d.scu.sec)]
  else if 0x218 ≤ off && off ≤ 0x250 then
    match toks.getD ((off - 0x218) / 8) none with
    | some k => [(32, k.id), (16, k.actions), (12, min k.grant d.scu.cfg.secMax), (0, 1)]
    | none => []
  else if off = 0x258 then [(16, d.scu.cfg.harbourKeyid), (0, d.scu.cfg.arenaKeyid)]
  else []

/-- BTC fields that report (04, BTC page registers; R277). -/
def btcRead (d : Dev) (off : Nat) : List (Nat × Nat) :=
  let cs := d.btc.ctx
  if off = 0x080 then
    [(32, (d.btc.berth.filter fun e => berthLives e.2).length),
     (0, (cs.filter fun e => e.2.state = .live || e.2.state = .dying).length)]
  else if off = 0x090 then [(0, (cs.filter fun e => e.2.state = .dying).length)]
  else if off = 0x0A0 then [(32, pinnedBerths d), (0, pinnedCtxs d)]
  else if off = 0x0B8 then [(40, d.mfu.mans.length), (16, d.coh.dir.length), (0, d.coh.busy.length)]
  else []

/-- PLX fields that report (R131): versions from the image, role and activity, and occupancy on PC0. -/
def plxRead (d : Dev) (n off : Nat) : List (Nat × Nat) :=
  if off = 0x080 then
    (56, 1) :: (if d.scu.imgVerdict then [(32, curCatVer d), (0, curEpoch d)] else [])
  else if off = 0x088 then [(1, bit01 (d.plx.queue.any fun x => x.pilot = some n)), (0, bit01 (isTranslator d n))]
  else if n = 0 && off = 0x098 then
    [(32, (d.plx.entries.filter (·.harbour)).length), (0, field16 0 (d.plx.entries.filter (·.onChip)).length)]
  else []

/-- Quay fields that report (R153). -/
def qptRead (d : Dev) (q off : Nat) : List (Nat × Nat) :=
  if off = 0x080 then
    [(32, (quayAt d q).out.length), (16, (quayAt d q).engines), (6, if q < 32 then 0 else if q < 48 then 1 else 2)]
  else []

/-- LEV fields that report (R167). -/
def levRead (d : Dev) (off : Nat) : List (Nat × Nat) :=
  if off = 0x0A8 then [(32, (areaUsed d).foldl (fun n x => n + x.2) 0), (0, areaBlocks d)]
  else if off = 0x0B0 then
    [(32, storeUse d), (0, (List.range 4).foldl (fun m i => if (d.lev.engines.getD i none).isSome then m + 2 ^ i else m) 0)]
  else []

/-- MMG fields that report (R241). -/
def mmgRead (d : Dev) (off : Nat) : List (Nat × Nat) :=
  let ms := d.mmg.moors.filter fun e => e.2.st ≠ .free
  if off = 0x090 then
    [(32, arenaGranules d), (0, (ms.filter fun e => e.2.placed).foldl (fun n e => n + granulesOf e.2.size) 0)]
  else if off = 0x0C0 then [(32, d.mmg.refs.length), (0, ms.length)]
  else []

/-- FSA fields that report (R295). -/
def fsaRead (d : Dev) (off : Nat) : List (Nat × Nat) :=
  if off = 0x098 then
    [(0, (List.range 48).foldl (fun m i =>
      let l := at' {} d.fsa.links i
      if l.up && l.st ≠ .foreign && !l.quarantined then m + 2 ^ i else m) 0)]
  else if off = 0x0E8 then [(0, tideW d)]
  else if off = 0x0F0 then [(62, bit01 (d.now < d.fsa.holdUntil))]
  else if off = 0x100 then [(32, d.fsa.exports.length), (0, d.fsa.idents.length)]
  else if off = 0x108 then [(32, activePartners d)]
  else []

/-- DTC_TRACE_DATA0 to 3: the record at DTC_TRACE_RD; an entry no record has been written to reads as an empty one (R365). -/
def dtcRead (d : Dev) (off : Nat) : List (Nat × Nat) :=
  if 0x0E8 ≤ off && off ≤ 0x100 then
    match tfind d.dtc.sram (fld d fDtcRd) with
    | some r => [(0, ((traceWords r).getD ((off - 0x0E8) / 8) 0).toNat)]
    | none => []
  else []

/-- The fields of a register that report what the block holds elsewhere: lowest bit and value. -/
def reports (d : Dev) (p off : Nat) : List (Nat × Nat) :=
  if off < 0x080 then headRead d p off
  else match pageKind p with
    | .scu => scuRead d off
    | .btc => btcRead d off
    | .pilot => plxRead d (p - 0x10) off
    | .quay => qptRead d (p - 0x40) off
    | .lev => levRead d off
    | .mmg => mmgRead d off
    | .fsa => fsaRead d off
    | .dtc => dtcRead d off
    | .mfu =>
      if off = 0x098 then [(16, min d.mfu.stash.length 0xFFFF), (0, d.mfu.fetches.length)] else []
    | .hms =>
      if off = 0x0A0 then [(0, d.hms.save.length)]
      else if off = 0x158 then
        [(32, (d.hms.stallB.filter (·.2.reported)).length), (0, (d.hms.stallQ.filter (·.2.reported)).length)]
      else []
    | .blu => if off = 0x0C0 then [(32, min d.blu.waits.length 32768), (0, d.blu.waits.length)] else []
    | .lbu => if off = 0x088 then [(0, d.lbu.durable)] else if off = 0x090 then [(0, d.lbu.tail)] else []
    | _ => []

/-- The value of a register of an implemented page out of reset (R41, R46): zero at and above TOP. -/
def regRead (d : Dev) (p off : Nat) : W64 :=
  if pageKind p = .reserved || pageTop p ≤ off then 0
  else if off = 0 then pageId p
  else if off = 0x008 then pageVer
  else if off = 0x010 then pageCap p
  else (reports d p off).foldl (fun w f => w ||| BitVec.ofNat 64 (f.2 * 2 ^ f.1)) (reg d p off)

/-- The read clears the register's RC fields (R41). -/
def clearRc (d : Dev) (p off : Nat) : Dev :=
  ((regRows p off).filter fun r => r.acc = .rc).foldl (fun d r => setReg d p off (setBits (reg d p off) r.hi r.lo 0)) d

/-- Does a page count as in reset under R43: its island is held, its clock has failed, its quay is STOPPED (R150), or its pilot is
held in reset after a lock-up (R334)? [log 11 DEDUCED unsafe] -/
def pageInReset (d : Dev) (p : Nat) : Bool :=
  inReset d (pageUnit p) || fbit d fClkFail (pageUnit p) || (pageKind p = .quay && fld d (fQptState (pageInst p)) = 4) ||
    (pageKind p = .pilot && (at' {} d.dtc.pilots (pageInst p)).reset)

/-- What the HPU answers for a page in reset, from its own copies (R43). [log 11 DEDUCED unsafe] -/
def resetRead (d : Dev) (p off : Nat) : W64 :=
  if off = 0 then pageId p
  else if off = 0x008 then pageVer
  else if off = 0x020 then mkW [(0, 1), (3, bit01 (pageAbsent d p))]
  else 0

/-- A read of the register space at the HPU or the debug access port: the value, and the block after it. -/
def pageRead (d : Dev) (p off : Nat) : Dev × W64 :=
  if pageKind p = .reserved then (d, 0)
  else if pageInReset d p then (d, resetRead d p off)
  else
    let d := wakeUnit d (pageUnit p)
    (clearRc d p off, regRead d p off)

end Sys2Proof.Machine
end

