-- ==== Sys2Proof/Machine/RegWrite.lean ====
section
/-!
DEFINITION. Writes of registers (03 R41, R53): each field by its access type and the values R6 lets it take, the registers whose
write is a command, and the release of a quiesced unit.
-/

namespace Sys2Proof.Machine

/-! ### Fields -/

/-- One field of a register word after a write of `v` (R41, R6). [log 10 DEDUCED unsafe] -/
def writeField (v : W64) (w : W64) (r : FRow) : W64 :=
  let x := getBits v r.hi r.lo
  let old := getBits w r.hi r.lo
  match r.acc with
  | .rw => if r.legal.ok x then setBits w r.hi r.lo x else w
  | .w1c => setBits w r.hi r.lo (old - (old &&& x))
  | .w1s => setBits w r.hi r.lo (old ||| x)
  | .ro | .rc | .wo => w

/-- Every field of a register after a write of `v`. -/
def writeFields (d : Dev) (p off : Nat) (v : W64) : Dev := setReg d p off ((regRows p off).foldl (writeField v) (reg d p off))

/-! ### Quiesce (R53) -/

/-- What a quiesced unit held goes on: its commands and its starts (R53, and the quiesce of each page).
[log 12 DEDUCED unsafe] -/
def releaseHeld (d : Dev) (p : Nat) : Dev :=
  match pageKind p with
  | .btc => (d.btc.win.map (·.1)).foldl winTry d
  | .blu => hcmdTry d
  | .lev => levRelease d
  | .mmg => mmgRelease d
  | .fsa => pumpRoot (exportTry (partnerTry d))
  | .dtc => dtcRelease d
  | .pilot => if p = 0x10 then pumpXlates d else d
  | .quay => offerNext d (pageInst p)
  | .scu | .hpu | .mfu | .hms | .lbu | .tsq | .window | .reserved => d

/-- QREQ falls: QUIESCED clears in the same cycle, or the quiesce is abandoned (R53). [log 12 DEDUCED unsafe] -/
def quiesceEnd (d : Dev) (p : Nat) : Dev := releaseHeld (setFld (setFld d (fQreq p) 0) (fQuiesced p) 0) p

/-- A write of PAGE_CTRL: the page's own fields, and QREQ (R46, R53, R201). -/
def ctrlWrite (d : Dev) (p : Nat) (v : W64) : Dev :=
  let was := flag d (fQreq p)
  let d := writeFields d p 0x018 v
  if was && !flag d (fQreq p) then quiesceEnd d p else d

/-! ### Headers -/

/-- PAGE_ERR_LOG: COUNT is cleared with VALID (R46). -/
def errLogWrite (d : Dev) (p : Nat) (v : W64) : Dev :=
  let d := writeFields d p 0x038 v
  if nbit v.toNat 63 then setFld d (fErrCount p) 0 else d

/-- A write to a header register. -/
def headWrite (d : Dev) (p off : Nat) (v : W64) : Dev :=
  if off = 0x018 then ctrlWrite d p v
  else if off = 0x028 || off = 0x030 then dropLevels (writeFields d p off v)
  else if off = 0x038 then errLogWrite d p v
  else writeFields d p off v

/-! ### The SCU page -/

/-- SCU_WDOG_CTL (R314, R336): an enable opens group 15 and starts the count; a disable leaves timer 15 with the watchdog until
the end of the group's next batch. -/
def wdogWrite (d : Dev) (v : W64) : Dev :=
  let was := flag d fWdogEn
  let d := writeFields d 0 0x198 v
  if !was && flag d fWdogEn then
    modScu (setHoldoff d 15 0) fun s => { s with wdogStart := d.now, wdogWarned := false }
  else if was && !flag d fWdogEn then modScu d fun s => { s with timerOwed := true }
  else d

/-- SCU_PWR_CTL (R337 to R341): the settings, and TARGET where it changes. -/
def pwrWrite (d : Dev) (v : W64) : Dev :=
  let old := fld d fPwrTarget
  let t := getBits v 2 0
  let d := setFld (writeFields d 0 0x1B0 v) fPwrTarget old
  if t ≤ 3 && t ≠ old then writeTarget d t else d

/-- SCU_FQ_CMD (R307): a reserved OP ends BADSEL. [log 13 DESIGN CHOICE unsafe] -/
def fqCmd (d : Dev) (op : Nat) (dap : Bool) : Dev :=
  if op = 1 then fqRead d false dap else if op = 2 then fqTake d else fqDone d 2

/-- SCU_MC_STAT: COUNT is cleared with VALID (R307). -/
def mcWrite (d : Dev) (v : W64) : Dev :=
  let d := writeFields d 0 0x338 v
  if nbit v.toNat 63 then setFld d fMcCount 0 else d

/-- A write to a register of the SCU page. [log 13 DESIGN CHOICE unsafe] -/
def scuWrite (d : Dev) (off : Nat) (v : W64) (dap : Bool) : Dev :=
  let op := getBits v 3 0
  if off = 0x080 || off = 0x088 then pendWrite d ((off - 0x080) / 8) v 0
  else if off = 0x090 || off = 0x098 then maskWrite d ((off - 0x090) / 8) v
  else if off = 0x188 then rstCmd d (getBits v 63 48) op dap
  else if off = 0x198 then wdogWrite d v
  else if off = 0x1A8 then (if op = 1 then retryOp d else d)
  else if off = 0x1B0 then pwrWrite d v
  else if off = 0x208 then (if getBits v 63 48 = 0x10C4 && op = 1 then lockOp d else d)
  else if off = 0x308 then fqConsWrite d v
  else if off = 0x318 then fqCmd d op dap
  else if off = 0x330 then fqSweep d v
  else if off = 0x338 then mcWrite d v
  else writeFields d 0 off v

/-! ### The other pages -/

/-- PLX_XC_CTL (R131). -/
def xcWrite (d : Dev) (v : W64) : Dev :=
  let d := setFld d fPlxChecked (getBits v 0 0)
  if nbit v.toNat 8 then xcFlush d else d

/-- FSA_PARTNER_CTL (R287, R295): a SHARE above SHARE_AREA / 32 KiB is a reserved encoding. [log 10 DEDUCED unsafe] -/
def partnerCtlWrite (d : Dev) (v : W64) : Dev :=
  let v := if getBits v 23 8 * 32768 ≤ d.scu.cfg.shareArea then v else setBits v 23 8 (fld d fFsaShare)
  writeFields d 9 0x0A0 v

/-- A write to a register of the FSA page. [log 13 DESIGN CHOICE unsafe] -/
def fsaWrite (d : Dev) (off : Nat) (v : W64) : Dev :=
  let op := getBits v 3 0
  if off = 0x088 then (if op = 1 then enumStartOp d else d)
  else if off = 0x0A0 then partnerCtlWrite d v
  else if off = 0x0B0 then partnerCmd d op
  else if off = 0x0D0 then exportCmd d op
  else writeFields d 9 off v

/-- DTC_HALT_CMD (R356, R358). [log 13 DESIGN CHOICE unsafe] -/
def haltCmd (d : Dev) (op mask : Nat) : Dev :=
  if op = 1 then haltOp d mask else if op = 2 then resumeOp d mask else if op = 3 then stepOp d mask else d

/-- DTC_TRACE_CTL (R348, R351, R362): an enable that is not admitted leaves its field and is reported; a pilot to be traced first
discards the translation of a Sealed body. -/
def traceCtl (d : Dev) (v : W64) : Dev :=
  let oldI := fld d fDtcInstrEn; let newI := getBits v 15 8
  let oldC := flag d fCmdEn; let newC := nbit v.toNat 0
  let addsI := newI - (newI &&& oldI) ≠ 0
  let addsC := newC && !oldC
  let badI := addsI && !admits d 1 2
  let badC := addsC && !admits d 1 0
  let d := setFld (setFld d fDtcGran (getBits v 3 3)) fDtcMode (getBits v 2 2)
  let d := if badC then d else setFld d fCmdEn (bit01 newC)
  let d := if badI then d
    else eachPilot (setFld d fDtcInstrEn newI) (newI - (newI &&& oldI)) fun d p => dropXlate d p true
  if badI || badC then countRefused (raiseEvent (setFld d fDtcTraceRefused 1) 10 4)
  else if addsI || addsC then setFld d fDtcTraceRefused 0 else d

/-- DTC_CNT_CTL (R367): a new PERIOD_US counts from the write. [log 10 DEDUCED unsafe] -/
def cntCtl (d : Dev) (v : W64) : Dev :=
  let old := fld d fDtcCntPeriod
  let d := writeFields d 10 0x108 v
  if fld d fDtcCntPeriod = old then d else modDtc d fun t => { t with lastPeriodic := d.now }

/-- A write to a register of the DTC page. [log 10 DEDUCED unsafe, 13 DESIGN CHOICE unsafe] -/
def dtcWrite (d : Dev) (off : Nat) (v : W64) : Dev :=
  let op := getBits v 3 0
  if off = 0x088 then haltCmd d op (getBits v 15 8)
  else if 0x098 ≤ off && off ≤ 0x0B0 then (if admits d 0 1 then writeFields d 10 off v else refuseHalt d)
  else if off = 0x0B8 then pdbgSel d v
  else if off = 0x0C0 then pdbgData d v
  else if off = 0x0D0 then traceCtl d v
  else if off = 0x108 then cntCtl d v
  else if off = 0x110 then (if op = 1 then sampleOp d else if op = 2 then clearOp d else d)
  else if off = 0x1A8 then (if op = 1 then queryOp d .ok else d)
  else writeFields d 10 off v

/-- A write to a register of a window page (R50): staging is discarded while BUSY, and DROP is set.
[log 13 DESIGN CHOICE unsafe] -/
def winRegWrite (d : Dev) (w off : Nat) (v : W64) (dap : Bool) : Dev :=
  if off = 0x088 then winCmd d w (getBits v 3 0) dap
  else if 0x100 ≤ off && flag d (fWinBusy w) then setFld d (fWinDrop w) 1
  else writeFields d (0x80 + w) off v

/-- A write of `v` to a register of an implemented page out of reset; `dap` says that the debug access port makes it. At and above
TOP and at reserved offsets it is discarded (R39). [log 10 DEDUCED unsafe, 13 DESIGN CHOICE unsafe] -/
def regWrite (d : Dev) (p off : Nat) (v : W64) (dap : Bool) : Dev :=
  if pageTop p ≤ off then d
  else if off < 0x080 then headWrite d p off v
  else match pageKind p with
    | .scu => scuWrite d off v dap
    | .pilot => if p = 0x10 && off = 0x090 then xcWrite d v else writeFields d p off v
    | .quay => if off = 0x098 then (if getBits v 3 0 = 1 then reviveOp d (pageInst p) else d) else writeFields d p off v
    | .lev => if off = 0x090 then poolCmd d (getBits v 3 0) else writeFields d p off v
    | .blu => if off = 0x098 then hcmd d (getBits v 3 0) dap else writeFields d p off v
    | .hms => if off = 0x160 then paceLimit d v else writeFields d p off v
    | .mmg => if off = 0x0A0 then mmgWrite d (getBits v 3 0) else writeFields d p off v
    | .fsa => fsaWrite d off v
    | .dtc => dtcWrite d off v
    | .window => winRegWrite d (pageInst p) off v dap
    | .hpu | .btc | .mfu | .lbu | .tsq => writeFields d p off v
    | .reserved => d

end Sys2Proof.Machine
end

