-- ==== Sys2Proof/Machine/HostPort.lean ====
section
/-!
DEFINITION. Accesses of the register space and the doorbell aperture at the host port (03 R39 to R44), quiesce requests (R53), and
the debug access port (20 R348, R350).
-/

namespace Sys2Proof.Machine

/-! ### Accesses that the HPU takes -/

/-- One naturally aligned 8-byte access with all byte enables and bits 56:20 zero (R40). [log 10 DEDUCED unsafe] -/
def accessOk (addr be : Nat) : Bool := addr % 8 = 0 && addr < 2 ^ 20 && be = 0xFF

/-- A register write (R39, R40, R43). -/
def takeWrite (d : Dev) (addr be : Nat) (v : W64) : Dev :=
  let p := addr / 0x1000
  if !accessOk addr be then hpuErr d 1 addr
  else if pageKind p = .reserved then hpuErr d 2 addr
  else if pageInReset d p then hpuErr d 3 addr
  else regWrite (wakeUnit d (pageUnit p)) p (addr % 0x1000) v false

/-- [log 71 DESIGN CHOICE safe] -/
def answer (d : Dev) (o : HostOut) : Dev := modHpu d fun h => { h with out := h.out ++ [o] }

/-- A register read (R39, R40, R43). [log 14 DEDUCED safe] -/
def takeRead (d : Dev) (addr be : Nat) (rid : BitVec 16) (tag : BitVec 10) : Dev :=
  if !accessOk addr be then answer (hpuErr d 1 addr) (.unsupported rid tag)
  else
    let (d, v) := pageRead d (addr / 0x1000) (addr % 0x1000)
    answer d (.readData rid tag v)

/-- A read of the doorbell aperture (R44). -/
def takeAperture (d : Dev) (addr : Nat) (rid : BitVec 16) (tag : BitVec 10) : Dev :=
  answer (hpuErr d 4 addr) (.readData rid tag 0)

/-- An access taken by the HPU, or one that stays raised while the HPU is in reset (R43). [log 6 DEDUCED safe] -/
def atHpu (a : HostAcc) (f : Dev → Dev) (d : Dev) : Dev :=
  if inReset d 1 then modHpu d fun h => { h with held := h.held ++ [a] } else f d

/-- REGISTER_WRITE (R41). -/
def execRegisterWrite (addr : BitVec 57) (be data : BitVec 64) (s : State) : Host.Outcome State Fault Refusal :=
  onDev (atHpu (.write addr be data) fun d => takeWrite d addr.toNat be.toNat data) s

/-- RC_READ (R41). -/
def execRcRead (addr : BitVec 57) (be : BitVec 64) (rid : BitVec 16) (tag : BitVec 10) (s : State) :
    Host.Outcome State Fault Refusal :=
  onDev (atHpu (.read addr be rid tag) fun d => takeRead d addr.toNat be.toNat rid tag) s

/-- APERTURE_READ (R44). -/
def execApertureRead (addr : BitVec 57) (rid : BitVec 16) (tag : BitVec 10) (s : State) : Host.Outcome State Fault Refusal :=
  onDev (atHpu (.aperture addr rid tag) fun d => takeAperture d addr.toNat rid tag) s

/-! ### Quiesce (R53) -/

/-- The host's read-modify-write of PAGE_CTRL with QREQ `b`: address and data. -/
def qreqAddr (p : BitVec 8) : BitVec 57 := BitVec.ofNat 57 (p.toNat * 0x1000 + 0x018)
def qreqData (d : Dev) (p : BitVec 8) (b : Nat) : W64 := setBits (reg d p.toNat 0x018) 0 0 b

/-- [log 12 DEDUCED unsafe] -/
def qreqWrite (p : BitVec 8) (b : Nat) (d : Dev) : Dev :=
  atHpu (.write (qreqAddr p) 0xFF (qreqData d p b)) (fun d => takeWrite d (qreqAddr p).toNat 0xFF (qreqData d p b)) d

/-- QUIESCE_REQUEST (R53): QREQ becomes 1; on the SCU and HPU pages the bit is reserved. -/
def execQuiesceRequest (page : BitVec 8) (s : State) : Host.Outcome State Fault Refusal := onDev (qreqWrite page 1) s

/-- QUIESCE_RELEASE (R53). -/
def execQuiesceRelease (page : BitVec 8) (s : State) : Host.Outcome State Fault Refusal := onDev (qreqWrite page 0) s

/-- Every operation that the unit had started has finished (R53, and the quiesce of each page). [log 12 DEDUCED unsafe] -/
def opsDone (d : Dev) (p : Nat) : Bool :=
  match pageKind p with
  | .btc => d.btc.win.all fun e => e.2.2.2.2.isNone
  | .mfu => d.mfu.fetches.all fun f => f.lines.all fun l => match l.2 with | .asked | .retried => false | _ => true
  | .pilot => p ≠ 0x10 || d.plx.queue.all fun x => x.pilot.isNone
  | .lev => d.lev.engines.all (·.isNone) && d.lev.allocs.isEmpty
  | .quay => (quayAt d (pageInst p)).offered.isNone
  | .scu | .hpu | .hms | .blu | .lbu | .mmg | .fsa | .dtc | .tsq | .window | .reserved => true

/-- UNIT_QUIESCED (R53). -/
def execUnitQuiesced (page : BitVec 8) (s : State) : Host.Outcome State Fault Refusal :=
  onDev (fun d =>
    let p := page.toNat
    if pageKind p = .reserved || pageInReset d p || !flag d (fQreq p) || !opsDone d p then d
    else setFld (wakeUnit d (pageUnit p)) (fQuiesced p) 1) s

/-! ### The debug access port (R348, R350) -/

/-- Registers whose read a Sealed block admits: page headers and five SCU status registers. -/
def sealedRead (p off : Nat) : Bool := off < 0x080 || (p = 0 && [0x180, 0x1A0, 0x1C0, 0x200, 0x338].contains off)

/-- Staging registers that hold a record of a Sealed context. -/
def sealedStaging (d : Dev) (p off : Nat) : Bool :=
  (pageKind p = .window && 0x100 ≤ off && winSealed d (pageInst p)) || (p = 0 && 0x400 ≤ off && off < 0x500 && fqSealed d)

/-- Is a read through the debug access port admitted? [log 14 DEDUCED safe] -/
def dapReadOk (d : Dev) (p off : Nat) : Bool :=
  if sealedRead p off then admits d 3 0 else admits d 3 1 && !sealedStaging d p off

/-- Is a write admitted? LOCK in every state (R345), and nothing else in Sealed; the DTC page, the host-command registers and
SCU_RST_CMD in Operator; all in Open. [log 14 DEDUCED safe] -/
def dapWriteOk (d : Dev) (p off : Nat) (v : W64) : Bool :=
  if p = 0 && off = 0x208 && getBits v 63 48 = 0x10C4 && getBits v 3 0 = 1 then true
  else if d.scu.sec = 0 then false
  else if p = 10 || (p = 5 && 0x088 ≤ off && off ≤ 0x0A0) || (p = 0 && off = 0x188) then admits d 3 1
  else admits d 3 2

def dapAnswer (d : Dev) (v : W64) (err : Bool) : Dev := modDtc d fun t => { t with dapOut := t.dapOut ++ [(v, err)] }

/-- A refused access is counted and captured in the DTC's error log, with its offset. -/
def dapRefuse (d : Dev) (addr : Nat) : Dev := dapAnswer (countRefused (logErr d 10 1 1 addr)) 0 true

/-- An access of the debug access port at the DTC. [log 14 DEDUCED safe] -/
def takeDap (d : Dev) (write : Bool) (addr : Nat) (v : W64) : Dev :=
  let p := addr / 0x1000; let off := addr % 0x1000
  if write then
    if !dapWriteOk d p off v then dapRefuse d addr
    else if addr % 8 ≠ 0 then dapAnswer (hpuErr d 1 addr) 0 true
    else if pageKind p = .reserved then dapAnswer (hpuErr d 2 addr) 0 true
    else if pageInReset d p then dapAnswer (hpuErr d 3 addr) 0 true
    else dapAnswer (regWrite (wakeUnit d (pageUnit p)) p off v true) 0 false
  else if !dapReadOk d p off then dapRefuse d addr
  else if addr % 8 ≠ 0 then dapAnswer (hpuErr d 1 addr) 0 true
  else
    let (d, x) := pageRead d p off
    dapAnswer d x false

/-- DAP_ACCESS (R348): while the DTC is in reset it waits at the crossing (R350). -/
def execDapAccess (write : Bool) (addr : BitVec 20) (data : BitVec 64) (s : State) : Host.Outcome State Fault Refusal :=
  onDev (fun d =>
    if inReset d 14 then modDtc d fun t => { t with dapHeld := t.dapHeld ++ [(write, addr, data)] }
    else takeDap (wakeUnit d 14) write addr.toNat data) s

end Sys2Proof.Machine
end

