-- ==== Sys2Proof/Machine/Power.lean ====
section
/-!
DEFINITION. Power states (19 R337 to R340; 20 R349).
-/

namespace Sys2Proof.Machine

/-- TARGET_RUN (R337, R340). -/
def execTargetRun (s : State) : Host.Outcome State Fault Refusal := onUnit 13 (fun d => writeTarget d 0) s

/-- TARGET_TRIM (R337). -/
def execTargetTrim (s : State) : Host.Outcome State Fault Refusal := onUnit 13 (fun d => writeTarget d 1) s

/-- TARGET_RETAIN (R338, R349). -/
def execTargetRetain (s : State) : Host.Outcome State Fault Refusal := onUnit 13 (fun d => writeTarget d 2) s

/-- TARGET_OFF (R340, R349). -/
def execTargetOff (s : State) : Host.Outcome State Fault Refusal := onUnit 13 (fun d => writeTarget d 3) s

/-- An accepted command lets the block enter Retain: complete, or with an unmet wait (R338 step 3). [log 62 DEDUCED unsafe] -/
def restsForRetain (c : Cmd) : Bool := c.isComplete || (c.phase = .waiting && !c.waitsMet)

/-- Does a crossing between the home agent and agents of a unit hold something (15 R263, R267)? -/
def cohOpen (d : Dev) (u : Nat) : Bool :=
  let c := d.coh
  let mine := fun (x : Nat) => u = 2 || agentUnit x = u
  c.queue.any (fun e => mine e.2.1) || c.msgs.any (fun m => mine m.dst) || c.answers.any (fun a => mine a.1) ||
    c.atmRsp.any (fun a => mine a.1) || c.wrCmp.any (fun a => mine a.1) || c.dones.any (fun a => mine a.1) ||
    c.busy.any fun b => u = 2 || mine b.2.agent || b.2.await.any mine

/-- Is every crossing that touches a unit at rest (R25): the queues between two units, and requests to the memory that it waits for?
[log 62 DEDUCED unsafe] -/
def atRest (d : Dev) (u : Nat) : Bool :=
  !cohOpen d u &&
  (u ≠ 2 || (d.hpu.toBtc.isEmpty && d.btc.fills.isEmpty)) &&
  (!(u = 2 || u = 3) || (d.btc.toMfu.isEmpty && d.mfu.idle.isEmpty)) &&
  (!(u = 3 || u = 4) || d.plx.sights.isEmpty) &&
  (!(u = 4 || u = 10) || d.plx.toLbu.isEmpty) &&
  (!(u = 5 || u = 6) || d.cmds.all fun c => c.woken && c.spin.isNone) &&
  (!(u = 8 || u = 9) || d.seqs.all fun s => s.buf.isEmpty) &&
  (!(u = 6 || u = 9) || d.quays.all fun q => q.cpl.isEmpty) &&
  (!(u = 9 || u = 11) || d.mmg.poison.isEmpty) &&
  (!(u = 6 || u = 12) || d.fsa.partners.all fun p => p.2.inbox.isEmpty) &&
  (!(u = 4 || u = 14) || d.dtc.pilots.all fun p => p.instrQ.isEmpty) &&
  (!(u = 9 || u = 14) || d.quays.all fun q => q.traceQ.isEmpty)

/-- RETAIN_TIMEOUT (R338): RETAIN_TMO_MS has run out; the entry is abandoned. -/
def execRetainTimeout (s : State) : Host.Outcome State Fault Refusal :=
  onUnit 13 (fun d =>
    if d.scu.retainReq && fld d fPwrState = 5 && d.scu.retainStart + fld d fRetainTmoMs * 1000000 ≤ d.now then
      let d := incSat (setFld (setFld d fPwrTarget 0) fPwrState 0) fPwrAbandoned
      laterTarget (raiseEvent (modScu d fun s => { s with retainReq := false }) 0 6)
    else d) s

/-- RETAIN_WAKE (R338): a request towards a gated island. -/
def execRetainWake (island : BitVec 4) (s : State) : Host.Outcome State Fault Refusal :=
  if !islandOk island then reservedOp
  else onUnit 13 (fun d => if island = 1 || island = 13 then d else retainWakeOp d) s

/-- Is a unit idle with every crossing that touches it at rest (R25, R337)? [log 62 DEDUCED unsafe] -/
def unitIdle (d : Dev) (u : Nat) : Bool :=
  atRest d u &&
    (if u = 2 then d.btc.win.isEmpty && d.btc.teardowns.isEmpty
     else if u = 3 then d.mfu.fetches.isEmpty
     else if u = 4 then d.plx.queue.isEmpty
     else if u = 5 then d.cmds.all fun c => !ready d c && c.phase ≠ .preempting
     else if u = 6 then d.cmds.all fun c => c.phase ≠ .closing
     else if u = 7 then d.lev.engines.all (·.isNone) && d.lev.store.isEmpty && d.lev.allocs.isEmpty
     else if u = 8 then d.seqs.all fun s => s.jobs.isEmpty
     else if u = 9 then d.quays.all fun q => q.queue.isEmpty && q.offered.isNone && q.out.isEmpty
     else if u = 10 then d.lbu.durable = d.lbu.nextLsn
     else if u = 11 then d.mmg.moors.all fun m => m.2.st ≠ .loading && m.2.st ≠ .queued
     else if u = 12 then d.fsa.inbox.isEmpty && d.fsa.partners.all fun p => p.2.queue.isEmpty
     else d.dtc.markers.isEmpty)

/-- Units that Retain gates: all but the HPU and the SCU (R337). -/
def retainUnits : List Nat := [2, 3, 4, 5, 6, 7, 8, 9, 10, 11, 12, 14]

/-- RETAIN_ENTRY (R338): no command is issued, no quay has a tile outstanding, every open command has an unmet wait, and the crossings
of the islands that will be gated are at rest (R25). -/
def execRetainEntry (s : State) : Host.Outcome State Fault Refusal :=
  onUnit 13 (fun d =>
    if d.scu.retainReq && fld d fPwrState = 5 && d.cmds.all restsForRetain &&
        d.quays.all (fun q => q.out.isEmpty && q.offered.isNone) && retainUnits.all (atRest d)
    then laterTarget (modScu (setFld d fPwrState 3) fun s => { s with retainReq := false })
    else d) s

/-- Units that may doze: 0x02 to 0x0E except the QPT and the SCU (R341). [log 62 DEDUCED unsafe] -/
def mayDoze (u : Nat) : Bool := 2 ≤ u && u ≤ 14 && u ≠ 9 && u ≠ 13

/-- DOZE_ENTRY (R337): an island with its DOZE_EN bit set that has been idle for 1 µs. -/
def execDozeEntry (island : BitVec 4) (s : State) : Host.Outcome State Fault Refusal :=
  if !islandOk island then reservedOp
  else onUnit 13 (fun d =>
    let u := island.toNat
    if mayDoze u && fbit d fDozeEn u && fld d fPwrState ≤ 1 && !inReset d u && !fbit d fDozing u && unitIdle d u
    then setBit d fDozing u else d) s

/-- DOZE_WAKE (R25, R339). -/
def execDozeWake (island : BitVec 4) (s : State) : Host.Outcome State Fault Refusal :=
  if !islandOk island then reservedOp
  else onUnit 13 (fun d => if fbit d fDozing island.toNat then clrBit d fDozing island.toNat else d) s

end Sys2Proof.Machine
end

