-- ==== Sys2Proof/Machine/Release.lean ====
section
/-!
DEFINITION. The order in which islands leave reset, and what waits for each at its crossings (19 R326, R327; 02 R24; 03 R43).
-/

namespace Sys2Proof.Machine

/-- Order of release of a unit's island (R326). [log 16 DEDUCED safe] -/
def releaseOrder (u : Nat) : Nat :=
  match u with
  | 13 => 1 | 1 => 2 | 2 => 3 | 10 => 4 | 3 => 5 | 4 => 6 | 6 => 7 | 7 => 8 | 11 => 9 | 5 => 10 | 12 => 11 | 14 => 12
  | 8 => 13 | 9 => 14 | _ => 0

/-- An access that stayed raised while the HPU was in reset is taken once (R43, R24); a stash write waits for the MFU too.
[log 6 DEDUCED safe] -/
def takeHeld (d : Dev) (a : HostAcc) : Dev :=
  match a with
  | .write addr be data => takeWrite d addr.toNat be.toNat data
  | .read addr be rid tag => takeRead d addr.toNat be.toNat rid tag
  | .aperture addr rid tag => takeAperture d addr.toNat rid tag
  | .doorbell addr be data => takeDoorbell d addr be data
  | .stash _ asid addr line =>
    if inReset d 3 then modHpu d fun h => { h with held := h.held ++ [a] } else stashLine d asid.toNat addr.toNat line

/-- Accesses held are taken in the order of their arrival. [log 6 DEDUCED safe] -/
def takeAllHeld (d : Dev) : Dev := d.hpu.held.foldl takeHeld (modHpu d fun h => { h with held := [] })

/-- A quay as its island leaves reset (R26, R36, R148, R323): ABSENT, FAILED with its event where its drain had not ended, STOPPED where
its clock is, ONLINE otherwise. -/
def quayUp (d : Dev) (q : Nat) : Dev :=
  if nbit d.scu.cfg.quayAbsent q then setFld d (fQptState q) 0
  else if !(quayAt d q).clock then clockStopped (setFld d (fQptState q) 1) q
  else if d.scu.quayFailed.contains q then raiseEvent (setFld d (fQptState q) 3) (0x40 + q) 0
  else setFld d (fQptState q) 1

/-- States of the quays as their islands leave reset (R36, R323, R326). -/
def quaysUp (d : Dev) : Dev := modScu ((List.range 56).foldl quayUp d) fun s => { s with quayFailed := [] }

/-- Session keys and packets that stayed raised while the FSA was in reset are taken (R24). [log 6 DEDUCED safe] -/
def takeFsa (d : Dev) : FsaAcc → Dev
  | .key sel key => linkKeyOp d sel key
  | .packet link arrive p => receiveOp d link arrive p

/-- [log 6 DEDUCED safe] -/
def fsaUp (d : Dev) : Dev := d.fsa.held.foldl takeFsa (modFsa d fun f => { f with held := [] })

/-- Samples presented while the HMS was in reset are taken, the interval and the stalls counting from the release (R24, R217, R218).
[log 6 DEDUCED safe] -/
def hmsUp (d : Dev) : Dev :=
  let held := d.hms.held
  held.foldl currentSample (modHms d fun h => { h with lastSample := tideW d, stallFrom := d.now, held := [] })

/-- Accesses of the debug access port that waited for the DTC are taken (R350). [log 6 DEDUCED safe] -/
def dtcUp (d : Dev) : Dev :=
  let held := d.dtc.dapHeld
  held.foldl (fun d x => takeDap d x.1 x.2.1.toNat x.2.2) (modDtc d fun t => { t with dapHeld := [] })

/-- What follows the release of a unit's island. -/
def afterRelease (d : Dev) (u : Nat) : Dev :=
  if u = 1 then takeAllHeld d
  else if u = 3 then takeAllHeld d
  else if u = 5 then hmsUp d
  else if u = 8 then startSeqs d
  else if u = 9 then quaysUp d
  else if u = 10 then checkLoad d
  else if u = 12 then fsaUp d
  else if u = 14 then dtcUp d
  else d

/-- May an island leave reset now: its turn, 160 ns after the one before, its condition met (R326)? [log 16 DEDUCED safe] -/
def mayRelease (d : Dev) (u : Nat) : Bool :=
  d.scu.rst = .release && releaseOrder u = d.scu.lastOrder + 1 && d.scu.rstStart + 160 ≤ d.now &&
    (if u = 1 then d.scu.cfgVerified || fld d fLoadState = 4 else d.scu.cfgVerified && fld d fLoadState = 1)

/-- An island leaves reset (R326); in UNLOADED the HPU is the last, otherwise the quays are. [log 16 DEDUCED safe] -/
def releaseIsland (d : Dev) (u : Nat) : Dev :=
  if !mayRelease d u then d
  else
    let n := releaseOrder u
    let last := n = 14 || (u = 1 && fld d fLoadState = 4)
    let d := clrBit (clrBit d fInReset u) fClkFail u
    let d := modScu d fun s => { s with lastOrder := n, rstStart := d.now, rst := if last then .none else .release }
    afterRelease d u

/-- ISLAND_RELEASE (R326). -/
def execIslandRelease (island : BitVec 4) (s : State) : Host.Outcome State Fault Refusal :=
  if !Sys2Proof.islandOk island then reservedOp else onUnit 13 (fun d => releaseIsland d island.toNat) s

end Sys2Proof.Machine
end

