-- ==== Sys2Proof/Machine/Teardown.lean ====
section
/-!
DEFINITION. The end of contexts, bollards and berths (04 R56, R59, R66, R67, R71), and machine checks (17 R303 to R305).
-/

namespace Sys2Proof.Machine

/-! ### Teardown (R66, R67) -/

/-- A command that has not completed at t_stop receives ABORTED with nothing of its group but the COMPLETE record (R67). The command
that faulted waits for its fault record. [log 55 DEDUCED unsafe] -/
def abortCmd (d : Dev) (c : Cmd) : Dev :=
  if c.completeLsn.isSome || c.status = some stFaulted then d
  else completeCmd (levDrop (modCmd d c.key fun c => { c with pre := [] }) c.key) c.key stAborted 1

/-- TEARDOWN_STOP (R66, R67): no tile of the context is out any more; its accepted commands end. It comes again for a manifest
accepted after t0 (R65). [log 55 DEDUCED unsafe] -/
def teardownStop (d : Dev) (ci : Nat) : Dev :=
  match tfind d.btc.teardowns ci with
  | some t =>
    if scopeOut d (.ctx (BitVec.ofNat 32 t.handle)) ≠ 0 then d
    else
      let d := modBtc d fun b => { b with teardowns := tput b.teardowns ci { t with stopped := true } }
      let d := modBlu d fun b => { b with watches := b.watches.filter fun w => w.owner ≠ t.handle || w.sent }
      (ctxCmds d t.handle).foldl (fun d c => withCmd d c.key fun c => abortCmd d c) d
  | none => d

/-- TEARDOWN_STOP (R66). -/
def execTeardownStop (ctx : BitVec 20) (s : State) : Host.Outcome State Fault Refusal :=
  onUnit 2 (fun d => teardownStop d ctx.toNat) s

/-- Has the last record of a context been written: of its commands, of every manifest logged before t0, of its faults (R67)?
[log 55 DEDUCED unsafe] -/
def recordsDone (d : Dev) (h : Nat) : Bool :=
  (ctxCmds d h).all (fun c => c.completeLsn.isSome && c.ringDone) && !d.mfu.mans.any (fun m => m.ctx = h) &&
    !d.scu.open_.any fun r => r.context = h

/-- The hold of every bollard that the context abandoned starts with BTC event 0 (R71). [log 55 DEDUCED unsafe] -/
def startHolds (d : Dev) (h : Nat) : Dev :=
  (d.blu.slots.filter fun s => s.2.state = .abandoned && bolOwner s.2 = h).foldl (fun d s =>
    modBtc d fun b => { b with holds := tput b.holds s.1 (d.now + us (fld d fBtcHoldUs)) }) d

/-- TEARDOWN_DONE (R67): the context, its berths, pools, references and, for a Sealed one, translations go in one step.
[log 55 DEDUCED unsafe] -/
def teardownDone (d : Dev) (ci : Nat) : Dev :=
  match tfind d.btc.teardowns ci with
  | some t =>
    let h := t.handle
    if !t.stopped || !recordsDone d h then d
    else
      let d := dropRefs (freePools d h) h
      let d := { d with cmds := d.cmds.filter fun c => c.ctx ≠ h }
      let d := modPlx d fun p => { p with entries := p.entries.filter fun e => e.domain ≠ .ctx h
                                          queue := p.queue.filter fun x => x.domain ≠ .ctx h }
      let d := startHolds d h
      let d := (berthsOf d ci (ctxGen h)).foldl freeBerth d
      let d := freeCtx d ci
      let d := modBtc d fun b => { b with teardowns := tdel b.teardowns ci }
      raiseEvent (setFld (incWrap d fBtcTdSeq) fBtcTdHandle h) 2 0
  | none => d

/-- TEARDOWN_DONE (R67). -/
def execTeardownDone (ctx : BitVec 20) (s : State) : Host.Outcome State Fault Refusal :=
  onUnit 2 (fun d => teardownDone d ctx.toNat) s

/-- ABANDON_HOLD_END (R71). -/
def execAbandonHoldEnd (bol : BitVec 24) (s : State) : Host.Outcome State Fault Refusal :=
  onUnit 2 (fun d =>
    let i := bol.toNat
    match tfind d.btc.holds i with
    | some t =>
      if d.now < t || (bolAt d i).state ≠ .abandoned then d
      else freeBol (modBtc d fun b => { b with holds := tdel b.holds i }) i
    | none => d) s

/-- BERTH_DRAINED (R59, R381): DONE_IDX has reached ACC_IDX and no fetch is open. -/
def berthDrained (d : Dev) (i : Nat) : Dev :=
  let r := berthAt d i
  if r.state = .draining && r.done = r.acc && !r.fopen && !d.mfu.mans.any fun m => m.berthIdx = i then
    freeBerth { d with cmds := d.cmds.filter fun c => c.berth ≠ i || hostOwed d c } i
  else d

def execBerthDrained (berth : BitVec 22) (s : State) : Host.Outcome State Fault Refusal :=
  onUnit 2 (fun d => berthDrained d berth.toNat) s

/-! ### Machine checks (R303 to R305) -/

/-- A CLASS 0x03 capture that raises a machine check. [log 54 DEDUCED unsafe] -/
def classThree (d : Dev) (p code addr : Nat) (fatal : Bool) : Dev :=
  machineCheckAt (logErr d p 3 code addr) p 3 code addr fatal

/-- An entry of the trace SRAM fails its check: a LOSS record stands in its place (R363, R304). [log 54 DEDUCED unsafe] -/
def traceLossAt (d : Dev) (addr : Nat) : Dev :=
  let i := addr % 2 ^ 32
  match tfind d.dtc.sram i with
  | some _ => modDtc d fun t => { t with sram := tput t.sram i (lossRec d false 0 1) }
  | none => d

/-- A CLASS 0x03 capture in a page, with the action of R304's table; a capture that the table does not name raises no machine
check. [log 54 DEDUCED unsafe] -/
def machineCheckOp (d : Dev) (p code addr : Nat) : Dev :=
  let k := pageKind p
  if k = .tsq && 1 ≤ code && code ≤ 3 then csErrorOp d (p - 0x20) code addr
  else if code = 0x20 then classThree d p code addr false
  else if code = 0x21 then
    if k = .pilot then lockupPilot (classThree d p code addr false) (p - 0x10)
    else if k = .dtc then traceLossAt (classThree d p code addr false) addr
    else classThree d p code addr true
  else if code = 0x10 || (code = 0x22 && k = .pilot) || (code = 0x23 && (k = .lbu || k = .btc)) then classThree d p code addr true
  else logErr d p 3 code addr

/-- MACHINE_CHECK (R303, R304): nothing on a reserved page, or while the unit is in reset. A single-bit error that was `corrected` is logged
with CLASS 0x02 and CODE 0x20 and does nothing more (R87, R303). -/
def execMachineCheck (page : BitVec 8) (code : ErrCode) (addr : BitVec 64) (s : State) : Host.Outcome State Fault Refusal :=
  onDev (fun d =>
    let p := page.toNat
    if pageKind p = .reserved || inReset d (pageUnit p) then d
    else if code.corrected then logErr (wakeUnit d (pageUnit p)) p 2 0x20 addr.toNat
    else machineCheckOp (wakeUnit d (pageUnit p)) p code.code.toNat addr.toNat) s

end Sys2Proof.Machine
end

