-- ==== Sys2Proof/Machine/Tide.lean ====
section
/-!
DEFINITION. The tide counter's alignment with the tree parent (16 R291, R292). An exchange is measured one exchange later: the parent's
answer carries the arrival t2 of this one and the departure t3 of its answer to the one before.
-/

namespace Sys2Proof.Machine

/-- A TIDE_SYNC leaves on a link, to be stamped on departure (R291). -/
def sendTide (d : Dev) (k : Nat) (t2 t3 : Nat) : Dev :=
  if linkUsable d k && fld d fFsaState ≠ 2 then
    emit d k { dest := BitVec.ofNat 32 (linkAt d k).nbr, src := BitVec.ofNat 32 (fld d fFsaId), credit := 0, pseq := 0, ack := 0,
               lowRef := BitVec.ofNat 40 (lowRef d), session := BitVec.ofNat 16 d.fsa.session,
               body := .tideSync 0 (BitVec.ofNat 64 t2) (BitVec.ofNat 64 t3) }
  else d

/-- TIDE_SYNC_SEND (R291): every 100 µs, to the tree parent. [log 53 DEDUCED unsafe] -/
def tideSendOp (d : Dev) : Dev :=
  match d.fsa.parent with
  | some k =>
    if d.fsa.tideLast ≠ 0 && d.now < d.fsa.tideLast + us 100 then d
    else sendTide (modFsa d fun s => { s with tideLast := d.now, tideCur := none }) k 0 0
  | none => d

def execTideSyncSend (s : State) : Host.Outcome State Fault Refusal := onUnit 12 tideSendOp s

/-- OFFSET_PS of an offset in ps; a value that does not fit is left open. [log 41 DESIGN CHOICE safe] -/
def setOffset (d : Dev) (ps : Int) : Dev :=
  if -32768 ≤ ps && ps ≤ 32767 then setFld d fFsaOffset (ps % 65536).toNat
  else { setFld d fFsaOffset (Config.offsetOver d.freeCtr).toNat with freeCtr := d.freeCtr + 1 }

/-- The average of 256 exchanges corrects the counter (R291): the first time by a step forward or a hold, later by slewing.
[log 53 DEDUCED unsafe] -/
def align (d : Dev) (sum : Int) : Dev :=
  let c := sum / 512
  let d := setFld (setOffset d (sum * 1000 / 512)) fTideAligned 1
  let d := if d.fsa.tideOnce then modFsa d fun s => { s with slew := c, slewAt := d.now }
    else if 0 ≤ c then { d with tide := (d.tide + c.toNat) % 2 ^ 64 }
    else modFsa d fun s => { s with holdUntil := d.now + (-c).toNat }
  modFsa d fun s => { s with tideOnce := true, tideSamples := [], tideCur := none, tidePrev := none, tideDep := [] }

/-- An answer of the parent: it ends one exchange and measures the one before. [log 53 DEDUCED unsafe] -/
def tideAnswer (d : Dev) (t2 t3 t4 : Nat) : Dev :=
  let more : List Int := match d.fsa.tidePrev with
    | some (p1, p2, p4) => if t3 = 0 then [] else [((p2 : Int) - p1) - ((p4 : Int) - t3)]
    | none => []
  let d := modFsa d fun s => { s with tideHeard := some d.now, tideSamples := s.tideSamples ++ more, tideCur := none
                                      tidePrev := s.tideCur.map fun t1 => (t1, t2, t4) }
  if 256 ≤ d.fsa.tideSamples.length then align d (d.fsa.tideSamples.foldl (· + ·) 0) else d

/-- TIDE_SYNC (R291): from the parent an answer; from another node of the tree a request, answered at once.
[log 53 DEDUCED unsafe] -/
def tideSyncOp (d : Dev) (k : Nat) : Dev :=
  match nextIn d k with
  | some (arrive, p) => match p.body with
    | .tideSync _ t2 t3 =>
      let d := takeLink d k
      if fld d fFsaState = 2 then d
      else if d.fsa.parent = some k then tideAnswer d t2.toNat t3.toNat arrive
      else sendTide d k arrive (tget 0 d.fsa.tideDep k)
    | _ => d
  | none => d

def execTideSync (link : BitVec 6) (s : State) : Host.Outcome State Fault Refusal :=
  if !linkOk link then reservedOp else onUnit 12 (fun d => tideSyncOp d link.toNat) s

/-- DEPARTURE_STAMP (R291): the tick at which a stamped flit left. -/
def departureOp (d : Dev) (k time : Nat) : Dev :=
  let t := extendStamp d time
  if d.fsa.parent = some k then modFsa d fun s => { s with tideCur := some t }
  else modFsa d fun s => { s with tideDep := tset 0 s.tideDep k t }

def execDepartureStamp (link : BitVec 6) (time : BitVec 16) (s : State) : Host.Outcome State Fault Refusal :=
  if !linkOk link then reservedOp else onUnit 12 (fun d => departureOp d link.toNat time.toNat) s

/-- TIDE_LOST (R292): 10 ms without a TIDE_SYNC from the parent; counted once until the next one. [log 53 DEDUCED unsafe] -/
def tideLostOp (d : Dev) : Dev :=
  match d.fsa.parent, d.fsa.tideHeard with
  | some _, some t =>
    if t + us 10000 ≤ d.now then
      let d := modFsa d fun s => { s with tideHeard := none, tideSamples := [], tidePrev := none }
      raiseEvent (incSat (setFld d fTideAligned 0) fFsaTideLost) 9 5
    else d
  | _, _ => d

def execTideLost (s : State) : Host.Outcome State Fault Refusal := onUnit 12 tideLostOp s

end Sys2Proof.Machine
end

