-- ==== Sys2Proof/Machine/Dispatch.lean ====
section
/-!
DEFINITION. One arm per command: the meaning it calls.
-/

namespace Sys2Proof.Machine

def exec (i : Instr) (s : State) : Host.Outcome State Fault Refusal :=
  match i with
  | .registerWrite addr be data => Sys2Proof.Machine.execRegisterWrite addr be data s
  | .apertureRead addr rid tag => Sys2Proof.Machine.execApertureRead addr rid tag s
  | .doorbellWrite addr be data => Sys2Proof.Machine.execDoorbellWrite addr be data s
  | .doorbellCheck => Sys2Proof.Machine.execDoorbellCheck s
  | .stashWrite target asid addr line => Sys2Proof.Machine.execStashWrite target asid addr line s
  | .quiesceRequest page => Sys2Proof.Machine.execQuiesceRequest page s
  | .quiesceRelease page => Sys2Proof.Machine.execQuiesceRelease page s
  | .unitQuiesced page => Sys2Proof.Machine.execUnitQuiesced page s
  | .winRead w => Sys2Proof.Machine.execWinRead w s
  | .winWrite w => Sys2Proof.Machine.execWinWrite w s
  | .winClear w => Sys2Proof.Machine.execWinClear w s
  | .windowCommandDone w => Sys2Proof.Machine.execWindowCommandDone w s
  | .teardownStop ctx => Sys2Proof.Machine.execTeardownStop ctx s
  | .teardownDone ctx => Sys2Proof.Machine.execTeardownDone ctx s
  | .abandonHoldEnd bol => Sys2Proof.Machine.execAbandonHoldEnd bol s
  | .berthDrained berth => Sys2Proof.Machine.execBerthDrained berth s
  | .recordFill rec a b => Sys2Proof.Machine.execRecordFill rec a b s
  | .berthWake => Sys2Proof.Machine.execBerthWake s
  | .fetchWindow berth => Sys2Proof.Machine.execFetchWindow berth s
  | .lineResponse berth idx r line => Sys2Proof.Machine.execLineResponse berth idx r line s
  | .idleCheck berth => Sys2Proof.Machine.execIdleCheck berth s
  | .fetchReply => Sys2Proof.Machine.execFetchReply s
  | .xcLookup => Sys2Proof.Machine.execXcLookup s
  | .xcHarbourAnswer berth => Sys2Proof.Machine.execXcHarbourAnswer berth s
  | .translationDone pilot => Sys2Proof.Machine.execTranslationDone pilot s
  | .translationRestart pilot => Sys2Proof.Machine.execTranslationRestart pilot s
  | .xcFlush => Sys2Proof.Machine.execXcFlush s
  | .flushDone => Sys2Proof.Machine.execFlushDone s
  | .csParityError seq kind addr => Sys2Proof.Machine.execCsParityError seq kind addr s
  | .csReloadDone seq => Sys2Proof.Machine.execCsReloadDone seq s
  | .acceptRequest => Sys2Proof.Machine.execAcceptRequest s
  | .manifestAccepted berth => Sys2Proof.Machine.execManifestAccepted berth s
  | .logUnitDurable lsn => Sys2Proof.Machine.execLogUnitDurable lsn s
  | .completeDurable c => Sys2Proof.Machine.execCompleteDurable c s
  | .completionRecordLost ctx addr r => Sys2Proof.Machine.execCompletionRecordLost ctx addr r s
  | .checkpoint => Sys2Proof.Machine.execCheckpoint s
  | .mirrorLost mirror => Sys2Proof.Machine.execMirrorLost mirror s
  | .resilverDone => Sys2Proof.Machine.execResilverDone s
  | .harbourPoisonRead mirror page other => Sys2Proof.Machine.execHarbourPoisonRead mirror page other s
  | .replay => Sys2Proof.Machine.execReplay s
  | .commandInterrupted c => Sys2Proof.Machine.execCommandInterrupted c s
  | .hmsPick => Sys2Proof.Machine.execHmsPick s
  | .preemptDecision c => Sys2Proof.Machine.execPreemptDecision c s
  | .preemptComplete c => Sys2Proof.Machine.execPreemptComplete c s
  | .reclaim quay => Sys2Proof.Machine.execReclaim quay s
  | .stallReport w => Sys2Proof.Machine.execStallReport w s
  | .currentSample cur => Sys2Proof.Machine.execCurrentSample cur s
  | .telemetryLost => Sys2Proof.Machine.execTelemetryLost s
  | .thermalChange level => Sys2Proof.Machine.execThermalChange level s
  | .paceLimitWrite v => Sys2Proof.Machine.execPaceLimitWrite v s
  | .spinWindowEnd c => Sys2Proof.Machine.execSpinWindowEnd c s
  | .waiterWake c => Sys2Proof.Machine.execWaiterWake c s
  | .launchTiles c => Sys2Proof.Machine.execLaunchTiles c s
  | .copy c => Sys2Proof.Machine.execCopy c s
  | .fill c => Sys2Proof.Machine.execFill c s
  | .allReduce c g => Sys2Proof.Machine.execAllReduce c g s
  | .allGather c g => Sys2Proof.Machine.execAllGather c g s
  | .reduceScatter c g => Sys2Proof.Machine.execReduceScatter c g s
  | .broadcast c g => Sys2Proof.Machine.execBroadcast c g s
  | .gatherRows c => Sys2Proof.Machine.execGatherRows c s
  | .eval c => Sys2Proof.Machine.execEval c s
  | .evalProgramRead c r words => Sys2Proof.Machine.execEvalProgramRead c r words s
  | .ldi e => Sys2Proof.Machine.execLdi e s
  | .addi e => Sys2Proof.Machine.execAddi e s
  | .alu e => Sys2Proof.Machine.execAlu e s
  | .ld32 e => Sys2Proof.Machine.execLd32 e s
  | .ld64 e => Sys2Proof.Machine.execLd64 e s
  | .evalLoadData e r words => Sys2Proof.Machine.execEvalLoadData e r words s
  | .setp e => Sys2Proof.Machine.execSetp e s
  | .aload e => Sys2Proof.Machine.execAload e s
  | .astore e => Sys2Proof.Machine.execAstore e s
  | .aget e => Sys2Proof.Machine.execAget e s
  | .aset e => Sys2Proof.Machine.execAset e s
  | .amap e => Sys2Proof.Machine.execAmap e s
  | .aidx e => Sys2Proof.Machine.execAidx e s
  | .ascan e => Sys2Proof.Machine.execAscan e s
  | .areduce e => Sys2Proof.Machine.execAreduce e s
  | .acompact e => Sys2Proof.Machine.execAcompact e s
  | .aexpand e => Sys2Proof.Machine.execAexpand e s
  | .evalComplete e => Sys2Proof.Machine.execEvalComplete e s
  | .allocBlocks c reads => Sys2Proof.Machine.execAllocBlocks c reads s
  | .allocCommit c slots w => Sys2Proof.Machine.execAllocCommit c slots w s
  | .freeBlocks c read => Sys2Proof.Machine.execFreeBlocks c read s
  | .poolCreate => Sys2Proof.Machine.execPoolCreate s
  | .poolDestroy => Sys2Proof.Machine.execPoolDestroy s
  | .poolRead => Sys2Proof.Machine.execPoolRead s
  | .barrier c => Sys2Proof.Machine.execBarrier c s
  | .nop c => Sys2Proof.Machine.execNop c s
  | .endCmd c => Sys2Proof.Machine.execEndCmd c s
  | .signalHost c => Sys2Proof.Machine.execSignalHost c s
  | .hostWriteFail c r => Sys2Proof.Machine.execHostWriteFail c r s
  | .moor c => Sys2Proof.Machine.execMoor c s
  | .unmoor c => Sys2Proof.Machine.execUnmoor c s
  | .mooringLoadStart m => Sys2Proof.Machine.execMooringLoadStart m s
  | .mooringLoadLine m line => Sys2Proof.Machine.execMooringLoadLine m line s
  | .mooringLoaded m => Sys2Proof.Machine.execMooringLoaded m s
  | .loadRestart m r => Sys2Proof.Machine.execLoadRestart m r s
  | .mooringPoison => Sys2Proof.Machine.execMooringPoison s
  | .granuleRepaired m => Sys2Proof.Machine.execGranuleRepaired m s
  | .mmgRead => Sys2Proof.Machine.execMmgRead s
  | .tileForm seq => Sys2Proof.Machine.execTileForm seq s
  | .indexLineResponse seq addr r line => Sys2Proof.Machine.execIndexLineResponse seq addr r line s
  | .descriptorCrossing seq => Sys2Proof.Machine.execDescriptorCrossing seq s
  | .descriptorLaunch quay => Sys2Proof.Machine.execDescriptorLaunch quay s
  | .completionPacket quay p => Sys2Proof.Machine.execCompletionPacket quay p s
  | .commandTilesDone c => Sys2Proof.Machine.execCommandTilesDone c s
  | .commandFault c => Sys2Proof.Machine.execCommandFault c s
  | .drainRequest quay scope => Sys2Proof.Machine.execDrainRequest quay scope s
  | .drainDone quay => Sys2Proof.Machine.execDrainDone quay s
  | .drainTimeout quay => Sys2Proof.Machine.execDrainTimeout quay s
  | .quayClockStopped quay => Sys2Proof.Machine.execQuayClockStopped quay s
  | .quayClockReturn quay => Sys2Proof.Machine.execQuayClockReturn quay s
  | .revive quay => Sys2Proof.Machine.execRevive quay s
  | .fenceGe c => Sys2Proof.Machine.execFenceGe c s
  | .counterTake c => Sys2Proof.Machine.execCounterTake c s
  | .barrierPass c => Sys2Proof.Machine.execBarrierPass c s
  | .flagIsSet c => Sys2Proof.Machine.execFlagIsSet c s
  | .flagIsClear c => Sys2Proof.Machine.execFlagIsClear c s
  | .fenceSet c entry => Sys2Proof.Machine.execFenceSet c entry s
  | .counterPut c entry => Sys2Proof.Machine.execCounterPut c entry s
  | .barrierArrive c entry => Sys2Proof.Machine.execBarrierArrive c entry s
  | .flagSet c entry => Sys2Proof.Machine.execFlagSet c entry s
  | .flagClear c entry => Sys2Proof.Machine.execFlagClear c entry s
  | .hcmdFenceSet => Sys2Proof.Machine.execHcmdFenceSet s
  | .hcmdCounterPut => Sys2Proof.Machine.execHcmdCounterPut s
  | .hcmdBarrierArrive => Sys2Proof.Machine.execHcmdBarrierArrive s
  | .hcmdFlagSet => Sys2Proof.Machine.execHcmdFlagSet s
  | .hcmdFlagClear => Sys2Proof.Machine.execHcmdFlagClear s
  | .force => Sys2Proof.Machine.execForce s
  | .forceBarrier => Sys2Proof.Machine.execForceBarrier s
  | .searchStart berth => Sys2Proof.Machine.execSearchStart berth s
  | .waitQuery src => Sys2Proof.Machine.execWaitQuery src s
  | .declQuery src => Sys2Proof.Machine.execDeclQuery src s
  | .reply src => Sys2Proof.Machine.execReply src s
  | .verdict key => Sys2Proof.Machine.execVerdict key s
  | .enumStart => Sys2Proof.Machine.execEnumStart s
  | .enumToken link => Sys2Proof.Machine.execEnumToken link s
  | .enumReply link => Sys2Proof.Machine.execEnumReply link s
  | .census link => Sys2Proof.Machine.execCensus link s
  | .route link => Sys2Proof.Machine.execRoute link s
  | .isolate link => Sys2Proof.Machine.execIsolate link s
  | .linkDown link => Sys2Proof.Machine.execLinkDown link s
  | .linkUp link => Sys2Proof.Machine.execLinkUp link s
  | .linkSessionKey sel key => Sys2Proof.Machine.execLinkSessionKey sel key s
  | .fabricPacketReceive link arrive p => Sys2Proof.Machine.execFabricPacketReceive link arrive p s
  | .packetResend node => Sys2Proof.Machine.execPacketResend node s
  | .signal src => Sys2Proof.Machine.execSignal src s
  | .sigNotice src => Sys2Proof.Machine.execSigNotice src s
  | .waitReg src => Sys2Proof.Machine.execWaitReg src s
  | .waitMet src => Sys2Proof.Machine.execWaitMet src s
  | .waitEnd src => Sys2Proof.Machine.execWaitEnd src s
  | .capNote src => Sys2Proof.Machine.execCapNote src s
  | .ackOnly src => Sys2Proof.Machine.execAckOnly src s
  | .tideSyncSend => Sys2Proof.Machine.execTideSyncSend s
  | .tideSync link => Sys2Proof.Machine.execTideSync link s
  | .departureStamp link time => Sys2Proof.Machine.execDepartureStamp link time s
  | .tideLost => Sys2Proof.Machine.execTideLost s
  | .partnerRead => Sys2Proof.Machine.execPartnerRead s
  | .release => Sys2Proof.Machine.execRelease s
  | .quarantine => Sys2Proof.Machine.execQuarantine s
  | .add => Sys2Proof.Machine.execAdd s
  | .remove => Sys2Proof.Machine.execRemove s
  | .removeAll => Sys2Proof.Machine.execRemoveAll s
  | .faultRecordWrite seqNo => Sys2Proof.Machine.execFaultRecordWrite seqNo s
  | .fqConsWrite v => Sys2Proof.Machine.execFqConsWrite v s
  | .pendingMove => Sys2Proof.Machine.execPendingMove s
  | .fqRead a b => Sys2Proof.Machine.execFqRead a b s
  | .take => Sys2Proof.Machine.execTake s
  | .fqSweep v => Sys2Proof.Machine.execFqSweep v s
  | .machineCheck page code addr => Sys2Proof.Machine.execMachineCheck page code addr s
  | .protocolError m => Sys2Proof.Machine.execProtocolError m s
  | .rds x l p => Sys2Proof.Machine.execRds x l p s
  | .rdx x l p => Sys2Proof.Machine.execRdx x l p s
  | .upg x l p => Sys2Proof.Machine.execUpg x l p s
  | .wb x l p => Sys2Proof.Machine.execWb x l p s
  | .evc x l p => Sys2Proof.Machine.execEvc x l p s
  | .wrpart x l be data p => Sys2Proof.Machine.execWrpart x l be data p s
  | .atm x l op p => Sys2Proof.Machine.execAtm x l op p s
  | .snoopResponse x l => Sys2Proof.Machine.execSnoopResponse x l s
  | .pushAnswer x l => Sys2Proof.Machine.execPushAnswer x l s
  | .done x l => Sys2Proof.Machine.execDone x l s
  | .snps x l => Sys2Proof.Machine.execSnps x l s
  | .snpx x l => Sys2Proof.Machine.execSnpx x l s
  | .inv x l => Sys2Proof.Machine.execInv x l s
  | .snpcur x l => Sys2Proof.Machine.execSnpcur x l s
  | .push x l => Sys2Proof.Machine.execPush x l s
  | .dataGrant x l => Sys2Proof.Machine.execDataGrant x l s
  | .cmp x l => Sys2Proof.Machine.execCmp x l s
  | .wrcmp x l => Sys2Proof.Machine.execWrcmp x l s
  | .wback x l => Sys2Proof.Machine.execWback x l s
  | .atmrsp x l => Sys2Proof.Machine.execAtmrsp x l s
  | .irqSourceRise src => Sys2Proof.Machine.execIrqSourceRise src s
  | .msixDelivery => Sys2Proof.Machine.execMsixDelivery s
  | .msixSend => Sys2Proof.Machine.execMsixSend s
  | .batchEnd g => Sys2Proof.Machine.execBatchEnd g s
  | .holdoffExpiry g => Sys2Proof.Machine.execHoldoffExpiry g s
  | .wireJoin src => Sys2Proof.Machine.execWireJoin src s
  | .irqPendWrite r v hw => Sys2Proof.Machine.execIrqPendWrite r v hw s
  | .irqMaskWrite r v => Sys2Proof.Machine.execIrqMaskWrite r v s
  | .powerOnReset => Sys2Proof.Machine.execPowerOnReset s
  | .brownOutReset => Sys2Proof.Machine.execBrownOutReset s
  | .pinReset => Sys2Proof.Machine.execPinReset s
  | .block key => Sys2Proof.Machine.execBlock key s
  | .blockReload key => Sys2Proof.Machine.execBlockReload key s
  | .debugReset => Sys2Proof.Machine.execDebugReset s
  | .watchdogExpiry => Sys2Proof.Machine.execWatchdogExpiry s
  | .wdogWarn => Sys2Proof.Machine.execWdogWarn s
  | .watchdogRestart pilot => Sys2Proof.Machine.execWatchdogRestart pilot s
  | .clockFailure island => Sys2Proof.Machine.execClockFailure island s
  | .pilotLockup pilot => Sys2Proof.Machine.execPilotLockup pilot s
  | .pilotReloadDone pilot => Sys2Proof.Machine.execPilotReloadDone pilot s
  | .idleRequest => Sys2Proof.Machine.execIdleRequest s
  | .idleComplete => Sys2Proof.Machine.execIdleComplete s
  | .parkEscalation island => Sys2Proof.Machine.execParkEscalation island s
  | .memoryDrainDone => Sys2Proof.Machine.execMemoryDrainDone s
  | .islandRelease island => Sys2Proof.Machine.execIslandRelease island s
  | .configChunk data last => Sys2Proof.Machine.execConfigChunk data last s
  | .configVerdict v => Sys2Proof.Machine.execConfigVerdict v s
  | .imageChunk data last => Sys2Proof.Machine.execImageChunk data last s
  | .imageVerdict v => Sys2Proof.Machine.execImageVerdict v s
  | .imageReloadDone ok => Sys2Proof.Machine.execImageReloadDone ok s
  | .logFormatDone => Sys2Proof.Machine.execLogFormatDone s
  | .loadComplete => Sys2Proof.Machine.execLoadComplete s
  | .loadFail reason => Sys2Proof.Machine.execLoadFail reason s
  | .noVerdict => Sys2Proof.Machine.execNoVerdict s
  | .retry => Sys2Proof.Machine.execRetry s
  | .targetRun => Sys2Proof.Machine.execTargetRun s
  | .targetTrim => Sys2Proof.Machine.execTargetTrim s
  | .targetRetain => Sys2Proof.Machine.execTargetRetain s
  | .targetOff => Sys2Proof.Machine.execTargetOff s
  | .retainEntry => Sys2Proof.Machine.execRetainEntry s
  | .retainTimeout => Sys2Proof.Machine.execRetainTimeout s
  | .retainWake island => Sys2Proof.Machine.execRetainWake island s
  | .dozeEntry island => Sys2Proof.Machine.execDozeEntry island s
  | .dozeWake island => Sys2Proof.Machine.execDozeWake island s
  | .debugToken slot data => Sys2Proof.Machine.execDebugToken slot data s
  | .tokenRevocation slot => Sys2Proof.Machine.execTokenRevocation slot s
  | .tokenExpiry slot => Sys2Proof.Machine.execTokenExpiry slot s
  | .lock key => Sys2Proof.Machine.execLock key s
  | .dapAccess write addr data => Sys2Proof.Machine.execDapAccess write addr data s
  | .halt pilots => Sys2Proof.Machine.execHalt pilots s
  | .resume pilots => Sys2Proof.Machine.execResume pilots s
  | .stepPilots pilots => Sys2Proof.Machine.execStepPilots pilots s
  | .breakpointHit pilot addr => Sys2Proof.Machine.execBreakpointHit pilot addr s
  | .pdbgSelWrite v => Sys2Proof.Machine.execPdbgSelWrite v s
  | .pdbgDataWrite v => Sys2Proof.Machine.execPdbgDataWrite v s
  | .traceRecord src => Sys2Proof.Machine.execTraceRecord src s
  | .traceRdWrite v => Sys2Proof.Machine.execTraceRdWrite v s
  | .sample => Sys2Proof.Machine.execSample s
  | .periodicSample => Sys2Proof.Machine.execPeriodicSample s
  | .clear => Sys2Proof.Machine.execClear s
  | .query r => Sys2Proof.Machine.execQuery r s
  | .rcRead addr be rid tag => Sys2Proof.Machine.execRcRead addr be rid tag s
  | .watchWriteFail bol r => Sys2Proof.Machine.execWatchWriteFail bol r s
  | .evalStoreFault e addr r => Sys2Proof.Machine.execEvalStoreFault e addr r s
  | .coldResetRelease => Sys2Proof.Machine.execColdResetRelease s

end Sys2Proof.Machine
end

