-- ==== Sys2Proof/Machine/Step.lean ====
section
/-!
DEFINITION. One step: the command at the front of the queue, or a tick of the clock on an empty queue.
-/

namespace Sys2Proof.Machine

/-- One step of the block. [log 1 DESIGN CHOICE unsafe] -/
def step (s : State) : Host.Outcome State Fault Refusal :=
  match s.pending with
  | [] => .next { s with dev := tick s.dev }
  | c :: r => exec c { s with pending := r }

/-- The state with the command that a word spells put at the front of the queue. The table gives no row any bits, so no
word spells one and the state is left as it is. [log 3 DESIGN CHOICE safe] -/
def State.withFetchWord (s : State) (nbits w : Nat) : State :=
  match decodeTableWord nbits w with
  | some c => { s with pending := c :: s.pending }
  | none => s

end Sys2Proof.Machine
end

