-- ==== Sys2Proof/Safety.lean ====
section
/-!
DEFINITION. What counts as a safe run, in the terms the statements use: the shape every step keeps.
-/

namespace Sys2Proof.Machine

/-- The register table in canonical form: offsets strictly rising, no register listed that holds its reset value. -/
def regsOk (t : Tbl W64) : Bool := twf regDflt t

/-- The units that come in a fixed number keep it: 16 sequencers (R122), 56 quays (R10), 48 links (R279), 8 pilots (R10). -/
def unitsOk (d : Dev) : Bool :=
  d.seqs.length = 16 && d.quays.length = 56 && d.fsa.links.length = 48 && d.dtc.pilots.length = 8

/-- A well-formed block. -/
def Dev.wf (d : Dev) : Bool := regsOk d.regs && unitsOk d

/-- The island of unit `u` runs and needs no wake: out of reset, not gated, the block not retained (R25, R326, R338). -/
def awake (d : Dev) (u : Nat) : Bool := !inReset d u && !decide (fld d fPwrState = 3) && !fbit d fDozing u

/-- A page is served by its island: implemented, out of reset in the sense of R43, its island and the HPU awake. -/
def served (d : Dev) (p : Nat) : Bool :=
  !decide (pageKind p = .reserved) && !pageInReset d p && awake d (pageUnit p) && !inReset d 1

/-- Registers of the block without its other parts changed: what R41 calls a write of a register. -/
def onlyRegs (d e : Dev) : Prop := { e with regs := d.regs } = d

end Sys2Proof.Machine
end

