-- ==== Sys2Proof/Certificates/Slice0/Obligations.lean ====
section
/-!
DEFINITION. The statements for the provers. `Rule.<Name>` states what one group of rules of the manual says; `Obligations.<Name>` is one or more of
them. In every statement the hypotheses are on the state and the operands alone, and hold in states that no run reaches as well.
-/

namespace Sys2Proof.Machine

/-! ### Register space and doorbell aperture (03) -/

/-- R41: what a field holds after a write of `x` to it, by its access type; `old` is what it held. Bit by bit for the types
that act on bits. -/
def fieldAfter (r : FRow) (old x new : Nat) : Prop :=
  match r.acc with
  | .rw => new = if r.legal.ok x then x else old
  | .w1c => ∀ i, new.testBit i = (old.testBit i && !x.testBit i)
  | .w1s => ∀ i, new.testBit i = (old.testBit i || x.testBit i)
  | .ro | .rc | .wo => new = old

/-- Registers whose write is no command and has no effect beside its fields: the page-specific registers of every page but the
SCU, FSA, DTC and window pages, without the command registers among them. -/
def settingsReg (p off : Nat) : Bool :=
  decide (0x080 ≤ off) && decide (off < pageTop p) && decide (off % 8 = 0) &&
    match pageKind p with
    | .hpu | .btc | .mfu | .lbu | .tsq => true
    | .hms => off != 0x160
    | .blu => off != 0x098
    | .lev => off != 0x090
    | .mmg => off != 0x0A0
    | .pilot => !(p == 0x10 && off == 0x090)
    | .quay => off != 0x098
    | .scu | .fsa | .dtc | .window | .reserved => false

/-- REGISTER_WRITE (R41): a write to a page that is served acts on each field of the register by the field's own type, and on
nothing else. -/
def Rule.RegisterWriteFields : Prop :=
  ∀ (s : State) (p off : Nat) (v : BitVec 64), p < 256 → settingsReg p off = true → served s.dev p = true →
    ∃ t, exec (.registerWrite (BitVec.ofNat 57 (p * 0x1000 + off)) 0xFF v) s = .next t ∧
      (∀ r ∈ regRows p off,
        fieldAfter r (getBits (reg s.dev p off) r.hi r.lo) (getBits v r.hi r.lo) (getBits (reg t.dev p off) r.hi r.lo)) ∧
      (∀ p' off', regKey p' off' ≠ regKey p off → reg t.dev p' off' = reg s.dev p' off') ∧
      onlyRegs s.dev t.dev ∧ t.pending = s.pending

/-- REGISTER_WRITE (R39, R40, R43): a write that is not one naturally aligned 8-byte access with all byte enables and bits 56:20
zero, one to a reserved page index, and one to a page in reset are discarded and logged in the HPU page with codes 0x01, 0x02 and
0x03; one at or above TOP is discarded and not logged. `hpuErr` is the error capture of the HPU page (R48, R92). -/
def Rule.RegisterWriteDiscarded : Prop :=
  ∀ (s : State) (addr : BitVec 57) (be v : BitVec 64), inReset s.dev 1 = false →
    ((addr.toNat % 8 ≠ 0 ∨ 2 ^ 20 ≤ addr.toNat ∨ be ≠ 0xFF) →
      exec (.registerWrite addr be v) s = .next { s with dev := hpuErr s.dev 1 addr.toNat }) ∧
    ((addr.toNat % 8 = 0 ∧ addr.toNat < 2 ^ 20 ∧ be = 0xFF) →
      (pageKind (addr.toNat / 0x1000) = .reserved →
        exec (.registerWrite addr be v) s = .next { s with dev := hpuErr s.dev 2 addr.toNat }) ∧
      (pageKind (addr.toNat / 0x1000) ≠ .reserved → pageInReset s.dev (addr.toNat / 0x1000) = true →
        exec (.registerWrite addr be v) s = .next { s with dev := hpuErr s.dev 3 addr.toNat }) ∧
      (served s.dev (addr.toNat / 0x1000) = true → pageTop (addr.toNat / 0x1000) ≤ addr.toNat % 0x1000 →
        exec (.registerWrite addr be v) s = .next s))

/-- A completion that leaves on the host port after those already there. -/
def withAnswer (d : Dev) (o : HostOut) : Dev := modHpu d fun h => { h with out := h.out ++ [o] }

/-- RC_READ (R39 to R41, R43): a read of a page that is served is answered with the register's value, and then the register's RC
fields, and no others, clear; a read of a reserved page index or of a page in reset changes nothing but the answer; a refused
one is answered as unsupported and logged with code 0x01. -/
def Rule.RegisterRead : Prop :=
  ∀ (s : State) (p off : Nat) (rid : BitVec 16) (tag : BitVec 10), inReset s.dev 1 = false →
    (p < 256 → off < 0x1000 → off % 8 = 0 →
      (served s.dev p = true →
        ∃ e, exec (.rcRead (BitVec.ofNat 57 (p * 0x1000 + off)) 0xFF rid tag) s =
            .next { s with dev := withAnswer e (.readData rid tag (regRead s.dev p off)) } ∧
          (∀ r ∈ regRows p off, getBits (reg e p off) r.hi r.lo =
            if r.acc = .rc then 0 else getBits (reg s.dev p off) r.hi r.lo) ∧
          (∀ p' off', regKey p' off' ≠ regKey p off → reg e p' off' = reg s.dev p' off') ∧ onlyRegs s.dev e) ∧
      (pageKind p = .reserved →
        exec (.rcRead (BitVec.ofNat 57 (p * 0x1000 + off)) 0xFF rid tag) s =
          .next { s with dev := withAnswer s.dev (.readData rid tag 0) }) ∧
      (pageKind p ≠ .reserved → pageInReset s.dev p = true → off ≠ 0 → off ≠ 0x008 → off ≠ 0x020 →
        exec (.rcRead (BitVec.ofNat 57 (p * 0x1000 + off)) 0xFF rid tag) s =
          .next { s with dev := withAnswer s.dev (.readData rid tag 0) })) ∧
    (∀ (addr : BitVec 57) (be : BitVec 64), (addr.toNat % 8 ≠ 0 ∨ 2 ^ 20 ≤ addr.toNat ∨ be ≠ 0xFF) →
      exec (.rcRead addr be rid tag) s =
        .next { s with dev := withAnswer (hpuErr s.dev 1 addr.toNat) (.unsupported rid tag) })

/-- APERTURE_READ (R44): a read from the aperture returns zero, has no other effect, and is logged in the HPU page with code
0x04. -/
def Rule.ApertureRead : Prop :=
  ∀ (s : State) (addr : BitVec 57) (rid : BitVec 16) (tag : BitVec 10), inReset s.dev 1 = false →
    exec (.apertureRead addr rid tag) s =
      .next { s with dev := withAnswer (hpuErr s.dev 4 addr.toNat) (.readData rid tag 0) }

/-- QUIESCE_REQUEST, UNIT_QUIESCED, QUIESCE_RELEASE (R53): QREQ, then QUIESCED, and both cleared by the release, which on the pages
named lets nothing held go on. -/
def Rule.QuiesceProtocol : Prop :=
  ∀ (s : State) (page : BitVec 8), served s.dev page.toNat = true → pageKind page.toNat ≠ .scu → pageKind page.toNat ≠ .hpu →
    exec (.quiesceRequest page) s = .next { s with dev := setFld s.dev (fQreq page.toNat) 1 } ∧
    (flag s.dev (fQreq page.toNat) = true → opsDone s.dev page.toNat = true →
      exec (.unitQuiesced page) s = .next { s with dev := setFld s.dev (fQuiesced page.toNat) 1 }) ∧
    (flag s.dev (fQreq page.toNat) = false → exec (.unitQuiesced page) s = .next s) ∧
    (flag s.dev (fQreq page.toNat) = true → page.toNat = 3 ∨ page.toNat = 4 ∨ page.toNat = 7 ∨ pageKind page.toNat = .tsq →
      ∃ t, exec (.quiesceRelease page) s = .next t ∧ fld t.dev (fQreq page.toNat) = 0 ∧ fld t.dev (fQuiesced page.toNat) = 0 ∧
        onlyRegs s.dev t.dev)
/-! ### Windows (03) -/

/-- Every record named is on chip (R63). -/
def hot (d : Dev) (rs : List RecId) : Prop := ∀ r ∈ rs, onChip d r = true

/-- Every line of a home step, each with whether the step writes it, is open to it: no agent's copy of it stands in the way (R267,
R269). -/
def linesOpen (d : Dev) (ls : List (Bool × Nat)) : Prop := ∀ x ∈ ls, homeOpen d x.1 x.2 = true

/-- WIN_READ, WIN_WRITE, WIN_CLEAR (R50): a command to a window that is BUSY is discarded and sets LOST. -/
def Rule.WindowBusyDiscards : Prop :=
  ∀ (s : State) (w : BitVec 7), awake s.dev 2 = true → flag s.dev (fWinBusy w.toNat) = true →
    ∀ c ∈ [Instr.winRead w, .winWrite w, .winClear w],
      exec c s = .next { s with dev := setFld s.dev (fWinLost w.toNat) 1 }

/-- WIN_READ (R50): on a selection that names a record on chip with its generation, or with ANYGEN 1, the staging buffer holds the
record's words, zero beyond the record's size, and the command has RESULT DONE to report; a mismatch of the generation and a bad
selection change no staging register and have STALE and BADSEL to report. BUSY is 1 until the completion. -/
def Rule.WindowRead : Prop :=
  ∀ (s : State) (w : BitVec 7), awake s.dev 2 = true → flag s.dev (fWinBusy w.toNat) = false →
    flag s.dev (fQuiesced 2) = false →
    (selOk s.dev w.toNat = true → hot s.dev (winRecs s.dev w.toNat 1) → linesOpen s.dev (winLines s.dev w.toNat 1) →
      ∃ t, exec (.winRead w) s = .next t ∧ flag t.dev (fWinBusy w.toNat) = true ∧
        ((flag s.dev (fWinAny w.toNat) = true ∨ selGen s.dev w.toNat = fld s.dev (fWinGen w.toNat)) →
          (∀ n, n < 64 → reg t.dev (0x80 + w.toNat) (0x100 + 8 * n) = (selWords s.dev w.toNat).getD n 0) ∧
          (tfind t.dev.btc.win w.toNat).map (fun x => x.2.2.2) = some (some 0)) ∧
        (flag s.dev (fWinAny w.toNat) = false → selGen s.dev w.toNat ≠ fld s.dev (fWinGen w.toNat) →
          (∀ n, n < 64 → reg t.dev (0x80 + w.toNat) (0x100 + 8 * n) = reg s.dev (0x80 + w.toNat) (0x100 + 8 * n)) ∧
          (tfind t.dev.btc.win w.toNat).map (fun x => x.2.2.2) = some (some 1))) ∧
    (selOk s.dev w.toNat = false →
      ∃ t, exec (.winRead w) s = .next t ∧
        (∀ n, n < 64 → reg t.dev (0x80 + w.toNat) (0x100 + 8 * n) = reg s.dev (0x80 + w.toNat) (0x100 + 8 * n)) ∧
        (tfind t.dev.btc.win w.toNat).map (fun x => x.2.2.2) = some (some 2))

/-- WIN_WRITE (R50, R61): PIN and PRIO of a LIVE berth record on chip are replaced from the staging buffer, whose other fields
hold the record's values; with ANYGEN 1 the command has BADSEL to report, with another generation STALE, and the record stays. -/
def Rule.WindowWriteBerth : Prop :=
  ∀ (s : State) (w : BitVec 7) (r : BerthRec), awake s.dev 2 = true → flag s.dev (fWinBusy w.toNat) = false →
    flag s.dev (fQuiesced 2) = false → selOk s.dev w.toNat = true → fld s.dev (fWinTable w.toNat) = 1 →
    hot s.dev (winRecs s.dev w.toNat 2) → linesOpen s.dev (winLines s.dev w.toNat 2) →
    r = berthAt s.dev (fld s.dev (fWinIndex w.toNat)) →
    ∃ t, exec (.winWrite w) s = .next t ∧ flag t.dev (fWinBusy w.toNat) = true ∧
      (flag s.dev (fWinAny w.toNat) = true →
        berthAt t.dev (fld s.dev (fWinIndex w.toNat)) = r ∧ (tfind t.dev.btc.win w.toNat).map (fun x => x.2.2.2) = some (some 2)) ∧
      (flag s.dev (fWinAny w.toNat) = false → r.gen ≠ fld s.dev (fWinGen w.toNat) →
        berthAt t.dev (fld s.dev (fWinIndex w.toNat)) = r ∧ (tfind t.dev.btc.win w.toNat).map (fun x => x.2.2.2) = some (some 1)) ∧
      (flag s.dev (fWinAny w.toNat) = false → r.gen = fld s.dev (fWinGen w.toNat) → r.state = .live →
        stg s.dev w.toNat 0 3 0 = 1 → stg s.dev w.toNat 0 48 48 = 0 →
        stgBerth s.dev w.toNat r = { r with pin := false, prio := stg s.dev w.toNat 0 47 46 } →
        berthAt t.dev (fld s.dev (fWinIndex w.toNat)) = { r with pin := false, prio := stg s.dev w.toNat 0 47 46 } ∧
        (tfind t.dev.btc.win w.toNat).map (fun x => x.2.2.2) = some (some 0))

/-- WIN_CLEAR (R50): every staging register reads zero afterwards; no record changes. -/
def Rule.WindowClear : Prop :=
  ∀ (s : State) (w : BitVec 7), awake s.dev 2 = true → flag s.dev (fWinBusy w.toNat) = false →
    flag s.dev (fQuiesced 2) = false →
    ∃ t, exec (.winClear w) s = .next t ∧ flag t.dev (fWinBusy w.toNat) = true ∧
      (∀ n, n < 64 → reg t.dev (0x80 + w.toNat) (0x100 + 8 * n) = 0) ∧
      t.dev.btc.ctx = s.dev.btc.ctx ∧ t.dev.btc.berth = s.dev.btc.berth ∧ t.dev.blu = s.dev.blu

/-- WINDOW_COMMAND_DONE (R50): RESULT is written and SEQ increments in the same step that BUSY clears. -/
def Rule.WindowDone : Prop :=
  ∀ (s : State) (w : BitVec 7) (op res : Nat) (dap : Bool) (sel : W64), awake s.dev 2 = true →
    tfind s.dev.btc.win w.toNat = some (op, dap, sel, some res) → res < 256 →
    ∃ t, exec (.windowCommandDone w) s = .next t ∧ fld t.dev (fWinResult w.toNat) = res ∧
      fld t.dev (fWinSeq w.toNat) = (fld s.dev (fWinSeq w.toNat) + 1) % 2 ^ 32 ∧ flag t.dev (fWinBusy w.toNat) = false ∧
      tfind t.dev.btc.win w.toNat = none ∧ onlyRegs s.dev { t.dev with btc := s.dev.btc }

/-! ### Doorbells (05) -/

/-- Form of a doorbell write: offset 0 of its page, its 16 bytes enabled, the reserved bits zero (R73, R74). -/
def doorbellForm (addr : BitVec 57) (be : BitVec 64) (data : BitVec 128) : Prop :=
  be = 0xFFFF ∧ addr.toNat % 0x1000 = 0 ∧ addr.toNat < 2 ^ 32 ∧ data.toNat / 2 ^ 66 % 2 ^ 30 = 0

/-- DOORBELL_WRITE (R73, R74): one that is formed well and whose CHECK matches crosses to the BTC with its four fields, and is
counted; one with another form is dropped, counted and logged with code 0x05, one whose CHECK fails with code 0x06. -/
def Rule.DoorbellWrite : Prop :=
  ∀ (s : State) (addr : BitVec 57) (be : BitVec 64) (data : BitVec 128), awake s.dev 1 = true →
    (doorbellForm addr be data → crc32c (doorbellBytes data) = data.toNat / 2 ^ 96 →
      exec (.doorbellWrite addr be data) s = .next
        ⟨modHpu (count (incWrap s.dev fHpuTaken) 0 0 0) fun h =>
            { h with toBtc := h.toBtc ++ [{ ctx := addr.toNat / 0x1000, handle := data.toNat % 2 ^ 32,
                                            prod := data.toNat / 2 ^ 32 % 2 ^ 32, hint := data.toNat / 2 ^ 64 % 4 }] },
         s.pending⟩) ∧
    (doorbellForm addr be data → crc32c (doorbellBytes data) ≠ data.toNat / 2 ^ 96 →
      exec (.doorbellWrite addr be data) s = .next { s with dev := hpuErr (incSat s.dev fHpuCheckDrops) 6 addr.toNat }) ∧
    (¬ doorbellForm addr be data →
      exec (.doorbellWrite addr be data) s = .next { s with dev := hpuErr (incSat s.dev fHpuFormDrops) 5 addr.toNat })

/-- DOORBELL_CHECK (R76, R77, R80): the table of R76 on the oldest doorbell of the crossing, whose records are on chip and whose lines
no agent's copy holds back. `adv` is by how much PROD_IDX goes forward, `room` the lines from DONE_IDX to it, both modulo 2^32. -/
def Rule.DoorbellCheck : Prop :=
  ∀ (s : State) (b : Doorbell) (rest : List Doorbell) (c : CtxRec) (r : BerthRec), awake s.dev 2 = true →
    s.dev.hpu.toBtc = b :: rest → hot s.dev [rCtx b.ctx, rBerth (berthIdx b.handle)] → linesOpen s.dev (dbLines s.dev b) →
    c = ctxAt s.dev b.ctx → r = berthAt s.dev (berthIdx b.handle) →
    ∃ t, exec .doorbellCheck s = .next t ∧ t.dev.hpu.toBtc = rest ∧
      (c.state ≠ .live ∨ berthOk s.dev b.handle = false →
        ctxAt t.dev b.ctx = { c with drops := (c.drops + 1) % 2 ^ 64 } ∧ t.dev.btc.berth = s.dev.btc.berth) ∧
      (c.state = .live → berthOk s.dev b.handle = true → (r.ctxIdx ≠ b.ctx ∨ r.ctxGen ≠ c.gen) →
        fld t.dev fBtcForeign = min (fld s.dev fBtcForeign + 1) (2 ^ 32 - 1) ∧
        t.dev.btc.ctx = s.dev.btc.ctx ∧ t.dev.btc.berth = s.dev.btc.berth) ∧
      (c.state = .live → berthOk s.dev b.handle = true → r.ctxIdx = b.ctx → r.ctxGen = c.gen → r.state = .draining →
        ctxAt t.dev b.ctx = { c with drops := (c.drops + 1) % 2 ^ 64 } ∧ t.dev.btc.berth = s.dev.btc.berth) ∧
      (c.state = .live → berthOk s.dev b.handle = true → r.ctxIdx = b.ctx → r.ctxGen = c.gen → r.state = .halted →
        ctxAt t.dev b.ctx = { c with doorbells := (c.doorbells + 1) % 2 ^ 64 } ∧ t.dev.btc.berth = s.dev.btc.berth) ∧
      (c.state = .live → berthOk s.dev b.handle = true → r.ctxIdx = b.ctx → r.ctxGen = c.gen → r.state = .live →
        ((b.prod + 2 ^ 32 - r.prod) % 2 ^ 32 = 0 ∨ 2 ^ 31 ≤ (b.prod + 2 ^ 32 - r.prod) % 2 ^ 32 →
          ctxAt t.dev b.ctx = { c with doorbells := (c.doorbells + 1) % 2 ^ 64 } ∧ t.dev.btc.berth = s.dev.btc.berth) ∧
        (0 < (b.prod + 2 ^ 32 - r.prod) % 2 ^ 32 → (b.prod + 2 ^ 32 - r.prod) % 2 ^ 32 < 2 ^ 31 →
          (2 ^ r.ringLog2 < (b.prod + 2 ^ 32 - r.done) % 2 ^ 32 →
            fld t.dev fBtcOverrun = min (fld s.dev fBtcOverrun + 1) (2 ^ 32 - 1) ∧
            t.dev.btc.ctx = s.dev.btc.ctx ∧ t.dev.btc.berth = s.dev.btc.berth) ∧
          ((b.prod + 2 ^ 32 - r.done) % 2 ^ 32 ≤ 2 ^ r.ringLog2 →
            ctxAt t.dev b.ctx = { c with doorbells := (c.doorbells + 1) % 2 ^ 64 } ∧
            berthAt t.dev (berthIdx b.handle) = { r with prod := b.prod, rung := true, fopen := true } ∧
            t.dev.btc.toMfu = s.dev.btc.toMfu ++
              (if r.fopen then [] else [.wake (berthIdx b.handle) b.hint]))))

/-- STASH_WRITE (R84, R94, R274): with STASH_EN 1 and a CRC that matches, the line is the youngest entry of the line cache and the only
one of its address; the oldest leaves when STASH_MAX would be passed. The settings are those of the last fetch window. -/
def Rule.StashWrite : Prop :=
  ∀ (s : State) (target : BitVec 2) (asid : BitVec 20) (addr : BitVec 57) (line : Line), target ≠ 0 →
    awake s.dev 1 = true → awake s.dev 3 = true → s.dev.mfu.stashEn = true →
    (lineCrcOk line = true → s.dev.mfu.stash.length < s.dev.mfu.stashMax * 1024 →
      exec (.stashWrite target asid addr line) s = .next ⟨modMfu s.dev fun m =>
        { m with stash := (m.stash.filter fun x => !(x.asid = asid.toNat && x.addr = addr.toNat / 64 * 64)) ++
            [{ asid := asid.toNat, addr := addr.toNat / 64 * 64, line := line, code := Config.lineCode line }] }, s.pending⟩) ∧
    (lineCrcOk line = false →
      exec (.stashWrite target asid addr line) s = .next { s with dev := incSat s.dev fMfuDropped })

/-! ### Manifest fetch (05) -/

/-- BERTH_WAKE (R82): with fewer than 1,024 fetches open, the wake at the front of the crossing opens one, from CONS_IDX to
PROD_IDX; with 1,024 open, with the MFU quiesced (R53, R94), or behind a push of the same doorbell (R273), it stays where it is. For a
berth that is HALTED nothing is fetched and IDLE_CHECK is sent at once (R381). -/
def Rule.BerthWake : Prop :=
  ∀ (s : State) (b hint : Nat) (rest : List MfuMsg), awake s.dev 3 = true → s.dev.btc.toMfu = .wake b hint :: rest →
    (flag s.dev (fQuiesced 3) = false → s.dev.mfu.fetches.length < 1024 → pushAhead s.dev b = false →
      (berthAt s.dev b).state ≠ .halted →
      exec .berthWake s = .next ⟨modMfu (modBtc s.dev fun x => { x with toMfu := rest }) fun m =>
        { m with fetches := (m.fetches.filter fun x => x.berth ≠ b) ++
          [{ berth := b, handle := berthHandle b (berthAt s.dev b).gen, hint := hint, next := (berthAt s.dev b).cons,
             upTo := (berthAt s.dev b).prod, lines := [] }] }, s.pending⟩) ∧
    (flag s.dev (fQuiesced 3) = false → s.dev.mfu.fetches.length < 1024 → pushAhead s.dev b = false →
      (berthAt s.dev b).state = .halted →
      ∃ t, exec .berthWake s = .next t ∧ t.dev.btc.toMfu = rest ∧ t.dev.memOut = s.dev.memOut ∧
        t.dev.mfu.idle = s.dev.mfu.idle ++ [(b, (berthAt s.dev b).cons, (berthAt s.dev b).cons)]) ∧
    (flag s.dev (fQuiesced 3) = true ∨ 1024 ≤ s.dev.mfu.fetches.length ∨ pushAhead s.dev b = true → exec .berthWake s = .next s)

/-- FETCH_WINDOW (R82, R83): a fetch with nothing asked for asks for the lines up to PROD_IDX as it knows it, at most 64, one ring
read a line under the context's keys, with the hint of the doorbell or DEF_HINT; a QREQ of the MFU holds it (R94). -/
def Rule.FetchWindow : Prop :=
  ∀ (s : State) (b : BitVec 22) (f : Fetch) (r : BerthRec) (c : CtxRec), awake s.dev 3 = true →
    s.dev.mfu.fetches = [f] → f.berth = b.toNat → f.lines = [] → f.halting = false → f.idleSent = false →
    s.dev.mfu.stash = [] → r = berthAt s.dev b.toNat → c = ctxAt s.dev r.ctxIdx →
    (flag s.dev (fQreq 3) = true → exec (.fetchWindow b) s = .next s) ∧
    (flag s.dev (fQreq 3) = false → 0 < (f.upTo + 2 ^ 32 - f.next) % 2 ^ 32 →
      ∃ t, exec (.fetchWindow b) s = .next t ∧
        t.dev.memOut = s.dev.memOut ++ ((List.range (min 64 ((f.upTo + 2 ^ 32 - f.next) % 2 ^ 32))).map fun k =>
          MemReq.ringRead c.asid c.keyid c.pid (if f.hint = 0 then fld s.dev fMfuDefHint else f.hint)
            (r.ringBase + (f.next + k) % 2 ^ 32 % 2 ^ r.ringLog2 * 64)) ∧
        t.dev.regs = s.dev.regs ∧ t.dev.btc = s.dev.btc)

/-- LINE_RESPONSE (R87, R88, R94): a line asked for whose CRC matches is staged with its manifest, its bytes 60 to 63 zero, when its turn
has come; one whose CRC does not match is asked for once more, with the DEF_HINT of its window, counted in RETRIES, and raises MFU
event 1. -/
def Rule.LineResponse : Prop :=
  ∀ (s : State) (b : BitVec 22) (i j : BitVec 32) (line : Line) (f : Fetch) (m : Manifest) (rest : List (Nat × LineSt))
    (r : BerthRec) (c : CtxRec), r = berthAt s.dev b.toNat → c = ctxAt s.dev r.ctxIdx → awake s.dev 3 = true → s.dev.mfu.fetches = [f] → f.berth = b.toNat → f.halting = false →
    f.lines = (i.toNat, .asked) :: (j.toNat, .asked) :: rest → i ≠ j →
    s.dev.mfu.mans = [m] → m.berthIdx = b.toNat → m.st = .staging → m.lines.length < m.lineCount →
    (lineCrcOk line = true →
      exec (.lineResponse b i .ok line) s = .next ⟨modMfu s.dev fun x =>
        { x with mans := [{ m with lines := m.lines ++ [clearCrc line] }],
                 fetches := [{ f with lines := (f.lines.drop 1).map fun x =>
                   if x.1 = i.toNat then (i.toNat, .checked line (Config.lineCode line)) else x }] }, s.pending⟩) ∧
    (lineCrcOk line = false →
      ∃ t, exec (.lineResponse b i .ok line) s = .next t ∧
        fld t.dev fMfuRetries = min (fld s.dev fMfuRetries + 1) (2 ^ 32 - 1) ∧ fbit t.dev (fIrqRaw 3) 1 = true ∧
        t.dev.mfu.mans = s.dev.mfu.mans ∧
        t.dev.memOut = s.dev.memOut ++ [.ringRead c.asid c.keyid c.pid
          (if f.hint = 0 then f.defHint else f.hint) (ringAddr r i.toNat)])

/-- IDLE_CHECK (R80, R381): the home's answer. With PROD_IDX at f, or the berth HALTED, CONS_IDX becomes r, the fetch is closed and
FOPEN and RUNG clear; otherwise CONS_IDX becomes f, RUNG clears, and the fetch goes on to PROD_IDX. -/
def Rule.IdleCheck : Prop :=
  ∀ (s : State) (b : BitVec 22) (f r : Nat) (x : BerthRec), awake s.dev 2 = true → s.dev.mfu.idle = [(b.toNat, f, r)] →
    hot s.dev (berthRecs s.dev b.toNat) → linesOpen s.dev [(true, berthLine s.dev b.toNat 0), (true, berthLine s.dev b.toNat 1)] →
    x = berthAt s.dev b.toNat →
    ∃ t, exec (.idleCheck b) s = .next t ∧ t.dev.mfu.idle = [] ∧
      (x.state = .halted ∨ (x.state = .live ∧ x.prod = f) →
        berthAt t.dev b.toNat = { x with cons := r, fopen := false, rung := false } ∧
        t.dev.btc.toMfu = s.dev.btc.toMfu ++ [.close b.toNat]) ∧
      (x.state = .live → x.prod ≠ f →
        berthAt t.dev b.toNat = { x with cons := f, rung := false } ∧
        t.dev.btc.toMfu = s.dev.btc.toMfu ++ [.cont b.toNat x.prod])

/-- FETCH_REPLY (R81): a close ends the fetch and drops the lines of a manifest not complete; a continuation
gives the fetch its new end; a quiesced MFU holds its open fetches (R94). -/
def Rule.FetchReply : Prop :=
  ∀ (s : State) (b prod : Nat) (rest : List MfuMsg), awake s.dev 3 = true →
    (flag s.dev (fQuiesced 3) = true → exec .fetchReply s = .next s) ∧
    (flag s.dev (fQuiesced 3) = false → s.dev.btc.toMfu = .close b :: rest →
      ∃ t, exec .fetchReply s = .next t ∧ t.pending = s.pending ∧ t.dev.btc = { s.dev.btc with toMfu := rest } ∧
        t.dev.mfu = { s.dev.mfu with
          fetches := (s.dev.mfu.fetches.filter fun f => f.berth ≠ b),
          mans := s.dev.mfu.mans.filter fun x => !(x.berthIdx = b && x.st = .staging) }) ∧
    (flag s.dev (fQuiesced 3) = false → s.dev.btc.toMfu = .cont b prod :: rest →
      exec .fetchReply s = .next ⟨modMfu (modBtc s.dev fun x => { x with toMfu := rest }) fun m =>
        { m with fetches := m.fetches.map fun x => if x.berth = b then
            (if x.halting then x else { x with upTo := prod, idleSent := false }) else x }, s.pending⟩)
/-! ### Translation (07) -/

/-- XC_LOOKUP (R117, R118, R131): a hit on chip is counted and its manifest, which no check refuses, asks to be accepted; one that a
check refuses is counted in REFUSED and rejected; a miss with no translation of the key under way queues one and reads the harbour part
for it. Translators that are all busy leave it queued. -/
def Rule.XcLookup : Prop :=
  ∀ (s : State) (b h : Nat) (rest : List (Nat × Nat)) (m : Manifest), awake s.dev 4 = true →
    s.dev.plx.sights = (b, h) :: rest → s.dev.mfu.mans = [m] → m.berthIdx = b → m.headIdx = h → m.st = .looking →
    (∀ e, findEntry s.dev.plx.entries (fun e => e.onChip && e.matches s.dev m.hash (domainOf s.dev m.ctx)) = some e →
      sightBreach m.lines e.refused = none →
      ∃ t, exec .xcLookup s = .next t ∧ fld t.dev fPlxHits = min (fld s.dev fPlxHits + 1) (2 ^ 32 - 1) ∧
        t.dev.mfu.mans = [{ m with st := .requested, entry := some e.num, fresh := false }] ∧
        t.dev.plx.toLbu = s.dev.plx.toLbu ++ [(b, h)] ∧ t.dev.plx.sights = rest ∧ t.dev.plx.queue = s.dev.plx.queue) ∧
    (∀ e, findEntry s.dev.plx.entries (fun e => e.onChip && e.matches s.dev m.hash (domainOf s.dev m.ctx)) = some e →
      ∀ x, sightBreach m.lines e.refused = some x →
      ∃ t, exec .xcLookup s = .next t ∧ t.dev.plx.sights = rest ∧ t.dev.plx.toLbu = s.dev.plx.toLbu ∧
        fld t.dev fPlxRefused = min (fld s.dev fPlxRefused + 1) (2 ^ 32 - 1) ∧
        fld t.dev fMfuRejects = min (fld s.dev fMfuRejects + 1) (2 ^ 32 - 1)) ∧
    (findEntry s.dev.plx.entries (fun e => e.onChip && e.matches s.dev m.hash (domainOf s.dev m.ctx)) = none →
      inFlight s.dev m.hash (domainOf s.dev m.ctx) = false → freePilot s.dev = none →
      exec .xcLookup s = .next ⟨modPlx (harbourRead (modMfu s.dev fun x => { x with mans := [{ m with st := .translating }] })
          (Config.xcProbe m.hash).toNat) fun p =>
        { p with sights := rest, queue := p.queue ++
          [{ berth := b, hash := m.hash, domain := domainOf s.dev m.ctx, pilot := none, harbourOpen := true, lines := m.lineCount,
             checked := getBits (lineWord (m.lines.getD 0 0) 0) 16 16 = 1, own := getBits (lineWord (m.lines.getD 0 0) 0) 16 16 = 1,
             refused := cachedBreach m.lines }] }, s.pending⟩)

/-- XC_HARBOUR_ANSWER (R118): without a match in the harbour part the translation goes on; with one it is abandoned and the entry,
if it may stand on chip and fits there, is copied on chip. -/
def Rule.XcHarbourAnswer : Prop :=
  ∀ (s : State) (b : BitVec 22) (x : Xlate), awake s.dev 4 = true → s.dev.plx.queue = [x] → x.berth = b.toNat →
    x.harbourOpen = true →
    (findEntry s.dev.plx.entries (fun e => e.harbour && e.matches s.dev x.hash x.domain) = none →
      exec (.xcHarbourAnswer b) s = .next { s with dev := modPlx s.dev fun p => { p with queue := [{ x with harbourOpen := false }] } }) ∧
    (∀ e, s.dev.plx.entries = [e] → e.harbour = true → e.matches s.dev x.hash x.domain = true → e.onChip = false →
      e.bytes ≤ 65536 → (∀ m ∈ s.dev.mfu.mans, m.st ≠ .translating) →
      exec (.xcHarbourAnswer b) s = .next ⟨modPlx s.dev fun p => { p with queue := [], entries := [{ e with onChip := true }] }, s.pending⟩)

/-- TRANSLATION_DONE (R117, R119, R121): the key's entry stands in the harbour part, written to both mirrors, and on chip unless it
is longer than 64 KiB; the translation leaves the queue and is counted. -/
def Rule.TranslationDone : Prop :=
  ∀ (s : State) (p : BitVec 3) (x : Xlate), awake s.dev 4 = true → s.dev.plx.queue = [x] → x.pilot = some p.toNat →
    pilotRuns s.dev p.toNat = true → s.dev.plx.entries = [] → (∀ m ∈ s.dev.mfu.mans, m.st ≠ .translating) →
    (if x.refused.isSome then 64 else 64 + 192 * x.lines) ≤ s.dev.scu.cfg.xcHarbour → mirrorSt s.dev 0 ≠ 1 → mirrorSt s.dev 1 ≠ 1 →
    ∃ t, exec (.translationDone p) s = .next t ∧ t.dev.plx.queue = [] ∧
      t.dev.plx.entries = [{ num := s.dev.plx.nextEntry, hash := x.hash, domain := x.domain, epoch := curEpoch s.dev,
                             catVer := curCatVer s.dev, lines := x.lines, refused := x.refused, checked := x.checked, inUse := 0,
                             onChip := decide ((if x.refused.isSome then 64 else 64 + 192 * x.lines) ≤ 65536), harbour := true,
                             lastUse := s.dev.plx.useClock }] ∧
      t.dev.plx.nextEntry = s.dev.plx.nextEntry + 1 ∧ fld t.dev fPlxXlated = min (fld s.dev fPlxXlated + 1) (2 ^ 16 - 1) ∧
      t.dev.memOut = s.dev.memOut ++ [0, 1].map (fun i =>
        MemReq.harbourWrite (mirrorAddr s.dev i (Config.xcPlace s.dev.plx.nextEntry).toNat) []) ∧ t.dev.mfu = s.dev.mfu

/-- A translation taken from pilot `p`. -/
def unpiloted (p : Nat) (x : Xlate) : Xlate := if x.pilot = some p then { x with pilot := none, checked := x.own } else x

/-- TRANSLATION_RESTART (R120, R131): a translation whose pilot is in reset or out of service is discarded and waits, in its place in
the order, for another, with the checked mode that its manifest asks for; otherwise, of a halted pilot too, nothing changes. -/
def Rule.TranslationRestart : Prop :=
  ∀ (s : State) (p : BitVec 3) (e : Dev), awake s.dev 4 = true →
    e = modPlx s.dev (fun q => { q with queue := q.queue.map (unpiloted p.toNat) }) →
    ((fbit s.dev fPilotOut p.toNat = true ∨ (at' {} s.dev.dtc.pilots p.toNat).reset = true) → freePilot e = none →
      exec (.translationRestart p) s = .next { s with dev := e }) ∧
    (fbit s.dev fPilotOut p.toNat = false → (at' {} s.dev.dtc.pilots p.toNat).reset = false →
      exec (.translationRestart p) s = .next s)

/-- XC_FLUSH and FLUSH_DONE (R121, R131): entries not in use are dropped, those in use are dropped when their count reaches zero;
FLUSH reads 1 until the end of the flush, which raises event 0 of PC0's page. -/
def Rule.XcFlush : Prop :=
  ∀ s : State, awake s.dev 4 = true →
    (flag s.dev fPlxFlush = false →
      exec .xcFlush s = .next ⟨modPlx (setFld s.dev fPlxFlush 1) fun p =>
        { p with entries := (p.entries.filter fun e => e.inUse ≠ 0).map fun e => { e with doomed := true } }, s.pending⟩) ∧
    (flag s.dev fPlxFlush = true →
      exec .flushDone s = .next { s with dev := raiseEvent (setFld s.dev fPlxFlush 0) 0x10 0 } ∧ exec .xcFlush s = .next s) ∧
    (flag s.dev fPlxFlush = false → exec .flushDone s = .next s)

/-- CS_PARITY_ERROR and CS_RELOAD_DONE (R124): the sequencer stops, its error is captured with CLASS 0x03 and raised as a machine
check and as event 0; it is RELOADING, or OFFLINE within a second of its last reload. The reload puts it back to RUNNING,
writes its stores from the harbour copy of the image, is counted, and leaves an OFFLINE sequencer as it is. -/
def Rule.ControlStoreError : Prop :=
  ∀ (s : State) (q : BitVec 4), awake s.dev 8 = true →
    (∀ (k : CsError) (a : BitVec 12), fld s.dev (fTsqState q.toNat) = 1 → flag s.dev (fErrValid (0x20 + q.toNat)) = false →
      (seqAt s.dev q.toNat).jobs = [] → (seqAt s.dev q.toNat).buf = [] →
      ∃ t, exec (.csParityError q k a) s = .next t ∧
        fld t.dev (fTsqState q.toNat) =
          (if (seqAt s.dev q.toNat).lastReload.any (fun r => tideW s.dev < r + 1000000000) then 3 else 2) ∧
        flag t.dev (fErrValid (0x20 + q.toNat)) = true ∧ fld t.dev (fErrClass (0x20 + q.toNat)) = 3 ∧
        fld t.dev (fErrCode (0x20 + q.toNat)) = csCode k ∧ fld t.dev (fErrAddr (0x20 + q.toNat)) = a.toNat ∧
        fbit t.dev (fIrqRaw (0x20 + q.toNat)) 0 = true ∧ flag t.dev fMcValid = true) ∧
    (fld s.dev (fTsqState q.toNat) = 2 →
      exec (.csReloadDone q) s = .next ⟨modSeq (incSat (setFld s.dev (fTsqState q.toNat) 1) (fTsqMcCount q.toNat)) q.toNat fun x =>
        match s.dev.scu.imgCopy with
        | some m => { x with lastReload := some (tideW s.dev), img := some m, upc := none }
        | none => { x with lastReload := some (tideW s.dev) }, s.pending⟩) ∧
    (fld s.dev (fTsqState q.toNat) ≠ 2 → exec (.csReloadDone q) s = .next s)

/-! ### Acceptance and completion (14, 06) -/

/-- ACCEPT_REQUEST (R246, R249, R252): with room in the journal, the oldest request gives its manifest the next LSNs, in one group
whose last unit ends it, if its context is LIVE and its berth's handle good; otherwise the manifest is discarded without a
record. A QREQ of the LBU and a journal below LOW_WATER hold requests. -/
def Rule.AcceptRequest : Prop :=
  ∀ (s : State) (b h : Nat) (rest : List (Nat × Nat)) (m : Manifest), awake s.dev 10 = true →
    s.dev.plx.toLbu = (b, h) :: rest → s.dev.mfu.mans = [m] → m.berthIdx = b → m.headIdx = h → m.st = .requested →
    hot s.dev (berthRecs s.dev b) → homeOpen s.dev false (ctxLine s.dev (ctxIdx m.ctx) 0) = true →
    (flag s.dev (fQreq 7) = true ∨ logLow s.dev = true → exec .acceptRequest s = .next s) ∧
    (flag s.dev (fQreq 7) = false → logLow s.dev = false → ctxLive s.dev m.ctx = true → berthOk s.dev m.berth = true →
      ∃ t, exec .acceptRequest s = .next t ∧ t.dev.plx.toLbu = rest ∧
        t.dev.mfu.mans = [{ m with st := .logged, lsn := s.dev.lbu.nextLsn,
                                   groupEnd := s.dev.lbu.nextLsn + (if firstBegins m then 3 else 2) - 1 }] ∧
        t.dev.lbu.nextLsn = s.dev.lbu.nextLsn + (if firstBegins m then 3 else 2) ∧
        t.dev.lbu.journal = s.dev.lbu.journal ++ groupUnits s.dev.lbu.nextLsn (acceptGroup s.dev m)) ∧
    (flag s.dev (fQreq 7) = false → logLow s.dev = false → (ctxLive s.dev m.ctx = false ∨ berthOk s.dev m.berth = false) →
      ∃ t, exec .acceptRequest s = .next t ∧ t.dev.plx.toLbu = rest ∧ t.dev.mfu.mans = [] ∧ t.dev.lbu = s.dev.lbu)

/-- MANIFEST_ACCEPTED (R248): once the last unit of its accept group is durable, and the harbour-part write of an entry inserted for it
acknowledged, the manifest is accepted: ACC_IDX passes its last line, its commands stand in line order after those already accepted,
MANIFEST_BYTES counts it. -/
def Rule.ManifestAccepted : Prop :=
  ∀ (s : State) (b : AcceptEnd) (m : Manifest), awake s.dev 10 = true → s.dev.mfu.mans = [m] →
    m.berthIdx = b.berth.toNat → m.st = .logged →
    (durableAt s.dev m.groupEnd = true → (b.acked = true ∨ m.fresh = false) →
      ∃ t, exec (.manifestAccepted b) s = .next t ∧ (berthAt t.dev b.berth.toNat).acc = (m.headIdx + 1 + m.lineCount) % 2 ^ 32 ∧
        t.dev.cmds = s.dev.cmds ++ newCmds s.dev m ∧ t.dev.mfu.mans = [{ m with st := .accepted }] ∧
        (ctxAt t.dev (ctxIdx m.ctx)).manifestBytes =
          ((ctxAt s.dev (ctxIdx m.ctx)).manifestBytes + 64 * (1 + m.lineCount)) % 2 ^ 64) ∧
    (durableAt s.dev m.groupEnd = false ∨ (b.acked = false ∧ m.fresh = true) → exec (.manifestAccepted b) s = .next s)

/-- LOG_UNIT_DURABLE (R243): the durable prefix grows by the unit at its end and by those above that are acknowledged already; a
unit above a gap waits. -/
def Rule.LogUnitDurable : Prop :=
  ∀ (s : State) (lsn : BitVec 64), awake s.dev 10 = true → lsn.toNat < s.dev.lbu.nextLsn →
    (mirrorSt s.dev 0 = 0 ∨ mirrorSt s.dev 1 = 0) → s.dev.lbu.acked.contains lsn.toNat = false →
    (lsn.toNat = s.dev.lbu.durable → s.dev.lbu.acked.contains (lsn.toNat + 1) = false →
      ∃ t, exec (.logUnitDurable lsn) s = .next t ∧ t.dev.lbu.durable = lsn.toNat + 1) ∧
    (s.dev.lbu.durable < lsn.toNat → s.dev.lbu.acked.contains s.dev.lbu.durable = false →
      ∃ t, exec (.logUnitDurable lsn) s = .next t ∧ t.dev.lbu.durable = s.dev.lbu.durable ∧
        t.dev.lbu.acked.contains lsn.toNat = true) ∧
    (lsn.toNat < s.dev.lbu.durable → exec (.logUnitDurable lsn) s = .next s)

/-- COMPLETE_DURABLE (R12, R112, R250): the oldest COMPLETE record of the berth that has no ring record, once it is durable and the
command's signals have been applied, sends its completion record to the ring; CPL_PROD advances. Until then nothing leaves. -/
def Rule.CompleteDurable : Prop :=
  ∀ (s : State) (x : Cmd) (l : Nat) (r : BerthRec) (c : CtxRec), awake s.dev 10 = true →
    nextRing s.dev x.key.berth.toNat = some x → x.completeLsn = some l →
    x.berth = x.key.berth.toNat → hot s.dev (berthRecs s.dev x.berth) →
    r = berthAt s.dev x.berth → c = ctxAt s.dev (ctxIdx x.ctx) →
    (durableAt s.dev l = true → x.phase = .complete →
      ∃ t, exec (.completeDurable x.key) s = .next t ∧
        t.dev.memOut.take (s.dev.memOut.length + 1) = s.dev.memOut ++
          [.cplWrite c.asid c.keyid c.pid (r.cplBase + r.cplProd % 2 ^ r.cplLog2 * 32) (cplWords x r.cplProd)] ∧
        (berthAt t.dev x.berth).cplProd = (r.cplProd + 1) % 2 ^ 32 ∧
        (∀ y, cmdAt t.dev x.key = some y → y.ringDone = true ∧ y.durable = true)) ∧
    (durableAt s.dev l = false ∨ x.phase ≠ .complete → exec (.completeDurable x.key) s = .next s)

/-- COMPLETION_RECORD_LOST (R68, R306): an access error or a translation fault of a completion-ring write is captured in the LBU's
page with CLASS 0x04 and counted; CPL_PROD stays past the record. -/
def Rule.CompletionRecordLost : Prop :=
  ∀ (s : State) (ctx : BitVec 32) (addr : BitVec 57), awake s.dev 10 = true → cplSent s.dev addr.toNat = true →
    exec (.completionRecordLost ctx addr .access) s =
      .next { s with dev := incSat (logErr s.dev 7 4 2 addr.toNat) fBtcCplLost } ∧
    exec (.completionRecordLost ctx addr .translation) s =
      .next { s with dev := incSat (logErr s.dev 7 4 3 addr.toNat) fBtcCplLost } ∧
    exec (.completionRecordLost ctx addr .ok) s = .next s

/-- CHECKPOINT (R252, R262): in a loaded block without a reset and without a checkpoint under way, when the CKPT_US that the last one
found has passed, or at once below LOW_WATER. With every unit durable the last unit of the journal is then a CKPT record whose tail is the
LSN at which the checkpoint began; otherwise the checkpoint waits for the records before it. Not yet due, nothing changes. -/
def Rule.Checkpoint : Prop :=
  ∀ s : State, awake s.dev 10 = true → loaded s.dev = true → s.dev.scu.rst = .none → s.dev.lbu.ckptStart = none →
    (s.dev.lbu.lastCkpt + us s.dev.lbu.ckptUs ≤ s.dev.now ∨ logLow s.dev = true → s.dev.lbu.durable = s.dev.lbu.nextLsn →
      ∃ t, exec .checkpoint s = .next t ∧ t.dev.lbu.lastCkpt = s.dev.now ∧
        (t.dev.lbu.journal.getLast?).map (fun u => (u.lsn + 1, u.body, u.last)) =
          some (t.dev.lbu.nextLsn, .ckpt s.dev.lbu.nextLsn (tideW s.dev), true)) ∧
    (s.dev.lbu.lastCkpt + us s.dev.lbu.ckptUs ≤ s.dev.now ∨ logLow s.dev = true → s.dev.lbu.durable < s.dev.lbu.nextLsn →
      ∃ t, exec .checkpoint s = .next t ∧ t.dev.lbu.lastCkpt = s.dev.now ∧ t.dev.lbu.ckptStart = some s.dev.lbu.nextLsn ∧
        t.dev.lbu.journal = s.dev.lbu.journal ∧ t.dev.lbu.nextLsn = s.dev.lbu.nextLsn) ∧
    (s.dev.now < s.dev.lbu.lastCkpt + us s.dev.lbu.ckptUs → logLow s.dev = false → exec .checkpoint s = .next s)

/-- MIRROR_LOST and RESILVER_DONE (R260): a mirror that was OK is LOST, or, where a spare range is free and the other is OK, RESILVERING,
with the survivor copied into the spare; LBU event 1. The end of the copy makes the mirror OK, in the spare's place and stack, with no page
retired. -/
def Rule.Mirrors : Prop :=
  ∀ (s : State) (m : Bool) (i : Nat), awake s.dev 10 = true → i = (if m then 1 else 0) →
    (mirrorSt s.dev i = 0 →
      ∃ t, exec (.mirrorLost m) s = .next t ∧ fbit t.dev (fIrqRaw 7) 1 = true ∧ t.dev.lbu.journal = s.dev.lbu.journal ∧
        (spareFree s.dev = true → mirrorSt s.dev (1 - i) = 0 → mirrorSt t.dev i = 2 ∧
          t.dev.memOut = s.dev.memOut ++ [.harbourCopy (mirrorBase s.dev (1 - i)) (baseOf s.dev.scu.cfg 2) (layoutEnd s.dev.scu.cfg)]) ∧
        (spareFree s.dev = false ∨ mirrorSt s.dev (1 - i) ≠ 0 → mirrorSt t.dev i = 1 ∧ t.dev.memOut = s.dev.memOut)) ∧
    (mirrorSt s.dev i ≠ 0 → exec (.mirrorLost m) s = .next s) ∧
    (mirrorSt s.dev 0 ≠ 2 → mirrorSt s.dev 1 = 2 → s.dev.lbu.place.length = 2 → fld s.dev fLbuSpare < 16 →
      ∃ t, exec .resilverDone s = .next t ∧ mirrorSt t.dev 1 = 0 ∧ fld t.dev fLbuStackB = fld s.dev fLbuSpare ∧
        fld t.dev (fLbuRetired 1) = 0 ∧ t.dev.lbu.place.getD 1 1 = 2 ∧ t.dev.memOut = s.dev.memOut)

/-- HARBOUR_POISON_READ (R261, R306): with the other mirror good, the first poison of a page is captured with CLASS 0x04, the page
is written again from the other mirror and joins the history; with the page in the history it is retired, counted and reported as LBU
event 2, and its place in the spare pool is written from the other mirror. Without the other mirror it is the machine check of code 0x23. -/
def Rule.HarbourPoison : Prop :=
  ∀ (s : State) (m : Bool) (i : Nat) (page : HarbourAt), awake s.dev 10 = true → i = (if m then 1 else 0) →
    (mirrorSt s.dev i = 0 → mirrorSt s.dev (1 - i) = 0 →
      (s.dev.lbu.history.contains (m, page.page.toNat) = false → s.dev.lbu.history.length < 1024 → flag s.dev (fErrValid 7) = false →
        ∃ t, exec (.harbourPoisonRead m page .ok) s = .next t ∧ t.dev.lbu.history = s.dev.lbu.history ++ [(m, page.page.toNat)] ∧
          t.dev.memOut = s.dev.memOut ++
            [.harbourCopy (mirrorAddr s.dev (1 - i) (page.page.toNat * 4096)) (mirrorAddr s.dev i (page.page.toNat * 4096)) 4096] ∧
          flag t.dev (fErrValid 7) = true ∧ fld t.dev (fErrClass 7) = 4 ∧ fld t.dev (fErrCode 7) = 1) ∧
      (s.dev.lbu.history.contains (m, page.page.toNat) = true → fld s.dev (fLbuRetired i) < 4095 →
        ∃ t, exec (.harbourPoisonRead m page .ok) s = .next t ∧
          fld t.dev (fLbuRetired i) = fld s.dev (fLbuRetired i) + 1 ∧
          fld t.dev fLbuRetPage = page.page.toNat ∧ t.dev.lbu.redirected.getLast? = some (m, page.page.toNat) ∧
          t.dev.lbu.history.contains (m, page.page.toNat) = false ∧ fbit t.dev (fIrqRaw 7) 2 = true)) ∧
    (mirrorSt s.dev (1 - i) ≠ 0 → flag s.dev fMcValid = false →
      ∃ t, exec (.harbourPoisonRead m page .ok) s = .next t ∧ flag t.dev fMcValid = true ∧ fld t.dev fMcCode = 0x23)

/-- REPLAY (R255, R259, R331): in REPLAY and out of reset, the replay ends with LOAD_STATE LOADED, the scheduler released, and LBU
event 0; in any other state nothing changes. A unit of the window that neither mirror can read there is the machine check of code 0x23,
and the log ends at its LSN. -/
def Rule.Replay : Prop :=
  ∀ (s : State) (m : Bool) (p : HarbourAt) (other : MemResp) (n : Nat), awake s.dev 10 = true → s.dev.scu.targetLater = none →
    (fld s.dev fLoadState = 2 → s.dev.scu.rst = .none →
      (∃ t, exec .replay s = .next t ∧ fld t.dev fLoadState = 3 ∧ t.dev.hms.released = true ∧
        fbit t.dev (fIrqRaw 7) 0 = true) ∧
      (other ≠ .ok → s.dev.lbu.tail ≤ n → n < s.dev.lbu.nextLsn → s.dev.lbu.nextLsn ≤ s.dev.lbu.tail + s.dev.scu.cfg.logUnits →
        offUnit s.dev.scu.cfg n = p.page.toNat * 4096 + p.unit.toNat * 32 → flag s.dev fMcValid = false →
        ∃ t, exec (.harbourPoisonRead m p other) s = .next t ∧ flag t.dev fMcValid = true ∧ fld t.dev fMcCode = 0x23 ∧
          t.dev.lbu.nextLsn = n ∧ (∀ u ∈ t.dev.lbu.journal, u.lsn < n))) ∧
    (fld s.dev fLoadState ≠ 2 ∨ s.dev.scu.rst ≠ .none → exec .replay s = .next s)

/-- COMMAND_INTERRUPTED (R254): with none of its own tiles outstanding, a replayable command waits to run again with REPLAYED set;
any other completes ABORTED with DETAIL 3. -/
def Rule.CommandInterrupted : Prop :=
  ∀ (s : State) (k : CmdId) (x : Cmd), awake s.dev 10 = true → cmdAt s.dev k = some x → x.phase = .interrupted →
    ctxLive s.dev x.ctx = true → hot s.dev (berthRecs s.dev x.berth) →
    (tilesOut s.dev k ≠ 0 → exec (.commandInterrupted k) s = .next s) ∧
    (tilesOut s.dev k = 0 → x.spec.replay = true →
      ∃ t, exec (.commandInterrupted k) s = .next t ∧
        (cmdAt t.dev k).map (fun c => (c.phase, c.replayed, c.slices)) = some (.waiting, true, [])) ∧
    (tilesOut s.dev k = 0 → x.spec.replay = false → x.completeLsn = none →
      ∃ t, exec (.commandInterrupted k) s = .next t ∧
        (cmdAt t.dev k).map (fun c => (c.phase, c.status, c.detail)) = some (.complete, some stAborted, 3) ∧
        (ctxAt t.dev (ctxIdx x.ctx)).cmdsFailed = ((ctxAt s.dev (ctxIdx x.ctx)).cmdsFailed + 1) % 2 ^ 64)

/-- SIGNAL_HOST (R102, R385): it completes OK as it issues; its write leaves once its ring record is written; the write's acknowledgement
raises SCU event 3 where IRQ is 1. A skipped one sends nothing. -/
def Rule.SignalHost : Prop :=
  ∀ (s : State) (k : CmdId) (x : Cmd) (va : Nat) (v : W64) (irq : Bool) (c : CtxRec), awake s.dev 10 = true →
    cmdAt s.dev k = some x → x.spec.op = .signalHost va v irq → c = ctxAt s.dev (ctxIdx x.ctx) → hot s.dev (berthRecs s.dev x.berth) →
    (x.phase = .issued → x.spec.sigs = [] → x.completeLsn = none → x.status = none →
      ∃ t, exec (.signalHost k) s = .next t ∧
        (cmdAt t.dev k).map (fun c => (c.phase, c.status, c.detail)) = some (.complete, some stOk, 0)) ∧
    (x.phase ≠ .issued → x.skipped = true → exec (.signalHost k) s = .next s) ∧
    (x.phase ≠ .issued → x.status = some stOk → x.ringDone = true → x.skipped = false →
      (x.step = 0 → ctxOk s.dev x.ctx = true → tfind s.dev.btc.teardowns (ctxIdx x.ctx) = none →
        exec (.signalHost k) s = .next ⟨modCmd (memReq s.dev (.hostWrite c.asid c.keyid c.pid va v)) k fun c => { c with step := 1 }, s.pending⟩) ∧
      (x.step = 1 → (s.dev.mfu.mans.any fun m => m.berthIdx = x.berth && m.headIdx = x.headIdx) = true →
        exec (.signalHost k) s = .next ⟨if irq then raiseEvent (modCmd s.dev k fun c => { c with step := 2 }) 0 3
          else modCmd s.dev k fun c => { c with step := 2 }, s.pending⟩))

/-- HOST_WRITE_FAIL (R59, R296, R385): the failed write of a SIGNAL_HOST is captured with CLASS 0x04, opens one fault record with cause
0x70, halts its berth, and its LIVE context enters DYING. -/
def Rule.HostWriteFail : Prop :=
  ∀ (s : State) (k : CmdId) (x : Cmd) (va : Nat) (v : W64) (irq : Bool), awake s.dev 10 = true → cmdAt s.dev k = some x →
    x.spec.op = .signalHost va v irq → x.step = 1 → (ctxAt s.dev (ctxIdx x.ctx)).state = .live →
    tfind s.dev.scu.slots x.berth = none → flag s.dev (fErrValid 7) = false → hot s.dev (berthRecs s.dev x.berth) →
    ∃ t, exec (.hostWriteFail k .access) s = .next t ∧ (ctxAt t.dev (ctxIdx x.ctx)).state = .dying ∧
      ((berthAt s.dev x.berth).state = .live → (berthAt t.dev x.berth).state = .halted) ∧
      fld t.dev (fErrClass 7) = 4 ∧ fld t.dev (fErrCode 7) = 2 ∧
      t.dev.scu.faultSeq = (s.dev.scu.faultSeq + 1) % 2 ^ 32 ∧
      (t.dev.scu.open_.getLast?).map (fun r => (r.seq, r.cause, r.context)) = some (s.dev.scu.faultSeq, 0x70, x.ctx)
/-! ### Harbourmaster (12) -/

/-- HMS_PICK (R204, R206): of two ready commands that need no sequencer, the one of the lower effective level issues, and is charged
to its partition and berth turn; the other stays as it is. -/
def Rule.HmsPick : Prop :=
  ∀ (s : State) (a b : Cmd), awake s.dev 5 = true → hmsMayPick s.dev = true →
    (s.dev.cmds = [a, b] ∨ s.dev.cmds = [b, a]) → a.key ≠ b.key → a.berth ≠ b.berth → ready s.dev a = true → ready s.dev b = true →
    a.spec.op.sequenced = false → b.spec.op.sequenced = false → levelOf s.dev a < levelOf s.dev b → levelOf s.dev b < 4 →
    hot s.dev (berthRecs s.dev a.berth) → pidOf s.dev a < 16 → (fld s.dev (fHmsWeight (pidOf s.dev a)) = 0 ∨ 0 < deficitAt s.dev (levelOf s.dev a) (pidOf s.dev a)) →
    ∃ t, exec .hmsPick s = .next t ∧
      (cmdAt t.dev a.key).map (fun c => (c.phase, c.issueNo, c.issueTime)) = some (.issued, s.dev.hms.issueNo, s.dev.now) ∧
      (cmdAt t.dev b.key).map (·.phase) = some b.phase ∧ t.dev.hms.issueNo = s.dev.hms.issueNo + 1 ∧
      t.dev.hms.order.getLast? = some a.berth

/-- HMS_PICK (R224, R357): while the scheduler is not released, is quiesced, or is held, nothing is picked. -/
def Rule.HmsHeld : Prop :=
  ∀ s : State, awake s.dev 5 = true → hmsMayPick s.dev = false → exec .hmsPick s = .next s

/-- PREEMPT_DECISION (R209, R210): with preemption on and a command that has waited AFTER_US, the victim of R209 stops: its
sequencers drop it, it is PREEMPTING and has a save slot, the one it still holds or a free one; with too few save slots it goes on and
the decision is counted as skipped. -/
def Rule.PreemptDecision : Prop :=
  ∀ (s : State) (k : CmdId) (c v : Cmd), awake s.dev 5 = true → cmdAt s.dev k = some c → flag s.dev fHmsPreemptEn = true →
    hmsMayPick s.dev = true → waitsLong s.dev c = true → pickVictim (victims s.dev c) = some v →
    coveredCmds s.dev v.berth = [v] →
    (v.saveSlot = none → s.dev.hms.save.length < 256 → (ctxAt s.dev (ctxIdx v.ctx)).save.length < 64 → cmdAt s.dev v.key = some v →
      tfind s.dev.hms.save 0 = none →
      ∃ t, exec (.preemptDecision k) s = .next t ∧
        (cmdAt t.dev v.key).map (fun c => (c.phase, c.saveSlot)) = some (.preempting, some 0) ∧
        tfind t.dev.hms.save 0 = some v.key ∧ (∀ q ∈ t.dev.seqs, v.key ∉ q.jobs)) ∧
    (∀ n, v.saveSlot = some n → s.dev.hms.save.length ≤ 256 → (ctxAt s.dev (ctxIdx v.ctx)).save.length ≤ 64 →
      cmdAt s.dev v.key = some v →
      ∃ t, exec (.preemptDecision k) s = .next t ∧
        (cmdAt t.dev v.key).map (fun c => (c.phase, c.saveSlot)) = some (.preempting, some n) ∧
        tfind t.dev.hms.save n = some v.key ∧ (∀ q ∈ t.dev.seqs, v.key ∉ q.jobs)) ∧
    (v.saveSlot = none → 256 ≤ s.dev.hms.save.length ∨ 64 ≤ (ctxAt s.dev (ctxIdx v.ctx)).save.length →
      exec (.preemptDecision k) s = .next ⟨modCmd (incSat s.dev fHmsPreSkipped) k fun c => { c with readySince := s.dev.now },
        s.pending⟩)

/-- PREEMPT_COMPLETE (R210): once no quay drains the berth and none of the command's tiles is outstanding, it waits as PREEMPTED;
the last of a berth counts the preemption as done. -/
def Rule.PreemptComplete : Prop :=
  ∀ (s : State) (c c' : Cmd), awake s.dev 5 = true → s.dev.cmds = [c] → c.phase = .preempting →
    c' = { c with phase := .preempted, readySince := s.dev.now, launched := false, listed := c.slices.flatMap (·.redo) } →
    (berthDrains s.dev c.berth .preempt = false → tilesOut s.dev c.key = 0 →
      exec (.preemptComplete c.key) s = 
        .next ⟨count (incSat { s.dev with cmds := [c'] } fHmsPreDone) 0 0 6, s.pending⟩) ∧
    (berthDrains s.dev c.berth .preempt = true ∨ tilesOut s.dev c.key ≠ 0 → exec (.preemptComplete c.key) s = .next s)

/-- RECLAIM (R213): a reserved quay that a ready level-0 command waits for drains the berth that has lent work on it. -/
def Rule.Reclaim : Prop :=
  ∀ (s : State) (q : BitVec 6) (b : Nat), awake s.dev 5 = true → q.toNat < 56 → hmsMayPick s.dev = true →
    (fbit s.dev fHmsRsvQuays q.toNat = true → wantedByZero s.dev q.toNat = true → lentBerths s.dev q.toNat = [b] →
      fld s.dev (fQptState q.toNat) = 1 → (quayAt s.dev q.toNat).drains = [] → s.dev.quays.length = 56 →
      ∃ t, exec (.reclaim q) s = .next t ∧ fld t.dev (fQptState q.toNat) = 2 ∧
        (quayAt t.dev q.toNat).drains = [(.berth (BitVec.ofNat 22 b), .reclaim)]) ∧
    (fbit s.dev fHmsRsvQuays q.toNat = false ∨ wantedByZero s.dev q.toNat = false → exec (.reclaim q) s = .next s)

/-- STALL_REPORT (R217): a berth with an incomplete command, and a quay with tiles outstanding, whose progress last moved, and that
counts since the last reset, STALL_MS ago and that is not yet reported, is reported once: kind, handle or quay, SEQ and the event; a second report does nothing. -/
def Rule.StallReport : Prop :=
  ∀ (s : State), awake s.dev 5 = true →
    (∀ (b : BitVec 22) (c : Cmd), flag s.dev fHmsBerthEn = true → s.dev.cmds = [c] → c.berth = b.toNat → c.phase ≠ .complete →
      max (tget {} s.dev.hms.stallB b.toNat).since s.dev.hms.stallFrom + fld s.dev fHmsStallMs * 1000000 ≤ s.dev.now →
      ((tget {} s.dev.hms.stallB b.toNat).reported = false →
        ∃ t, exec (.stallReport (.berth b)) s = .next t ∧ fld t.dev fHmsStallKind = stallKind s.dev c ∧
          fld t.dev fHmsStallHandle = berthHandle b.toNat (berthAt s.dev b.toNat).gen % 2 ^ 32 ∧
          fld t.dev fHmsStallSeq = (fld s.dev fHmsStallSeq + 1) % 2 ^ 20 ∧ fbit t.dev (fIrqRaw 4) 0 = true ∧
          (tget {} t.dev.hms.stallB b.toNat).reported = true) ∧
      ((tget {} s.dev.hms.stallB b.toNat).reported = true → exec (.stallReport (.berth b)) s = .next s)) ∧
    (∀ q : BitVec 6, q.toNat < 56 → flag s.dev fHmsQuayEn = true → (quayAt s.dev q.toNat).out ≠ [] →
      max (tget {} s.dev.hms.stallQ q.toNat).since s.dev.hms.stallFrom + fld s.dev fHmsStallMs * 1000000 ≤ s.dev.now →
      (tget {} s.dev.hms.stallQ q.toNat).reported = false →
        ∃ t, exec (.stallReport (.quay q)) s = .next t ∧ fld t.dev fHmsStallKind = 6 ∧ fld t.dev fHmsStallHandle = q.toNat ∧
          fld t.dev fHmsStallSeq = (fld s.dev fHmsStallSeq + 1) % 2 ^ 20 ∧ fbit t.dev (fIrqRaw 4) 1 = true ∧
          (tget {} t.dev.hms.stallQ q.toNat).reported = true)

/-- CURRENT_SAMPLE (R218 to R220): CURRENT takes the sample. With pacing off λ is 256 and STATE OFF. With pacing on and no thermal
limit, B gains and loses over the ticks since the last sample, STATE turns to SUSTAIN as B reaches 0 and back as it is half
full, and λ falls by STEP_DN above the limit, rises by STEP_UP below it by more than HYST, within its bounds; each compute quay
that is not reserved has the limits that λ gives. `b0` and `b1` are in 1/8000 of the unit of B. -/
def Rule.CurrentSample : Prop :=
  ∀ (s : State) (i : BitVec 16) (b0 b1 bm ticks st0 st1 lim l lo l1 : Nat), awake s.dev 5 = true → s.dev.quays.length = 56 →
    b0 = fld s.dev fHmsBudget * 8000 + s.dev.hms.frac → bm = (fld s.dev fHmsIPeak - fld s.dev fHmsISus) * 10000 * 8000 →
    ticks = tideW s.dev - s.dev.hms.lastSample → b1 = min bm (b0 + 8 * fld s.dev fHmsISus * ticks - 8 * i.toNat * ticks) →
    st0 = fld s.dev fHmsPaceState →
    st1 = (if st0 = 1 then (if bm ≤ 2 * b1 then 0 else 1) else if bm ≠ 0 ∧ b1 = 0 then 1 else 0) →
    lim = (if st1 = 1 then fld s.dev fHmsISus else fld s.dev fHmsIPeak) →
    l = fld s.dev fHmsLambda → lo = fld s.dev fHmsLambdaMin →
    l1 = (if lim < i.toNat ∨ fld s.dev fHmsIPeak < i.toNat then max lo (l - fld s.dev fHmsStepDn)
          else if i.toNat + 10 * fld s.dev fHmsHyst < lim then min 256 (max lo l + fld s.dev fHmsStepUp) else max lo l) →
    (flag s.dev fHmsPaceEn = false →
      ∃ t, exec (.currentSample i) s = .next t ∧ fld t.dev fHmsCurrent = i.toNat ∧ fld t.dev fHmsLambda = 256 ∧
        fld t.dev fHmsPaceState = 2) ∧
    (flag s.dev fHmsPaceEn = true → s.dev.hms.therm = 0 →
      ∃ t, exec (.currentSample i) s = .next t ∧ fld t.dev fHmsCurrent = i.toNat ∧
        fld t.dev fHmsBudget = b1 / 8000 ∧ t.dev.hms.frac = b1 % 8000 ∧ fld t.dev fHmsPaceState = st1 ∧
        fld t.dev fHmsLambda = l1 ∧ t.dev.hms.lastSample = tideW s.dev ∧
        (∀ q, q < 32 → fbit s.dev fHmsRsvQuays q = false → (quayAt t.dev q).limit =
          [max 1 ((l1 * 16 + 8 * q) / 256), max 1 ((l1 * 8 + 8 * q) / 256), max 1 ((l1 * 8 + 8 * q) / 256)]))

/-- TELEMETRY_LOST (R223): 4 µs after the last sample the loss is counted and reported as HMS event 3, and CURRENT takes I_PEAK;
before that nothing changes. -/
def Rule.TelemetryLost : Prop :=
  ∀ s : State, awake s.dev 5 = true →
    (s.dev.hms.lastSample + 4000 ≤ tideW s.dev →
      ∃ t, exec .telemetryLost s = .next t ∧ fld t.dev fHmsTelemLoss = min (fld s.dev fHmsTelemLoss + 1) (2 ^ 16 - 1) ∧
        fbit t.dev (fIrqRaw 4) 3 = true ∧ fld t.dev fHmsCurrent = fld s.dev fHmsIPeak) ∧
    (tideW s.dev < s.dev.hms.lastSample + 4000 → exec .telemetryLost s = .next s)

/-- THERMAL_CHANGE (R222): the level is held for the next sample. -/
def Rule.ThermalChange : Prop :=
  ∀ (s : State) (l : BitVec 2),
    exec (.thermalChange l) s = .next { s with dev := modHms s.dev fun h => { h with therm := l.toNat } }

/-- PACE_LIMIT_WRITE (R225): I_PEAK and I_SUS take the values written; one with I_SUS above I_PEAK is ignored whole; B is clamped
to the new B_max. -/
def Rule.PaceLimitWrite : Prop :=
  ∀ (s : State) (v : BitVec 64), awake s.dev 5 = true →
    (getBits v 31 16 < getBits v 15 0 → exec (.paceLimitWrite v) s = .next s) ∧
    (getBits v 15 0 ≤ getBits v 31 16 →
      ∃ t, exec (.paceLimitWrite v) s = .next t ∧ fld t.dev fHmsISus = getBits v 15 0 ∧ fld t.dev fHmsIPeak = getBits v 31 16 ∧
        fld t.dev fHmsBudget * 8000 + t.dev.hms.frac =
          min ((getBits v 31 16 - getBits v 15 0) * 10000 * 8000) (fld s.dev fHmsBudget * 8000 + s.dev.hms.frac))

/-- SPIN_WINDOW_END and WAITER_WAKE (R184): at the end of its window a spinning waiter gives its sequencer back; a waiter whose
waits are met and whose wake wire is up enters the ready list, its berth's turn last. -/
def Rule.SpinAndWake : Prop :=
  ∀ (s : State) (k : CmdId) (x : Cmd), awake s.dev 5 = true → cmdAt s.dev k = some x →
    (x.spin.isSome = true → x.spinEnd ≤ s.dev.now →
      exec (.spinWindowEnd k) s = .next { s with dev := modCmd s.dev k fun x => { x with spin := none } }) ∧
    (s.dev.now < x.spinEnd → exec (.spinWindowEnd k) s = .next s) ∧
    (x.phase = .waiting → x.skipped = false → x.waitsMet = true → x.woken = false →
      exec (.waiterWake k) s = .next ⟨modHms (modCmd s.dev k fun x => { x with woken := true, readySince := s.dev.now }) fun h =>
        { h with order := h.order.filter (· ≠ x.berth) ++ [x.berth] }, s.pending⟩)
/-! ### Launch commands and tiles (08) -/

/-- A command handed to sequencers and not yet expanded, with its berth's records on chip (R63). -/
def atIssueOf (d : Dev) (k : CmdId) (x : Cmd) : Prop :=
  hot d (berthRecs d x.berth) ∧ cmdAt d k = some x ∧ x.phase = .issued ∧ x.step = 0 ∧ x.status = none ∧ x.completeLsn = none

/-- LAUNCH_TILES (R133, R136, R138): the tile count is the piece count times the product of the trip counts, dealt in slices to the
granted sequencers; with no tile the command completes OK; with 2^48 and more it faults. -/
def Rule.LaunchTiles : Prop :=
  ∀ (s : State) (k : CmdId) (x : Cmd) (l : LaunchOp) (ts : List Nat), awake s.dev 8 = true → atIssueOf s.dev k x →
    x.spec.op = .launch l → faultsNamed s.dev x.level x.spec.op = none → x.unheld = none →
    tripsOf s.dev x l = some ts →
    (0 < pieceCount l.tileNs x.tcapUs * ts.foldl (· * ·) 1 → pieceCount l.tileNs x.tcapUs * ts.foldl (· * ·) 1 < 2 ^ 48 →
      ∃ t, exec (.launchTiles k) s = .next t ∧
        (cmdAt t.dev k).map (fun c => (c.phase, c.trips, c.pieces, c.tileCount, c.slices)) =
          some (.issued, ts, pieceCount l.tileNs x.tcapUs, pieceCount l.tileNs x.tcapUs * ts.foldl (· * ·) 1,
            mkSlices x.grant (pieceCount l.tileNs x.tcapUs * ts.foldl (· * ·) 1))) ∧
    (pieceCount l.tileNs x.tcapUs * ts.foldl (· * ·) 1 = 0 → x.spec.sigs = [] →
      ∃ t, exec (.launchTiles k) s = .next t ∧
        (cmdAt t.dev k).map (fun c => (c.phase, c.status, c.detail)) = some (.complete, some stOk, 0)) ∧
    (2 ^ 48 ≤ pieceCount l.tileNs x.tcapUs * ts.foldl (· * ·) 1 →
      ∃ t, exec (.launchTiles k) s = .next t ∧
        (cmdAt t.dev k).map (fun c => (c.status, c.fault.map (·.cause))) = some (some stFaulted, some 0x20))

/-- COPY, FILL, GATHER_ROWS (R143): the tiles are the chunks of LENGTH, or of each row, at the smallest CHUNK_LOG2 of the mask. -/
def Rule.DmaCommands : Prop :=
  ∀ (s : State) (k : CmdId) (x : Cmd), awake s.dev 8 = true → atIssueOf s.dev k x →
    (∀ src dst len dh sh : Nat, x.spec.op = .copy src dst len dh sh → 0 < len → len < 2 ^ 48 →
      ∃ t, exec (.copy k) s = .next t ∧ (cmdAt t.dev k).map (fun c => (c.tileCount, c.chunkLog2, c.step)) =
        some (ceilDiv len (2 ^ chunkLog2 s.dev x.mask), chunkLog2 s.dev x.mask, 1)) ∧
    (∀ a : List W64, x.spec.op = .call 1 a → 0 < argN a 1 → argN a 1 < 2 ^ 48 →
      ∃ t, exec (.fill k) s = .next t ∧ (cmdAt t.dev k).map (fun c => (c.tileCount, c.chunkLog2, c.step)) =
        some (ceilDiv (argN a 1) (2 ^ chunkLog2 s.dev x.mask), chunkLog2 s.dev x.mask, 1)) ∧
    (∀ a : List W64, x.spec.op = .call 6 a → 0 < argN a 3 → 0 < argN a 4 → argN a 3 * argN a 4 < 2 ^ 48 →
      ∃ t, exec (.gatherRows k) s = .next t ∧ (cmdAt t.dev k).map (fun c => (c.tileCount, c.chunkLog2, c.step)) =
        some (argN a 3 * ceilDiv (argN a 4) (2 ^ chunkLog2 s.dev x.mask), chunkLog2 s.dev x.mask, 1))

/-- R138: every tile number below the count lies in exactly one slice, and no slice goes beyond the count. -/
def Rule.SlicesPartition : Prop :=
  ∀ (g : List Nat) (t : Nat), g ≠ [] →
    (∀ sl ∈ mkSlices g t, sl.next < sl.stop ∧ sl.stop ≤ t ∧ sl.seq ∈ g) ∧
    ∀ n, n < t → ((mkSlices g t).filter fun sl => sl.next ≤ n && n < sl.stop).length = 1

/-- R133: tile numbers below the tile count name distinct points, each index below its trip count. -/
def Rule.PointsDistinct : Prop :=
  ∀ (p : Nat) (trips : List Nat), 0 < p → (∀ x ∈ trips, 0 < x) →
    (∀ n, n < p * trips.foldl (· * ·) 1 → (pointOf p trips n).1 < p ∧ (pointOf p trips n).2.length = trips.length ∧
      ∀ i, i < trips.length → (pointOf p trips n).2.getD i 0 < trips.getD i 0) ∧
    ∀ n m, n < p * trips.foldl (· * ·) 1 → m < p * trips.foldl (· * ·) 1 → pointOf p trips n = pointOf p trips m → n = m

/-- ALL_REDUCE, ALL_GATHER, REDUCE_SCATTER, BROADCAST (R293): the group table is read, whatever it holds; the first ring step needs no
take and forms one descriptor; once its tile is done the step's signal puts 1 to the next member's counter, here at this node; the next
step takes 1 from this member's own counter, or waits while it is 0. A table of 2 to 4,096 members that holds SELF is used as it stands
(what another one holds is a free value, log 73). -/
def Rule.Collectives : Prop :=
  ∀ (s : State) (k : CmdId) (x : Cmd) (g : GroupTable) (r : Nat) (a : List W64) (i : Instr), awake s.dev 8 = true →
    (i, r) ∈ [(Instr.allReduce k g, 2), (.allGather k g, 3), (.reduceScatter k g, 4), (.broadcast k g, 5)] →
    cmdAt s.dev k = some x → x.spec.op = .call r a → x.phase = .issued → x.status = none →
    (x.step = 0 → exec i s = .next { s with dev := modCmd s.dev k fun c => { c with group := some (groupOf g), step := 1 } }) ∧
    (2 ≤ g.members.length → g.members.length ≤ 4096 → g.self.toNat < g.members.length → groupOf g = g) ∧
    (∀ g', x.step = 1 → x.group = some g' →
      ∃ t, exec i s = .next t ∧ (cmdAt t.dev k).map (fun c => (c.step, c.slices)) = some (2, mkSlices (x.grant.take 1) 1) ∧
        t.dev.regs = s.dev.regs ∧ t.dev.blu = s.dev.blu) ∧
    (∀ g', x.step = 2 → x.group = some g' → tilesDone s.dev x = true →
      exec i s = .next { s with dev := modCmd s.dev k fun c => { c with step := c.step + 1 } }) ∧
    (∀ (g' : GroupTable) (h : Nat), x.step = 3 → x.group = some g' → 1 < ringSteps r g' → (nextMember g').node = 0 →
      h = (nextMember g').counter.toNat → hot s.dev (bolRecs s.dev h) → bolOk s.dev h = true →
      (bolAt s.dev (bolIdx h)).state = .live → capOk (bolAt s.dev (bolIdx h)) x.ctx (nextMember g').cap = true →
      (bolAt s.dev (bolIdx h)).kind = .counter → (bolAt s.dev (bolIdx h)).value.toNat < capacityOf (bolAt s.dev (bolIdx h)) →
      (bolAt s.dev (bolIdx h)).watchArm = false → s.dev.blu.waits = [] → x.applied.contains 257 = false →
      ∃ t, exec i s = .next t ∧ (bolAt t.dev (bolIdx h)).value = (bolAt s.dev (bolIdx h)).value + 1 ∧
        (cmdAt t.dev k).map (fun c => (c.step, c.slices)) = some (4, [])) ∧
    (∀ (g' : GroupTable) (h : Nat), x.step = 4 → x.group = some g' → h = (g'.members.getD g'.self.toNat Member0).counter.toNat →
      hot s.dev (bolRecs s.dev h) → bolOk s.dev h = true → (bolAt s.dev (bolIdx h)).state = .live →
      bolOwner (bolAt s.dev (bolIdx h)) = x.ctx → (bolAt s.dev (bolIdx h)).kind = .counter → s.dev.blu.waits = [] →
      x.applied.contains 258 = false →
      ((bolAt s.dev (bolIdx h)).value ≠ 0 → (bolAt s.dev (bolIdx h)).watchArm = false →
        ∃ t, exec i s = .next t ∧ (bolAt t.dev (bolIdx h)).value = (bolAt s.dev (bolIdx h)).value - 1 ∧
          (cmdAt t.dev k).map (fun c => (c.step, c.slices)) = some (5, mkSlices (x.grant.take 1) 1)) ∧
      ((bolAt s.dev (bolIdx h)).value = 0 →
        ∃ t, exec i s = .next t ∧ t.dev.cmds = s.dev.cmds ∧ t.dev.blu.slots = s.dev.blu.slots ∧ t.dev.regs = s.dev.regs))

/-- TILE_FORM (R134, R139, R147): the next tile of a RUNNING sequencer's slice is formed and its descriptor, for the quay of the
run, is written to the buffer; a check that fails faults the command with the tile's number. -/
def Rule.TileForm : Prop :=
  ∀ (s : State) (q : BitVec 4) (c : Cmd) (i : Nat) (sl : Slice) (n : Nat), awake s.dev 8 = true → s.dev.seqs.length = 16 →
    fld s.dev (fTsqState q.toNat) = 1 → formJob s.dev q.toNat = some (c, i) → c.slices[i]? = some sl → n = sliceTile sl →
    0 < sl.runLeft → cmdAt s.dev c.key = some c →
    (∀ ws ext a, formTile s.dev (seqAt s.dev q.toNat) c n = .ok ws ext a →
      descWords ((seqAt s.dev q.toNat).buf ++ [mkDesc s.dev c n a sl.runQuay q.toNat sl.runDepth ws ext]) ≤ 960 →
      ∃ t, exec (.tileForm q) s = .next t ∧
        (seqAt t.dev q.toNat).buf = (seqAt s.dev q.toNat).buf ++ [mkDesc s.dev c n a sl.runQuay q.toNat sl.runDepth ws ext] ∧
        (cmdAt t.dev c.key).map (fun c => c.slices[i]?) =
          some (some (sliceAfter sl sl.runQuay (sl.runLeft - 1) sl.runDepth))) ∧
    (∀ cause a slot, formTile s.dev (seqAt s.dev q.toNat) c n = .fault cause a slot → c.completeLsn = none → c.status = none →
      ∃ t, exec (.tileForm q) s = .next t ∧
        (cmdAt t.dev c.key).map (fun c => (c.status, c.fault.map fun f => (f.cause, f.addr, f.tile, f.argA))) =
          some (some stFaulted, some (cause, a, n, slot)))

/-- R108, R134, R141: a tile of a LAUNCH_TILES with one operand, no gather and no mooring has the operand's address
base + Σ i × stride + the piece's offset in word 5, with its direction and hint, if it lies below 2^57 on an element boundary;
otherwise the tile faults with cause 0x21. -/
def Rule.OperandAddress : Prop :=
  ∀ (d : Dev) (q : Seqr) (c : Cmd) (l : LaunchOp) (o : Opnd) (n a : Nat), l.opnds = [o] → l.idxOpnd = 15 →
    o.moorKey = 0 →
    a = wrap64 (Int.ofNat o.base + Int.ofNat ((pointOf c.pieces c.trips n).2.getD 0 0) * strideAt o 0 +
      strideSum o 1 ((pointOf c.pieces c.trips n).2.drop 1) +
      pieceOff (pointOf c.pieces c.trips n).1 c.pieces (strideAt o l.splitLevel) (elemBytes o)) →
    (a < 2 ^ 57 ∧ a % 2 ^ o.elem = 0 → ∃ ws, formLaunch d q c l n = .ok ws none l.kernelVa ∧
      ws.getD 5 0 = mkW [(63, bit01 o.dir), (61, o.hint), (0, a)] ∧ ws.getD 2 0 = BitVec.ofNat 64 l.kernelVa) ∧
    (¬ (a < 2 ^ 57 ∧ a % 2 ^ o.elem = 0) → formLaunch d q c l n = .fault 0x21 a 0)

/-- INDEX_LINE_RESPONSE (R135): a line asked for is held by its sequencer, as the youngest of at most 64; a line not asked for changes
nothing. -/
def Rule.IndexLine : Prop :=
  ∀ (s : State) (q : BitVec 4) (a : BitVec 57) (line : Line), awake s.dev 8 = true →
    ((seqAt s.dev q.toNat).asked.contains a.toNat = true → s.dev.seqs.length = 16 →
      ∃ t, exec (.indexLineResponse q a .ok line) s = .next t ∧ (seqAt t.dev q.toNat).asked.contains a.toNat = false ∧
        (seqAt t.dev q.toNat).lines.getLast? = some (a.toNat, line) ∧
        ((seqAt s.dev q.toNat).lines.length ≤ 64 → (seqAt t.dev q.toNat).lines.length ≤ 64)) ∧
    (∀ r, (seqAt s.dev q.toNat).asked.contains a.toNat = false → exec (.indexLineResponse q a r line) s = .next s)

/-! ### Quays (08) -/

/-- DESCRIPTOR_CROSSING (R139, R140): the head of the sequencer's buffer joins the queue of its quay, where 128 words fit; a quay
that has an offer out offers nothing further. -/
def Rule.DescriptorCrossing : Prop :=
  ∀ (s : State) (sq : BitVec 4) (x : Desc) (rest : List Desc) (c : Cmd), awake s.dev 8 = true → s.dev.seqs.length = 16 →
    s.dev.quays.length = 56 → (seqAt s.dev sq.toNat).buf = x :: rest → cmdAt s.dev x.cmd = some c → x.quay < 56 →
    fld s.dev (fQptState x.quay) = 1 → (quayAt s.dev x.quay).drains = [] → (quayAt s.dev x.quay).offered.isSome = true →
    (descWords ((quayAt s.dev x.quay).queue ++ [x]) ≤ 128 →
      ∃ t, exec (.descriptorCrossing sq) s = .next t ∧ (seqAt t.dev sq.toNat).buf = rest ∧
        quayAt t.dev x.quay = { quayAt s.dev x.quay with queue := (quayAt s.dev x.quay).queue ++ [x] }) ∧
    (128 < descWords ((quayAt s.dev x.quay).queue ++ [x]) → exec (.descriptorCrossing sq) s = .next s)

/-- DESCRIPTOR_LAUNCH (R31, R140): the descriptor offered is transferred to the engines with its station, its tile is outstanding, and
LAUNCHED counts it; a quay that is not ONLINE or DRAINING, or offers nothing, launches nothing. -/
def Rule.DescriptorLaunch : Prop :=
  ∀ (s : State) (q : BitVec 6) (x : Desc) (st : Nat), awake s.dev 9 = true → q.toNat < 56 → s.dev.quays.length = 56 →
    (quayAt s.dev q.toNat).offered = some (x, st) → (quayAt s.dev q.toNat).extNext = false →
    (quayAt s.dev q.toNat).queue = [] →
    (quayRuns s.dev q.toNat = true → x.ext = none →
      ∃ t, exec (.descriptorLaunch q) s = .next t ∧
        t.dev.launches = s.dev.launches ++ [{ quay := q.toNat, station := st, pid := x.pid, words := x.words, ext := false }] ∧
        (quayAt t.dev q.toNat).out = (quayAt s.dev q.toNat).out ++ [{ desc := x, station := st, launched := tideW s.dev }] ∧
        (quayAt t.dev q.toNat).offered = none ∧
        fld t.dev (fQptLaunched q.toNat) = (fld s.dev (fQptLaunched q.toNat) + 1) % 2 ^ 64 ∧
        (berthAt t.dev x.berth).progress = ((berthAt s.dev x.berth).progress + 1) % 2 ^ 64) ∧
    (quayRuns s.dev q.toNat = false → exec (.descriptorLaunch q) s = .next s)

/-- COMPLETION_PACKET (R145, R146): a packet whose station and tag match retires the station's oldest tile when it is its last, and
counts in TILES and STATION_TIME of the context; a wrong tag and a station without a tile are captured with CLASS 0x03 and
codes 0x01 and 0x02, and the quay is FAILED. -/
def Rule.CompletionPacket : Prop :=
  ∀ (s : State) (q : BitVec 6) (p : CplPacket) (t0 : OutTile), awake s.dev 9 = true → q.toNat < 56 → s.dev.quays.length = 56 →
    quayRuns s.dev q.toNat = true → (quayAt s.dev q.toNat).cpl = [] → (quayAt s.dev q.toNat).out = [t0] →
    (quayAt s.dev q.toNat).queue = [] → (quayAt s.dev q.toNat).offered = none → flag s.dev (fErrValid (0x40 + q.toNat)) = false →
    (t0.station = p.stn.toNat → t0.desc.tag = p.tag.toNat → p.fault = false →
      ∃ t, exec (.completionPacket q p) s = .next t ∧
        fld t.dev (fQptProgress q.toNat) = (fld s.dev (fQptProgress q.toNat) + 1) % 2 ^ 64 ∧
        (p.last = false → (quayAt t.dev q.toNat).out = [t0]) ∧
        (p.last = true → (quayAt t.dev q.toNat).out = [] ∧
          ((ctxAt s.dev (ctxIdx t0.desc.ctx)).gen = ctxGen t0.desc.ctx →
            (ctxAt t.dev (ctxIdx t0.desc.ctx)).tiles = ((ctxAt s.dev (ctxIdx t0.desc.ctx)).tiles + 1) % 2 ^ 64 ∧
            (ctxAt t.dev (ctxIdx t0.desc.ctx)).stationTime =
              ((ctxAt s.dev (ctxIdx t0.desc.ctx)).stationTime + (tideW s.dev - t0.launched)) % 2 ^ 64))) ∧
    (t0.station ≠ p.stn.toNat ∨ t0.desc.tag ≠ p.tag.toNat →
      ∃ t, exec (.completionPacket q p) s = .next t ∧ fld t.dev (fQptState q.toNat) = 3 ∧
        fld t.dev (fErrClass (0x40 + q.toNat)) = 3 ∧
        fld t.dev (fErrCode (0x40 + q.toNat)) = (if t0.station ≠ p.stn.toNat then 2 else 1) ∧
        (quayAt t.dev q.toNat).out = [] ∧ fbit t.dev (fIrqRaw (0x40 + q.toNat)) 0 = true)

/-- COMMAND_TILES_DONE (R147, R176): once every slice has ended and no tile, descriptor or faulted packet of the command is left, a
command without signals completes OK; until then it goes on. -/
def Rule.CommandTilesDone : Prop :=
  ∀ (s : State) (k : CmdId) (x : Cmd), awake s.dev 6 = true → cmdAt s.dev k = some x → x.phase = .issued → x.status = none →
    x.completeLsn = none → x.spec.op.sequenced = true → x.spec.op.collective = false →
    (tilesDone s.dev x = true → x.spec.sigs = [] →
      ∃ t, exec (.commandTilesDone k) s = .next t ∧
        (cmdAt t.dev k).map (fun c => (c.phase, c.status, c.detail)) = some (.complete, some stOk, 0) ∧
        (ctxAt t.dev (ctxIdx x.ctx)).cmdsOk = ((ctxAt s.dev (ctxIdx x.ctx)).cmdsOk + 1) % 2 ^ 64) ∧
    (tilesDone s.dev x = false → exec (.commandTilesDone k) s = .next s)

/-- COMMAND_FAULT (R147, R296, R299): the first faulted packet of a command fixes FAULTED with the next fault sequence number in
DETAIL, opens a record of cause 0x10, or 0x11 for a poison report, halts the berth and puts the context into DYING. -/
def Rule.CommandFault : Prop :=
  ∀ (s : State) (k : CmdId) (c : Cmd) (q : Nat) (x : Desc) (p : CplPacket) (rest : List (Nat × Desc × CplPacket)),
    awake s.dev 6 = true → cmdAt s.dev k = some c → c.status = none → c.completeLsn = none →
    heldFaults s.dev k = (q, x, p) :: rest → tfind s.dev.scu.slots c.berth = none →
    (ctxAt s.dev (ctxIdx c.ctx)).state = .live → (berthAt s.dev c.berth).state = .live →
    ∃ t, exec (.commandFault k) s = .next t ∧
      (cmdAt t.dev k).map (fun c => (c.status, c.detail, c.fault.map fun f => (f.cause, f.tile))) =
        some (some stFaulted, s.dev.scu.faultSeq % 2 ^ 16, some (if getBits p.info 63 57 = 1 then 0x11 else 0x10, x.tile)) ∧
      t.dev.scu.faultSeq = (s.dev.scu.faultSeq + 1) % 2 ^ 32 ∧
      (t.dev.scu.open_.getLast?).map (fun r => (r.seq, r.context)) = some (s.dev.scu.faultSeq, c.ctx) ∧
      (ctxAt t.dev (ctxIdx c.ctx)).state = .dying ∧ (berthAt t.dev c.berth).state = .halted

/-- DRAIN_REQUEST (R149): a quay that runs drains the scope of a DYING context: STATE is DRAINING, the scope's queued descriptors
leave the queue, the timer starts with the first request, with the limit of QPT_DRAIN_TMO then; one that is FAILED, STOPPED or ABSENT is
done at once. -/
def Rule.DrainRequest : Prop :=
  ∀ (s : State) (q : BitVec 6) (h : W32), awake s.dev 9 = true → q.toNat < 56 → s.dev.quays.length = 56 →
    ctxOk s.dev h.toNat = true → (ctxAt s.dev (ctxIdx h.toNat)).state = .dying → (quayAt s.dev q.toNat).drains = [] →
    (quayRuns s.dev q.toNat = true →
      ∃ t, exec (.drainRequest q (.ctx h)) s = .next t ∧ fld t.dev (fQptState q.toNat) = 2 ∧
        quayAt t.dev q.toNat = { quayAt s.dev q.toNat with
          queue := ((quayAt s.dev q.toNat).queue.filter fun x => !inScope (.ctx h) x), drains := [(.ctx h, .teardown)],
          drainStart := s.dev.now, drainTmo := fld s.dev (fQptTmoUs q.toNat) } ∧
        (∀ p off, regKey p off ≠ regKey (0x40 + q.toNat) 0x080 → reg t.dev p off = reg s.dev p off)) ∧
    (quayRuns s.dev q.toNat = false → exec (.drainRequest q (.ctx h)) s = .next s)

/-- DRAIN_DONE and DRAIN_TIMEOUT (R148, R149): a DRAINING quay with no tile of any scope outstanding returns to ONLINE; one that has
drained for DRAIN_TMO is FAILED, captured with CLASS 0x03 and code 0x03, its event 0 raised. -/
def Rule.DrainEnd : Prop :=
  ∀ (s : State) (q : BitVec 6), awake s.dev 9 = true → q.toNat < 56 → s.dev.quays.length = 56 →
    fld s.dev (fQptState q.toNat) = 2 → (quayAt s.dev q.toNat).queue = [] →
    ((quayAt s.dev q.toNat).out = [] → (quayAt s.dev q.toNat).offered = none →
      ∃ t, exec (.drainDone q) s = .next t ∧ fld t.dev (fQptState q.toNat) = 1 ∧ (quayAt t.dev q.toNat).drains = []) ∧
    ((quayAt s.dev q.toNat).drains ≠ [] → flag s.dev (fErrValid (0x40 + q.toNat)) = false →
      (quayAt s.dev q.toNat).drainStart + (quayAt s.dev q.toNat).drainTmo * 1000 ≤ s.dev.now →
      ∃ t, exec (.drainTimeout q) s = .next t ∧ fld t.dev (fQptState q.toNat) = 3 ∧
        fld t.dev (fErrClass (0x40 + q.toNat)) = 3 ∧ fld t.dev (fErrCode (0x40 + q.toNat)) = 3 ∧
        (quayAt t.dev q.toNat).out = [] ∧ fbit t.dev (fIrqRaw (0x40 + q.toNat)) 0 = true) ∧
    (s.dev.now < (quayAt s.dev q.toNat).drainStart + (quayAt s.dev q.toNat).drainTmo * 1000 →
      exec (.drainTimeout q) s = .next s)

/-- QUAY_CLOCK_STOPPED, QUAY_CLOCK_RETURN, REVIVE (R26, R148, R151): a quay whose clock stops is STOPPED, with event 1 and code 0x04
of CLASS 0x03, and holds no tile; with the clock back it is FAILED, with event 0; REVIVE puts a FAILED quay ONLINE and does
nothing in any other state. -/
def Rule.QuayStates : Prop :=
  ∀ (s : State) (q : BitVec 6), awake s.dev 9 = true → awake s.dev 13 = true → q.toNat < 56 → s.dev.quays.length = 56 →
    (fld s.dev (fQptState q.toNat) = 1 → flag s.dev (fErrValid (0x40 + q.toNat)) = false →
      ∃ t, exec (.quayClockStopped q) s = .next t ∧ fld t.dev (fQptState q.toNat) = 4 ∧
        fld t.dev (fErrClass (0x40 + q.toNat)) = 3 ∧ fld t.dev (fErrCode (0x40 + q.toNat)) = 4 ∧
        (quayAt t.dev q.toNat).out = [] ∧ fbit t.dev (fIrqRaw (0x40 + q.toNat)) 1 = true) ∧
    (fld s.dev (fQptState q.toNat) = 4 →
      exec (.quayClockReturn q) s = .next ⟨raiseEvent (setFld (modQuay s.dev q.toNat fun u => { u with clock := true })
        (fQptState q.toNat) 3) (0x40 + q.toNat) 0, s.pending⟩) ∧
    (fld s.dev (fQptState q.toNat) = 3 → exec (.revive q) s = .next { s with dev := setFld s.dev (fQptState q.toNat) 1 }) ∧
    (fld s.dev (fQptState q.toNat) ≠ 3 → exec (.revive q) s = .next s)
/-! ### Waits, signals and host commands at bollards (10) -/

/-- A command whose next wait is looked at: its berth's records on chip (R63), its context LIVE, its turn come, the wait a local one on
records that are on chip, and no other wait registered on the bollard (R172). `e` is the wait entry. -/
def waitTurn (d : Dev) (k : CmdId) (c : Cmd) (e : SyncEnt) : Prop :=
  cmdAt d k = some c ∧ hot d (berthRecs d c.berth) ∧ fld d fLoadState = 3 ∧ ctxLive d c.ctx = true ∧ c.phase = .waiting ∧
    c.skipped = false ∧ c.regd = false ∧ orderOk d c = true ∧ c.met < c.spec.waits.length ∧ e = c.spec.waits.getD c.met noEnt ∧ c.completeLsn = none ∧ c.status = none ∧
    e.node = 0 ∧ hot d (bolRecs d e.handle) ∧ (∀ w ∈ d.blu.waits, w.bol ≠ bolIdx e.handle) ∧ c.spin = none ∧
    c.applied.contains c.met = false

/-- The wait entry that a command registers. -/
def waitEntOf (c : Cmd) (e : SyncEnt) : WaitEnt :=
  { bol := bolIdx e.handle, who := .here c.key c.met, code := e.code, value := e.value, cont := e.cont }

/-- The five rows of wait conditions with their codes (R105). -/
def waitRows (k : CmdId) : List (Instr × Nat) :=
  [(.fenceGe k, 1), (.counterTake k, 2), (.barrierPass k, 3), (.flagIsSet k, 4), (.flagIsClear k, 5)]

/-- FENCE_GE, COUNTER_TAKE, BARRIER_PASS, FLAG_IS_SET, FLAG_IS_CLEAR (R57, R104, R105, R172): a row whose condition is not that of the
command's next wait changes nothing; a handle that does not name the slot's owner and a wrong capability end the command STALE,
an ABANDONED bollard ends it ABANDONED, with the entry in DETAIL; a kind that does not match faults with cause 0x45. -/
def Rule.WaitChecks : Prop :=
  ∀ (s : State) (k : CmdId) (c : Cmd) (e : SyncEnt) (i : Instr) (n : Nat) (r : BolRec), awake s.dev 6 = true →
    waitTurn s.dev k c e → (i, n) ∈ waitRows k → r = bolAt s.dev (bolIdx e.handle) →
    (e.code ≠ n → exec i s = .next s) ∧
    (e.code = n → bolOk s.dev e.handle = false →
      ∃ t, exec i s = .next t ∧ (cmdAt t.dev k).map (fun x => (x.phase, x.status, x.detail)) =
        some (.complete, some stStale, c.met)) ∧
    (e.code = n → bolOk s.dev e.handle = true → r.state = .abandoned → e.cont = false →
      ∃ t, exec i s = .next t ∧ (cmdAt t.dev k).map (fun x => (x.phase, x.status, x.detail)) =
        some (.complete, some stAbandoned, c.met)) ∧
    (e.code = n → bolOk s.dev e.handle = true → r.state = .live → capOk r c.ctx e.cap = false →
      ∃ t, exec i s = .next t ∧ (cmdAt t.dev k).map (fun x => (x.phase, x.status, x.detail)) =
        some (.complete, some stStale, c.met)) ∧
    (e.code = n → bolOk s.dev e.handle = true → r.state = .live → capOk r c.ctx e.cap = true → kindOfCode n ≠ some r.kind →
      ∃ t, exec i s = .next t ∧ (cmdAt t.dev k).map (fun x => (x.status, x.fault.map fun f => (f.cause, f.argA, f.argB))) =
        some (some stFaulted, some (0x45, c.met, e.handle)))

/-- FENCE_GE, FLAG_IS_SET, FLAG_IS_CLEAR (R172, R173): a condition that holds is met at once, the bollard as it was; one that does not is
registered, last among the waits. A watch that its bollard already meets would have fired (R186): none stands armed. -/
def Rule.WaitLevel : Prop :=
  ∀ (s : State) (k : CmdId) (c : Cmd) (e : SyncEnt) (i : Instr) (n : Nat) (r : BolRec), awake s.dev 6 = true →
    waitTurn s.dev k c e → (i, n) ∈ waitRows k → e.code = n → r = bolAt s.dev (bolIdx e.handle) → bolOk s.dev e.handle = true →
    r.state = .live → capOk r c.ctx e.cap = true → kindOfCode n = some r.kind → r.kind = .fence ∨ r.kind = .flag →
    (r.watchArm && watchHolds r) = false →
    (condHolds r n e.value = true →
      ∃ t, exec i s = .next t ∧ (cmdAt t.dev k).map (fun x => (x.met, x.regd)) = some (c.met + 1, false) ∧
        t.dev.blu.waits = s.dev.blu.waits ∧ t.dev.blu.slots = s.dev.blu.slots) ∧
    (condHolds r n e.value = false →
      ∃ t, exec i s = .next t ∧ (cmdAt t.dev k).map (fun x => (x.met, x.regd)) = some (c.met, true) ∧
        t.dev.blu.waits = s.dev.blu.waits ++ [waitEntOf c e] ∧ t.dev.blu.slots = s.dev.blu.slots)

/-- COUNTER_TAKE (R173, R174): a take of more than the capacity faults with cause 0x42; a take that VALUE covers leaves VALUE less by
it and is met; any other is registered and takes nothing. A watch that its bollard already meets would have fired (R186). -/
def Rule.CounterTake : Prop :=
  ∀ (s : State) (k : CmdId) (c : Cmd) (e : SyncEnt) (r : BolRec), awake s.dev 6 = true → waitTurn s.dev k c e → e.code = 2 →
    r = bolAt s.dev (bolIdx e.handle) → bolOk s.dev e.handle = true → r.state = .live → capOk r c.ctx e.cap = true →
    r.kind = .counter → (r.watchArm && watchHolds r) = false →
    (capacityOf r < e.value.toNat →
      ∃ t, exec (.counterTake k) s = .next t ∧ (cmdAt t.dev k).map (fun x => (x.status, x.fault.map fun f => (f.cause, f.argA, f.argB))) =
        some (some stFaulted, some (0x42, c.met, e.handle))) ∧
    (e.value.toNat ≤ capacityOf r → e.value.toNat ≤ r.value.toNat →
      ∃ t, exec (.counterTake k) s = .next t ∧ (bolAt t.dev (bolIdx e.handle)).value = r.value - e.value ∧
        (cmdAt t.dev k).map (fun x => (x.met, x.regd, x.applied)) = some (c.met + 1, false, c.applied ++ [c.met]) ∧
        t.dev.blu.waits = s.dev.blu.waits) ∧
    (e.value.toNat ≤ capacityOf r → r.value.toNat < e.value.toNat →
      ∃ t, exec (.counterTake k) s = .next t ∧ t.dev.blu.slots = s.dev.blu.slots ∧
        (cmdAt t.dev k).map (fun x => (x.met, x.regd)) = some (c.met, true) ∧
        t.dev.blu.waits = s.dev.blu.waits ++ [waitEntOf c e])

/-- BARRIER_PASS (R173, R182): the wait arrives for its generation; it is met at once where its arrival was the last, and registered
otherwise. -/
def Rule.BarrierPass : Prop :=
  ∀ (s : State) (k : CmdId) (c : Cmd) (e : SyncEnt) (r : BolRec) (v : W64), awake s.dev 6 = true → waitTurn s.dev k c e →
    e.code = 3 → r = bolAt s.dev (bolIdx e.handle) → bolOk s.dev e.handle = true → r.state = .live →
    capOk r c.ctx e.cap = true → r.kind = .barrier → arriveOp (participantsOf r) r.value (e.value.toNat % 2 ^ 32) = .ok v →
    ∃ t, exec (.barrierPass k) s = .next t ∧ (bolAt t.dev (bolIdx e.handle)).value = v ∧
      (condHolds { r with value := v } 3 e.value = true →
        (cmdAt t.dev k).map (fun x => (x.met, x.regd)) = some (c.met + 1, false) ∧ t.dev.blu.waits = s.dev.blu.waits) ∧
      (condHolds { r with value := v } 3 e.value = false →
        (cmdAt t.dev k).map (fun x => (x.met, x.regd)) = some (c.met, true) ∧
          t.dev.blu.waits = s.dev.blu.waits ++ [waitEntOf c e])

/-- The wait rows on a bollard of another node (R175, R286): against a free share and a place in the partner's queue, the registration
leaves as a WAIT_REG; without a share the wait stays where it is; a node that cannot be reached ends the command UNREACHABLE. -/
def Rule.RemoteWait : Prop :=
  ∀ (s : State) (k : CmdId) (c : Cmd) (e : SyncEnt) (i : Instr) (n : Nat), awake s.dev 6 = true → cmdAt s.dev k = some c →
    hot s.dev (berthRecs s.dev c.berth) → fld s.dev fLoadState = 3 → ctxLive s.dev c.ctx = true → c.phase = .waiting →
    c.skipped = false → c.regd = false → orderOk s.dev c = true → c.met < c.spec.waits.length →
    e = c.spec.waits.getD c.met noEnt → e.node ≠ 0 → e.code = n → (i, n) ∈ waitRows k → c.completeLsn = none → c.status = none →
    (reachable s.dev e.node = false →
      ∃ t, exec i s = .next t ∧ (cmdAt t.dev k).map (fun x => (x.phase, x.status, x.detail)) =
        some (.complete, some stUnreachable, c.met)) ∧
    (reachable s.dev e.node = true → fld s.dev fFsaShare ≤ (partnerAt s.dev e.node).shares → exec i s = .next s) ∧
    (reachable s.dev e.node = true → (partnerAt s.dev e.node).shares < fld s.dev fFsaShare → queueRoom s.dev e.node = true →
      ∃ t, exec i s = .next t ∧ (cmdAt t.dev k).map (fun x => (x.met, x.regd)) = some (c.met, true) ∧
        t.dev.blu.away = s.dev.blu.away ++ [(e.node, k, c.met)] ∧
        (partnerAt t.dev e.node).shares = (partnerAt s.dev e.node).shares + 1 ∧
        ((partnerAt t.dev e.node).queue.map (·.body)).contains (.waitReg (BitVec.ofNat 32 e.handle) e.value e.cap
          (BitVec.ofNat 4 e.code) (BitVec.ofNat 32 (berthHandle c.berth (berthAt s.dev c.berth).gen)) (BitVec.ofNat 3 c.met)
          e.cont) = true)

/-- The five rows of signals with their codes (R105). -/
def signalRows (k : CmdId) (j : BitVec 1) : List (Instr × Nat) :=
  [(.fenceSet k j, 1), (.counterPut k j, 2), (.barrierArrive k j, 3), (.flagSet k j, 4), (.flagClear k j, 5)]

/-- FENCE_SET, COUNTER_PUT, BARRIER_ARRIVE, FLAG_SET, FLAG_CLEAR (R176, R178, R179): the next signal of a command that ran to OK, at a
bollard of this node on which nothing waits. One that is admitted gives VALUE what its operation makes of it; after the last the
command completes OK. A refused last signal of a status other than OK and FAULTED gives the command that status, with the entry
in DETAIL, and leaves VALUE; a row of another operation changes nothing. -/
def Rule.SignalApplied : Prop :=
  ∀ (s : State) (k : CmdId) (c : Cmd) (e : SyncEnt) (i : Instr) (j : BitVec 1) (n : Nat), awake s.dev 6 = true →
    cmdAt s.dev k = some c → hot s.dev (berthRecs s.dev c.berth) → c.phase = .closing → c.status = none → c.completeLsn = none → c.sigNext = j.toNat →
    j.toNat < c.spec.sigs.length → e = c.spec.sigs.getD j.toNat noEnt → e.node = 0 → hot s.dev (bolRecs s.dev e.handle) →
    c.applied.contains (4 + j.toNat) = false → c.skipped = false → c.branched = false → (i, n) ∈ signalRows k j →
    (∀ w ∈ s.dev.blu.waits, w.bol ≠ bolIdx e.handle) → (∀ x ∈ c.sigRes, x.2.1 = stOk) →
    (e.code ≠ n → exec i s = .next s) ∧
    (∀ v, e.code = n → localTest s.dev c.ctx e = .ok v →
      ∃ t, exec i s = .next t ∧ (bolAt t.dev (bolIdx e.handle)).value = v ∧
        (cmdAt t.dev k).map (fun x => (x.phase, x.status)) =
          some (if c.spec.sigs.length ≤ j.toNat + 1 then (Phase.complete, some stOk) else (.closing, none))) ∧
    (∀ row st, e.code = n → localTest s.dev c.ctx e = .no row →
      refusalStatus row (ctxAt s.dev (ctxIdx c.ctx)).strictFence = (st, 0) → st ≠ stOk → st ≠ stFaulted →
      c.spec.sigs.length ≤ j.toNat + 1 →
      ∃ t, exec i s = .next t ∧ (bolAt t.dev (bolIdx e.handle)).value = (bolAt s.dev (bolIdx e.handle)).value ∧
        (cmdAt t.dev k).map (fun x => (x.phase, x.status, x.detail)) = some (.complete, some st, 4 + j.toNat))

/-- R179, R180, R182: the operations on VALUE. A fence goes forward by less than 2^63 or stays; a counter takes a put up to its
capacity; a flag is 1 after FLAG_SET and 0 after FLAG_CLEAR. -/
def Rule.SignalOperations : Prop :=
  ∀ (r : BolRec) (v : W64),
    (r.kind = .fence → sigOp r 1 v = if (v - r.value).toNat < 2 ^ 63 then .ok v else .no .backward) ∧
    (r.kind = .counter → (r.value.toNat + v.toNat ≤ capacityOf r →
        ∃ u, sigOp r 2 v = .ok u ∧ u.toNat = r.value.toNat + v.toNat ∧ u.toNat ≤ capacityOf r) ∧
      (capacityOf r < r.value.toNat + v.toNat → sigOp r 2 v = .no .counterOver)) ∧
    (r.kind = .flag → sigOp r 4 v = .ok 1 ∧ sigOp r 5 v = .ok 0) ∧
    (r.kind = .barrier → sigOp r 3 v = arriveOp (participantsOf r) r.value (v.toNat % 2 ^ 32)) ∧
    (∀ n, kindOfCode n ≠ some r.kind → sigOp r n v = .no .kind)

/-- `n` arrivals for generation `g`, one after the other. -/
def arriveMany (parts g : Nat) : Nat → W64 → Option W64
  | 0, b => some b
  | n + 1, b => match arriveOp parts b g with
    | .ok c => arriveMany parts g n c
    | .no _ => none

/-- R182: at a barrier of `n` participants that has `x` arrivals for the next generation, `n` arrivals for the present generation
move BGEN on by one, and those `x` become the arrivals of the new generation. One arrival fewer leaves BGEN. -/
def Rule.BarrierTurns : Prop :=
  ∀ (n g x : Nat), 0 < n → n < 2 ^ 16 → x < n → g < 2 ^ 32 →
    arriveMany n g n (mkBarrier g 0 x) = some (mkBarrier (g + 1) x 0) ∧
    arriveMany n g (n - 1) (mkBarrier g 0 x) = some (mkBarrier g (n - 1) x)

/-- The rows of the host commands with their operations (R185, R188). -/
def hcmdRows : List (Instr × Nat) :=
  [(.hcmdFenceSet, 1), (.hcmdCounterPut, 2), (.hcmdBarrierArrive, 3), (.hcmdFlagSet, 4), (.hcmdFlagClear, 5), (.force, 8),
   (.forceBarrier, 9)]

/-- How a host command ends (R185, R189). -/
def hcmdEnded (d e : Dev) (res : Nat) : Prop :=
  fld e fBluHcmdResult = res ∧ fld e fBluHcmdSeq = (fld d fBluHcmdSeq + 1) % 2 ^ 32 ∧ flag e fBluHcmdBusy = false ∧
    fbit e (fIrqRaw 5) 1 = true

/-- HCMD_FENCE_SET, HCMD_COUNTER_PUT, HCMD_BARRIER_ARRIVE, HCMD_FLAG_SET, HCMD_FLAG_CLEAR, FORCE, FORCE_BARRIER (R185, R188, R348): one
written while BUSY is lost. On a slot that is on chip: STALE where the handle does not name its owner or it is ABANDONED; a
signal needs HOST_SIG, and an override needs the action FORCE admitted and an owner that is not Sealed, or is REFUSED; a signal
that is applied and an override leave VALUE as their operation gives it and end DONE. -/
def Rule.HostCommands : Prop :=
  ∀ (s : State) (i : Instr) (op h : Nat) (v : W64) (r : BolRec), awake s.dev 6 = true → (i, op) ∈ hcmdRows →
    h = fld s.dev fBluHcmdSel → v = reg s.dev 5 0x090 → r = bolAt s.dev (bolIdx h) →
    (flag s.dev fBluHcmdBusy = true → exec i s = .next { s with dev := setFld s.dev fBluHcmdLost 1 }) ∧
    (flag s.dev fBluHcmdBusy = false → flag s.dev (fQuiesced 5) = false → hot s.dev (bolRecs s.dev h) →
      (bolOk s.dev h = false ∨ r.state = .abandoned →
        ∃ t, exec i s = .next t ∧ hcmdEnded s.dev t.dev 1 ∧ t.dev.blu.slots = s.dev.blu.slots) ∧
      (bolOk s.dev h = true → r.state = .live →
        (op ≤ 5 → r.hostSig = false →
          ∃ t, exec i s = .next t ∧ hcmdEnded s.dev t.dev 3 ∧ t.dev.blu.slots = s.dev.blu.slots) ∧
        (∀ w, op ≤ 5 → r.hostSig = true → hcmdReserved op v = false → sigOp r op v = .ok w →
          (∀ x ∈ s.dev.blu.waits, x.bol ≠ bolIdx h) →
          ∃ t, exec i s = .next t ∧ hcmdEnded s.dev t.dev 0 ∧ (bolAt t.dev (bolIdx h)).value = w) ∧
        (8 ≤ op → admits s.dev 2 1 = false ∨ (ctxAt s.dev r.ctxIdx).secrecy = .sealed →
          ∃ t, exec i s = .next t ∧ hcmdEnded s.dev t.dev 3 ∧ t.dev.blu.slots = s.dev.blu.slots ∧
            fld t.dev fSecRefused = min (fld s.dev fSecRefused + 1) (2 ^ 32 - 1)) ∧
        (∀ w, 8 ≤ op → admits s.dev 2 1 = true → (ctxAt s.dev r.ctxIdx).secrecy ≠ .sealed → forceValue r op v = .ok w →
          (∀ x ∈ s.dev.blu.waits, x.bol ≠ bolIdx h) →
          ∃ t, exec i s = .next t ∧ hcmdEnded s.dev t.dev 0 ∧ (bolAt t.dev (bolIdx h)).value = w ∧
            fld t.dev fBluOvrCnt = (fld s.dev fBluOvrCnt + 1) % 2 ^ 32)))

/-- WATCH_WRITE_FAIL (R186, R306): a watch write that has left and fails is lost and counted, and the error captured; without one, or
with an answer that is no error, nothing changes. -/
def Rule.WatchWriteFail : Prop :=
  ∀ (s : State) (b : BitVec 24) (r : MemResp), awake s.dev 6 = true →
    (∀ w, s.dev.blu.watches = [w] → w.sent = true → bolIdx w.handle = b.toNat → r = .translation ∨ r = .access →
      exec (.watchWriteFail b r) s =
        .next ⟨incSat (memErr (modBlu s.dev fun x => { x with watches := [] }) 5 r w.va) fBluWatchLost, s.pending⟩) ∧
    (r = .ok ∨ r = .poison → exec (.watchWriteFail b r) s = .next s) ∧
    (s.dev.blu.watches = [] → exec (.watchWriteFail b r) s = .next s)
/-! ### Teardown, slots and records on chip (04) -/

/-- TEARDOWN_STOP (R66, R67): while a tile of the context is launched or offered nothing changes; with none, the teardown is stopped
and a command that has not completed, is not FAULTED and applies no signals receives ABORTED with DETAIL 1. -/
def Rule.TeardownStop : Prop :=
  ∀ (s : State) (i : BitVec 20) (td : Teardown), awake s.dev 2 = true → tfind s.dev.btc.teardowns i.toNat = some td →
    (scopeOut s.dev (.ctx (BitVec.ofNat 32 td.handle)) ≠ 0 → exec (.teardownStop i) s = .next s) ∧
    (∀ c, scopeOut s.dev (.ctx (BitVec.ofNat 32 td.handle)) = 0 → ctxCmds s.dev td.handle = [c] → cmdAt s.dev c.key = some c →
      c.completeLsn = none → c.status = none → c.phase ≠ .closing →
      ∃ t, exec (.teardownStop i) s = .next t ∧
        (cmdAt t.dev c.key).map (fun x => (x.phase, x.status, x.detail)) = some (.complete, some stAborted, 1) ∧
        (tfind t.dev.btc.teardowns i.toNat).map (·.stopped) = some true)

/-- TEARDOWN_DONE (R56, R67): once the context's last record is written, its slot is FREE with the next generation, or RETIRED after
its last; its commands are gone; the handle is shown, TD_SEQ counts, and BTC event 0 is raised. Before, nothing changes. -/
def Rule.TeardownDone : Prop :=
  ∀ (s : State) (i : BitVec 20) (td : Teardown) (g : Nat), awake s.dev 2 = true →
    tfind s.dev.btc.teardowns i.toNat = some td → td.handle < 2 ^ 32 → g = (ctxAt s.dev i.toNat).gen →
    (td.stopped = true → recordsDone s.dev td.handle = true →
      ∃ t, exec (.teardownDone i) s = .next t ∧
        ctxAt t.dev i.toNat =
          (if 0xFFF ≤ g then { state := .retired, gen := g, retireTime := tideW s.dev } else { gen := g + 1 }) ∧
        (∀ c ∈ t.dev.cmds, c.ctx ≠ td.handle) ∧ tfind t.dev.btc.teardowns i.toNat = none ∧
        fld t.dev fBtcTdHandle = td.handle ∧ fld t.dev fBtcTdSeq = (fld s.dev fBtcTdSeq + 1) % 2 ^ 32 ∧
        fbit t.dev (fIrqRaw 2) 0 = true) ∧
    (td.stopped = false ∨ recordsDone s.dev td.handle = false → exec (.teardownDone i) s = .next s)

/-- ABANDON_HOLD_END (R56, R71): before its time the hold goes on; at its end the slot is FREE with the next generation, or RETIRED
after its last, and the count of its owner, where that still lives, falls. -/
def Rule.AbandonHoldEnd : Prop :=
  ∀ (s : State) (i : BitVec 24) (u : Nat) (r : BolRec), awake s.dev 2 = true → tfind s.dev.btc.holds i.toNat = some u →
    r = bolAt s.dev i.toNat → r.state = .abandoned →
    (s.dev.now < u → exec (.abandonHoldEnd i) s = .next s) ∧
    (u ≤ s.dev.now →
      ∃ t, exec (.abandonHoldEnd i) s = .next t ∧
        bolAt t.dev i.toNat =
          (if 0xFF ≤ r.gen then { state := .retired, gen := r.gen, retireTime := tideW s.dev } else { gen := r.gen + 1 }) ∧
        tfind t.dev.btc.holds i.toNat = none ∧
        ((ctxAt s.dev r.ctxIdx).gen = r.ctxGen → (ctxAt s.dev r.ctxIdx).lives = true →
          (ctxAt t.dev r.ctxIdx).bollardCount = (ctxAt s.dev r.ctxIdx).bollardCount - 1))

/-- BERTH_DRAINED (R56, R59, R381): a DRAINING berth whose DONE_IDX has reached ACC_IDX, with no fetch open and no manifest held,
returns to FREE with the next generation, or to RETIRED after its last; any other stays. -/
def Rule.BerthDrained : Prop :=
  ∀ (s : State) (i : BitVec 22) (r : BerthRec), awake s.dev 2 = true → r = berthAt s.dev i.toNat →
    (r.state = .draining → r.done = r.acc → r.fopen = false → (∀ m ∈ s.dev.mfu.mans, m.berthIdx ≠ i.toNat) →
      ∃ t, exec (.berthDrained i) s = .next t ∧
        berthAt t.dev i.toNat =
          (if 0x3FF ≤ r.gen then { state := .retired, gen := r.gen, retireTime := tideW s.dev } else { gen := r.gen + 1 }) ∧
        ((ctxAt s.dev r.ctxIdx).gen = r.ctxGen → (ctxAt s.dev r.ctxIdx).lives = true →
          (ctxAt t.dev r.ctxIdx).berthCount = (ctxAt s.dev r.ctxIdx).berthCount - 1)) ∧
    (r.state ≠ .draining ∨ r.done ≠ r.acc ∨ r.fopen = true → exec (.berthDrained i) s = .next s)

/-- RECORD_FILL (R63, R303, R306): a record asked for comes on chip where one mirror answered well and the store has room, with nothing
more asked for unless a copy was poisoned; where both fail, it does not, and the machine check of CLASS 0x03, code 0x23 follows, in
the page of the unit that asked. -/
def Rule.RecordFill : Prop :=
  ∀ (s : State) (r : RecId) (a b : MemResp), awake s.dev 2 = true → s.dev.blu.hcmd = none → s.dev.fsa.expOp = none →
    (s.dev.btc.fills.contains r = false → exec (.recordFill r a b) s = .next s) ∧
    (s.dev.btc.fills.contains r = true → a = .ok ∨ b = .ok → storeFull s.dev r = false →
      ∃ t, exec (.recordFill r a b) s = .next t ∧ onChip t.dev r = true ∧ t.dev.btc.fills.contains r = false ∧
        (a ≠ .poison → b ≠ .poison → t.dev.memOut = s.dev.memOut) ∧
        t.dev.btc.ctx = s.dev.btc.ctx ∧ t.dev.btc.berth = s.dev.btc.berth ∧ t.dev.blu.slots = s.dev.blu.slots) ∧
    (s.dev.btc.fills.contains r = true → a ≠ .ok → b ≠ .ok → flag s.dev fMcValid = false →
      ∃ t, exec (.recordFill r a b) s = .next t ∧ t.dev.btc.fills.contains r = false ∧ flag t.dev fMcValid = true ∧
        fld t.dev fMcPage = (match r with | .bollard _ => 5 | _ => 2) ∧ fld t.dev fMcClass = 3 ∧ fld t.dev fMcCode = 0x23 ∧ fbit t.dev (fIrqRaw 0) 0 = true)

/-! ### The launch evaluator (09) -/

/-- EVAL (R154, R157, R374): the program is asked for from its address with hint 0b00 and a place in the store of 1,024 is taken; a
program not on an 8-byte boundary or beyond 2^57 faults with cause 0x33; without a place the EVAL waits. The store keeps the order of
issue: behind programs issued earlier the new one stands last. -/
def Rule.EvalStart : Prop :=
  ∀ (s : State) (k : CmdId) (x : Cmd) (prog src dst n pset : Nat) (c : CtxRec), awake s.dev 7 = true → atIssueOf s.dev k x →
    x.spec.op = .eval prog src dst n pset → c = ctxAt s.dev (ctxIdx x.ctx) →
    (1024 ≤ storeUse s.dev → exec (.eval k) s = .next s) ∧
    (storeUse s.dev < 1024 → prog % 8 = 0 → prog + 8 * n ≤ 2 ^ 57 →
      ∃ t, exec (.eval k) s = .next t ∧ t.dev.memOut = s.dev.memOut ++ [.progRead c.asid c.keyid c.pid prog] ∧
        t.dev.lev = { s.dev.lev with store := insStore s.dev x s.dev.lev.store } ∧ t.dev.regs = s.dev.regs ∧
        ((∀ e ∈ s.dev.lev.store, ∀ y, cmdAt s.dev e.1 = some y → y.issueNo ≤ x.issueNo) →
          t.dev.lev.store = s.dev.lev.store ++ [(k, none)]) ∧
        (cmdAt t.dev k).map (·.step) = some 1) ∧
    (storeUse s.dev < 1024 → prog % 8 ≠ 0 →
      ∃ t, exec (.eval k) s = .next t ∧
        (cmdAt t.dev k).map (fun x => (x.status, x.fault.map fun f => (f.cause, f.addr, f.argA))) =
          some (some stFaulted, some (0x33, prog, 0)))

/-- EVAL_PROGRAM_READ (R155, R157): a program all of whose words pass the check takes a free engine, at instruction 0 with S and E zero
and the registers of PSET set to zero; the first word that fails the check faults the command with cause 0x30 and its number. -/
def Rule.EvalProgramRead : Prop :=
  ∀ (s : State) (k : CmdId) (x : Cmd) (prog src dst n pset : Nat) (ws : List W64), awake s.dev 7 = true →
    cmdAt s.dev k = some x → hot s.dev (berthRecs s.dev x.berth) → x.status = none → x.completeLsn = none →
    x.spec.op = .eval prog src dst n pset →
    s.dev.lev.store = [(k, none)] → s.dev.lev.engines = [none, none, none, none] → ws.length = n →
    ((∀ j, j < n → evWordOk pset (ws.getD j 0) = true) → flag s.dev (fQreq 6) = false →
      ∃ t, exec (.evalProgramRead k .ok ws) s = .next t ∧ t.dev.lev.store = [] ∧
        t.dev.lev.engines = [some { cmd := k, prog := ws }, none, none, none] ∧
        ∀ j, j < 4 → (berthAt t.dev x.berth).params.getD j 0 =
          if nbit pset j then 0 else (berthAt s.dev x.berth).params.getD j 0) ∧
    ((∀ j, j < n → evWordOk pset (ws.getD j 0) = true) → flag s.dev (fQreq 6) = true →
      ∃ t, exec (.evalProgramRead k .ok ws) s = .next t ∧ t.dev.lev.store = [(k, some ws)] ∧
        t.dev.lev.engines = s.dev.lev.engines) ∧
    (∀ j, (List.range n).find? (fun j => !evWordOk pset (ws.getD j 0)) = some j →
      ∃ t, exec (.evalProgramRead k .ok ws) s = .next t ∧
        (cmdAt t.dev k).map (fun x => (x.status, x.fault.map fun f => (f.cause, f.argA))) =
          some (some stFaulted, some (0x30, j)))

/-- The instruction rows with their OP values (R156). -/
def evalRows (e : BitVec 2) : List (Instr × Nat) :=
  [(.ldi e, 0x01), (.addi e, 0x02), (.alu e, 0x03), (.ld32 e, 0x04), (.ld64 e, 0x05), (.setp e, 0x06), (.aload e, 0x10),
   (.astore e, 0x11), (.aget e, 0x12), (.aset e, 0x13), (.amap e, 0x14), (.aidx e, 0x15), (.ascan e, 0x16), (.areduce e, 0x17),
   (.acompact e, 0x18), (.aexpand e, 0x19)]

/-- LDI, ADDI, ALU, LD32, LD64, SETP, ALOAD, ASTORE, AGET, ASET, AMAP, AIDX, ASCAN, AREDUCE, ACOMPACT, AEXPAND (R156, R157): the
present instruction of an engine has the effect that its words give it, and nothing but that engine changes where it computes; a
load leaves for its address, a store posts its words, SETP writes a parameter register; a check that fails faults the command
with the instruction's number. A row of another instruction changes nothing. -/
def Rule.EvalInstruction : Prop :=
  ∀ (s : State) (e : BitVec 2) (i : Instr) (op : Nat) (r : EvalRun) (w : W64) (c : Cmd) (x : CtxRec) (src dst : Nat),
    awake s.dev 7 = true → (i, op) ∈ evalRows e → evalAt s.dev e.toNat = some r → r.prog[r.pc]? = some w → r.loading = false →
    cmdAt s.dev r.cmd = some c → hot s.dev (berthRecs s.dev c.berth) → evalBases c.spec.op = (src, dst) →
    x = ctxAt s.dev (ctxIdx c.ctx) →
    (evOp w ≠ op → exec i s = .next s) ∧
    (evOp w = op →
      (∀ r', evStep r w src dst = .run r' →
        exec i s = .next { s with dev := setEval s.dev e.toNat (some { r' with pc := r.pc + 1 }) }) ∧
      (∀ a n, evStep r w src dst = .load a n →
        exec i s = .next ⟨memReq (setEval s.dev e.toNat (some { r with loading := true })) (.levRead x.asid x.keyid x.pid 0 a n),
          s.pending⟩) ∧
      (∀ a vs, evStep r w src dst = .store a vs →
        ∃ t, exec i s = .next t ∧
          t.dev.memOut = s.dev.memOut ++ ((List.range vs.length).map fun j =>
            MemReq.levWrite x.asid x.keyid x.pid 1 (a + 4 * j) (BitVec.ofNat 32 (vs.getD j 0))) ∧
          evalAt t.dev e.toNat = some { r with
            pc := r.pc + 1,
            stores := r.stores ++ (List.range vs.length).map (fun j => (a + 4 * j, r.pc)) } ∧ t.dev.regs = s.dev.regs ∧ t.dev.cmds = s.dev.cmds) ∧
      (∀ n v, evStep r w src dst = .setp n v →
        exec i s = .next ⟨setEval (modBerth s.dev c.berth fun b => { b with params := b.params.set n v }) e.toNat
          (some { r with pc := r.pc + 1 }), s.pending⟩) ∧
      (∀ cause a, evStep r w src dst = .fault cause a → c.status = none → c.completeLsn = none →
        ∃ t, exec i s = .next t ∧
          (cmdAt t.dev r.cmd).map (fun x => (x.status, x.fault.map fun f => (f.cause, f.addr, f.argA))) =
            some (some stFaulted, some (cause, a % 2 ^ 64, r.pc))))

/-- R156, R157: the ALU operations on 64-bit words; a zero divisor gives no result. -/
def Rule.EvalAlu : Prop :=
  ∀ a b : W64,
    evAlu 0 a.toNat b.toNat = some (a + b).toNat ∧ evAlu 1 a.toNat b.toNat = some (a - b).toNat ∧
    evAlu 2 a.toNat b.toNat = some (a * b).toNat ∧ (b ≠ 0 → evAlu 3 a.toNat b.toNat = some (a.udiv b).toNat) ∧
    (b ≠ 0 → evAlu 5 a.toNat b.toNat = some (a.umod b).toNat) ∧ evAlu 8 a.toNat b.toNat = some (a &&& b).toNat ∧
    evAlu 9 a.toNat b.toNat = some (a ||| b).toNat ∧ evAlu 10 a.toNat b.toNat = some (a <<< (b.toNat % 64)).toNat ∧
    evAlu 11 a.toNat b.toNat = some (a >>> (b.toNat % 64)).toNat ∧
    evAlu 12 a.toNat b.toNat = some (if a = b then 1 else 0) ∧ evAlu 13 a.toNat b.toNat = some (if a < b then 1 else 0) ∧
    evAlu 6 a.toNat b.toNat = some (if a ≤ b then a else b).toNat ∧ evAlu 7 a.toNat b.toNat = some (if a ≤ b then b else a).toNat ∧
    evAlu 3 a.toNat 0 = none ∧ evAlu 4 a.toNat 0 = none ∧ evAlu 5 a.toNat 0 = none

/-- R155, R156: LDI, ADDI, ALU and AGET on the registers: S0 reads as zero and is not written, D takes the result, every other scalar
and every element stays; ASET writes its element alone. `r.s` has its 16 registers. -/
def Rule.EvalScalars : Prop :=
  ∀ (r : EvalRun) (w : W64) (src dst v : Nat), r.s.length = 16 → v < 2 ^ 64 →
    (evOp w = 0x13 → r.sc (evA w) < 4096 →
      ∃ r', evStep r w src dst = .run r' ∧ r'.s = r.s ∧ r'.pc = r.pc ∧ r'.el (r.sc (evA w)) = r.sc (evB w) % 2 ^ 32 ∧
        ∀ n, n ≠ r.sc (evA w) → r'.el n = r.el n) ∧
    ((evOp w = 0x01 ∧ v = ((BitVec.ofNat 32 (evImm w)).signExtend 64).toNat ∨
      evOp w = 0x02 ∧ v = (BitVec.ofNat 64 (r.sc (evA w)) + (BitVec.ofNat 32 (evImm w)).signExtend 64).toNat ∨
      evOp w = 0x03 ∧ evAlu (evImm w) (r.sc (evA w)) (r.sc (evB w)) = some v ∨
      evOp w = 0x12 ∧ r.sc (evA w) < 4096 ∧ v = r.el (r.sc (evA w))) →
    ∃ r', evStep r w src dst = .run r' ∧ r'.e = r.e ∧ r'.pc = r.pc ∧ r'.sc 0 = 0 ∧ (evD w ≠ 0 → r'.sc (evD w) = v) ∧
      ∀ n, n ≠ evD w → r'.sc n = r.sc n)

/-- R156, R157: AMAP, AIDX and ASCAN over elements a to a+n-1 of E, none beyond E[4095]: each element takes its own new value, modulo
2^32, and no other element changes. ASCAN writes the sums of the elements before each and the total to D. -/
def Rule.EvalArrays : Prop :=
  ∀ (r : EvalRun) (w : W64) (src dst a n c : Nat), r.s.length = 16 → a = r.sc (evA w) → n = r.sc (evB w) → c = r.sc (evC w) →
    0 < n → a + n ≤ 4096 →
    (evOp w = 0x14 → evImm w ≤ 0xD → ¬ (c = 0 ∧ (evImm w = 3 ∨ evImm w = 4 ∨ evImm w = 5)) →
      ∃ r', evStep r w src dst = .run r' ∧ r'.s = r.s ∧
        (∀ j, j < n → some (r'.el (a + j)) = (evAlu (evImm w) (r.el (a + j)) c).map (· % 2 ^ 32)) ∧
        (∀ j, j < a ∨ a + n ≤ j → r'.el j = r.el j)) ∧
    (evOp w = 0x15 →
      ∃ r', evStep r w src dst = .run r' ∧ r'.s = r.s ∧
        (∀ j, j < n → r'.el (a + j) = (r.el (a + j) + j * c) % 2 ^ 32) ∧ (∀ j, j < a ∨ a + n ≤ j → r'.el j = r.el j)) ∧
    (evOp w = 0x16 → evD w ≠ 0 →
      ∃ r', evStep r w src dst = .run r' ∧
        (∀ j, j < n → r'.el (a + j) = ((List.range j).map fun i => r.el (a + i)).sum % 2 ^ 32) ∧
        r'.sc (evD w) = ((List.range n).map fun i => r.el (a + i)).sum ∧ (∀ j, j < a ∨ a + n ≤ j → r'.el j = r.el j))

/-- EVAL_LOAD_DATA (R156, R157): the data of a load, each word of it, go to their destination and the program goes on; without a load
nothing changes; a load that fails faults with cause 0x33 at the line that failed. -/
def Rule.EvalLoadData : Prop :=
  ∀ (s : State) (e : BitVec 2) (r : EvalRun) (w : W64) (c : Cmd) (a n : Nat) (ws : List W32), awake s.dev 7 = true →
    evalAt s.dev e.toNat = some r → r.prog[r.pc]? = some w → cmdAt s.dev r.cmd = some c →
    hot s.dev (berthRecs s.dev c.berth) → loadOf r w (evalBases c.spec.op).1 = (a, n) →
    (∀ resp, r.loading = false → exec (.evalLoadData e resp ws) s = .next s) ∧
    (r.loading = true → ws.length = n →
      exec (.evalLoadData e .ok ws) s =
        .next { s with dev := setEval s.dev e.toNat (some { loadInto r w ws with pc := r.pc + 1, loading := false }) }) ∧
    (∀ resp, resp ≠ .ok → r.loading = true → c.status = none → c.completeLsn = none →
      ∃ t, exec (.evalLoadData e resp ws) s = .next t ∧
        (cmdAt t.dev r.cmd).map (fun x => (x.status, x.fault.map fun f => (f.cause, f.addr, f.argA))) =
          some (some stFaulted, some (0x33, failedAddr a ws.length n, r.pc)))

/-- EVAL_STORE_FAULT (R157, R306): a posted store answered with a translation fault or an access error faults the command with cause
0x34 at its address, with the number of the instruction that stored; a poison report and a store that is not there change
nothing. -/
def Rule.EvalStoreFault : Prop :=
  ∀ (s : State) (e : BitVec 2) (a : BitVec 57) (resp : MemResp) (r : EvalRun) (c : Cmd) (q : Nat × Nat), awake s.dev 7 = true →
    evalAt s.dev e.toNat = some r → cmdAt s.dev r.cmd = some c → hot s.dev (berthRecs s.dev c.berth) → c.status = none →
    c.completeLsn = none →
    (r.stores.find? (fun x => x.1 = a.toNat) = some q → resp = .translation ∨ resp = .access →
      ∃ t, exec (.evalStoreFault e a resp) s = .next t ∧
        (cmdAt t.dev r.cmd).map (fun x => (x.status, x.fault.map fun f => (f.cause, f.addr, f.argA))) =
          some (some stFaulted, some (0x34, a.toNat, q.2))) ∧
    (r.stores.find? (fun x => x.1 = a.toNat) = none ∨ resp = .ok ∨ resp = .poison → exec (.evalStoreFault e a resp) s = .next s)

/-- EVAL_COMPLETE (R101, R159, R167): a program that has run to its end frees its engine, counts as an EVAL and completes OK, with P0 to P3
as they are recorded; one that has not changes nothing. -/
def Rule.EvalComplete : Prop :=
  ∀ (s : State) (e : BitVec 2) (r : EvalRun) (c : Cmd), awake s.dev 7 = true → evalAt s.dev e.toNat = some r →
    cmdAt s.dev r.cmd = some c → hot s.dev (berthRecs s.dev c.berth) → s.dev.lev.store = [] →
    (r.loading = true ∨ r.pc < r.prog.length → exec (.evalComplete e) s = .next s) ∧
    (r.loading = false → r.prog.length ≤ r.pc → c.completeLsn = none → c.status = none → c.spec.sigs = [] → c.spec.brCond ≠ 2 →
      ∃ t, exec (.evalComplete e) s = .next t ∧ evalAt t.dev e.toNat = none ∧
        (cmdAt t.dev r.cmd).map (fun x => (x.phase, x.status, x.outs)) =
          some (.complete, some stOk, (berthAt s.dev c.berth).params) ∧
        fld t.dev fLevEvals = min (fld s.dev fLevEvals + 1) (2 ^ 32 - 1))

/-- BARRIER, NOP, END (R100, R106): a NOP completes OK; a BARRIER once every earlier command of its berth is complete, an END once every
earlier command of its manifest is; before that nothing changes. -/
def Rule.JoinCommands : Prop :=
  ∀ (s : State) (k : CmdId) (x : Cmd), awake s.dev 6 = true → atIssueOf s.dev k x → x.spec.sigs = [] →
    ∀ (i : Instr) (js : List Cmd),
      (i = .nop k ∧ x.spec.op = .nop ∧ js = [] ∨ i = .barrier k ∧ x.spec.op = .barrier ∧ js = earlier s.dev x ∨
        i = .endCmd k ∧ x.spec.op = .endOp ∧ js = (earlier s.dev x).filter fun y => y.headIdx = x.headIdx) →
      ((∀ y ∈ js, y.phase = .complete) →
        ∃ t, exec i s = .next t ∧ (cmdAt t.dev k).map (fun x => (x.phase, x.status, x.detail)) = some (.complete, some stOk, 0) ∧
          (ctxAt t.dev (ctxIdx x.ctx)).cmdsOk = ((ctxAt s.dev (ctxIdx x.ctx)).cmdsOk + 1) % 2 ^ 64) ∧
      (∀ y ∈ js, y.phase ≠ .complete → exec i s = .next s)

/-! ### Block pools (09) -/

/-- ALLOC_BLOCKS (R109, R161, R165): the checks in their order give their causes; an allocation that can be served takes its indices in the
pool step, and with contiguous output index i leaves for OUT_VA + 4i with hint 0b10; one that cannot, with no free to hoist, ends POOL_EMPTY with NOWAIT and else joins the pool's wait list. -/
def Rule.AllocBlocks : Prop :=
  ∀ (s : State) (k : CmdId) (x : Cmd) (p cnt out slot n : Nat) (nowait : Bool) (reads : List FreeRead), awake s.dev 7 = true →
    atIssueOf s.dev k x → x.spec.op = .alloc p nowait cnt out slot → flag s.dev (fQreq 6) = false → ctxLive s.dev x.ctx = true →
    n = countOf s.dev x → (poolAt s.dev p).waiters.contains k = false →
    (n = 0 → x.spec.sigs = [] →
      ∃ t, exec (.allocBlocks k reads) s = .next t ∧
        (cmdAt t.dev k).map (fun x => (x.phase, x.status)) = some (.complete, some stOk)) ∧
    (n ≠ 0 → allocCause s.dev x n ≠ 0 →
      ∃ t, exec (.allocBlocks k reads) s = .next t ∧
        (cmdAt t.dev k).map (fun x => (x.status, x.fault.map (·.cause))) = some (some stFaulted, some (allocCause s.dev x n))) ∧
    (n ≠ 0 → allocCause s.dev x n = 0 → servable s.dev p n = true →
      ∃ t, exec (.allocBlocks k reads) s = .next t ∧ poolAt t.dev p = (takeIx (poolAt s.dev p) n).2 ∧
        t.dev.lev.allocs = s.dev.lev.allocs ++ [{ cmd := k, pool := p, ix := (takeIx (poolAt s.dev p) n).1 }] ∧
        (cmdAt t.dev k).map (fun x => (x.phase, x.step, x.status)) = some (.issued, 1, none) ∧
        (slot = 0 → out + 4 * n ≤ 2 ^ 57 → t.dev.memOut = s.dev.memOut ++ ((List.range n).map fun i =>
          MemReq.levWrite (cmdCtx s.dev x).asid (cmdCtx s.dev x).keyid (cmdCtx s.dev x).pid 2 (out + 4 * i)
            (BitVec.ofNat 32 ((takeIx (poolAt s.dev p) n).1.getD i 0))))) ∧
    (n ≠ 0 → allocCause s.dev x n = 0 → servable s.dev p n = false → hoistable s.dev x = [] →
      (nowait = true → x.spec.brCond ≠ 1 →
        ∃ t, exec (.allocBlocks k reads) s = .next t ∧
          (cmdAt t.dev k).map (fun x => (x.phase, x.status)) = some (.complete, some stPoolEmpty)) ∧
      (nowait = false →
        ∃ t, exec (.allocBlocks k reads) s = .next t ∧
          poolAt t.dev p = { poolAt s.dev p with waiters := (poolAt s.dev p).waiters ++ [k] } ∧ t.dev.cmds = s.dev.cmds ∧
          fld t.dev fLevWaits = min (fld s.dev fLevWaits + 1) (2 ^ 32 - 1)))

/-- A pool in a state that its rules reach: the stack holds each index once, all below the fresh mark and none held, and so do the held
ones; the fresh mark does not pass the size (R160). -/
def poolSound (r : Pool) : Prop :=
  r.stack.Nodup ∧ (∀ i ∈ r.stack, i < r.fresh ∧ i ∉ r.held) ∧ r.held.Nodup ∧ (∀ i ∈ r.held, i < r.fresh) ∧ r.fresh ≤ r.blocks

/-- R161: an allocation of n free blocks takes n different indices that nobody held, each below the pool's size; they are held
afterwards, the number of free blocks falls by n, and the pool stays sound. -/
def Rule.TakeIndices : Prop :=
  ∀ (r : Pool) (n : Nat), poolSound r → n ≤ freeBlocks r →
    (takeIx r n).1.length = n ∧ (takeIx r n).1.Nodup ∧ (∀ i ∈ (takeIx r n).1, i < r.blocks ∧ i ∉ r.held) ∧
      (takeIx r n).2.held = r.held ++ (takeIx r n).1 ∧ freeBlocks (takeIx r n).2 = freeBlocks r - n ∧ poolSound (takeIx r n).2

/-- FREE_BLOCKS (R162): the indices read, each held and none twice, go back on the stack in list order, BLOCKS_HELD falls by their
number and the command completes OK; the first that is not held faults with cause 0x3B, its position and its value. -/
def Rule.FreeBlocks : Prop :=
  ∀ (s : State) (k : CmdId) (x : Cmd) (p cnt va n : Nat) (ix : List W32) (l : List Nat), awake s.dev 7 = true →
    atIssueOf s.dev k x → x.spec.op = .free p cnt va → x.spec.sigs = [] → flag s.dev (fQreq 6) = false →
    ctxLive s.dev x.ctx = true → n = countOf s.dev x → n ≠ 0 → freeCause s.dev x n = 0 → va + 4 * n ≤ 2 ^ 57 → ix.length = n →
    l = ix.map (·.toNat) → (poolAt s.dev p).waiters = [] →
    (badIndex (poolAt s.dev p) l = none →
      ∃ t, exec (.freeBlocks k { cmd := k, r := .ok, idx := ix }) s = .next t ∧
        (poolAt t.dev p).stack = (poolAt s.dev p).stack ++ l ∧ (∀ i ∈ l, i ∉ (poolAt t.dev p).held) ∧
        (ctxAt t.dev (ctxIdx x.ctx)).blocksHeld = (ctxAt s.dev (ctxIdx x.ctx)).blocksHeld - n ∧
        (cmdAt t.dev k).map (fun x => (x.phase, x.status)) = some (.complete, some stOk)) ∧
    (∀ i, badIndex (poolAt s.dev p) l = some i →
      ∃ t, exec (.freeBlocks k { cmd := k, r := .ok, idx := ix }) s = .next t ∧
        (cmdAt t.dev k).map (fun x => (x.status, x.fault.map fun f => (f.cause, f.argA, f.argB))) =
          some (some stFaulted, some (0x3B, i, l.getD i 0)))

/-- ALLOC_COMMIT (R109, R161, R383): with contiguous output and every write acknowledged, a poison bit on an answer apart, BLOCKS_HELD and
BLOCKS_PEAK rise and the command completes OK; a first write that fails returns the indices to the stack in reverse order and faults
with cause 0x3C. -/
def Rule.AllocCommit : Prop :=
  ∀ (s : State) (k : CmdId) (x : Cmd) (p cnt out : Nat) (nowait : Bool) (a : AllocOpen) (slots : SlotRead) (w : List MemResp)
    (c : CtxRec), awake s.dev 7 = true → cmdAt s.dev k = some x → hot s.dev (berthRecs s.dev x.berth) → x.status = none →
    x.completeLsn = none → x.spec.sigs = [] → x.spec.op = .alloc p nowait cnt out 0 → s.dev.lev.allocs = [a] → a.cmd = k → out + 4 * a.ix.length ≤ 2 ^ 57 →
    c = ctxAt s.dev (ctxIdx x.ctx) → (poolAt s.dev a.pool).waiters = [] →
    ((∀ r ∈ w, r = .ok ∨ r = .poison) → (outWrites 0 (outAddrs out 0 a.ix.length [])).length ≤ w.length →
      ∃ t, exec (.allocCommit k slots w) s = .next t ∧ t.dev.lev.allocs = [] ∧
        (ctxAt t.dev (ctxIdx x.ctx)).blocksHeld = c.blocksHeld + a.ix.length ∧
        (ctxAt t.dev (ctxIdx x.ctx)).blocksPeak = max c.blocksPeak (c.blocksHeld + a.ix.length) ∧
        (cmdAt t.dev k).map (fun x => (x.phase, x.status)) = some (.complete, some stOk)) ∧
    (w.getD 0 .ok = .access ∨ w.getD 0 .ok = .translation → a.ix ≠ [] →
      ∃ t, exec (.allocCommit k slots w) s = .next t ∧
        (poolAt t.dev a.pool).stack = (poolAt s.dev a.pool).stack ++ a.ix.reverse ∧ t.dev.lev.allocs = [] ∧
        (cmdAt t.dev k).map (fun x => (x.status, x.fault.map fun f => (f.cause, f.addr))) =
          some (some stFaulted, some (0x3C, out)))

/-- How a pool command ends (R167). -/
def poolEnded (d e : Dev) (res : Nat) : Prop :=
  fld e fLevPoolResult = res ∧ fld e fLevPoolSeq = (fld d fLevPoolSeq + 1) % 2 ^ 32 ∧ flag e fLevPoolBusy = false ∧
    fbit e (fIrqRaw 6) 0 = true

/-- POOL_CREATE, POOL_DESTROY, POOL_READ (R160, R167): one written while BUSY is lost. A create on a free pool, with a size from 1 to
2^24, a LIVE owner and a place in the area, makes it LIVE with nothing taken; a destroy of a LIVE pool with no block held and
no waiter frees it, with one held it is refused; a read shows the pool's state, owner, size and free blocks. -/
def Rule.PoolCommands : Prop :=
  ∀ (s : State) (p owner blocks : Nat), awake s.dev 7 = true → p = fld s.dev fLevPoolIndex → owner = fld s.dev fLevPoolOwner →
    blocks = fld s.dev fLevPoolBlocks →
    (flag s.dev fLevPoolBusy = true → ∀ i ∈ [Instr.poolCreate, .poolDestroy, .poolRead],
      exec i s = .next { s with dev := setFld s.dev fLevPoolLost 1 }) ∧
    (flag s.dev fLevPoolBusy = false → flag s.dev (fQuiesced 6) = false →
      (∀ b, (poolAt s.dev p).st = .free → 0 < blocks → blocks ≤ 2 ^ 24 → ctxLive s.dev owner = true →
        firstFit (areaBlocks s.dev) blocks 0 (areaUsed s.dev) = some b →
        ∃ t, exec .poolCreate s = .next t ∧ poolEnded s.dev t.dev 0 ∧
          poolAt t.dev p = { st := .live, owner := owner, blocks := blocks, base := b }) ∧
      ((poolAt s.dev p).st ≠ .free →
        ∃ t, exec .poolCreate s = .next t ∧ poolEnded s.dev t.dev 2 ∧ t.dev.lev.pools = s.dev.lev.pools) ∧
      ((poolAt s.dev p).st = .live → (poolAt s.dev p).held = [] → (poolAt s.dev p).waiters = [] →
        ∃ t, exec .poolDestroy s = .next t ∧ poolEnded s.dev t.dev 0 ∧ (poolAt t.dev p).st = .free) ∧
      ((poolAt s.dev p).st = .live → (poolAt s.dev p).held ≠ [] →
        ∃ t, exec .poolDestroy s = .next t ∧ poolEnded s.dev t.dev 4 ∧ t.dev.lev.pools = s.dev.lev.pools) ∧
      ((poolAt s.dev p).st = .live → (poolAt s.dev p).owner < 2 ^ 32 → freeBlocks (poolAt s.dev p) < 2 ^ 25 →
        (poolAt s.dev p).blocks < 2 ^ 25 →
        ∃ t, exec .poolRead s = .next t ∧ poolEnded s.dev t.dev 0 ∧ fld t.dev fLevInfoState = 1 ∧
          fld t.dev fLevPoolOwner = (poolAt s.dev p).owner ∧ fld t.dev fLevPoolBlocks = (poolAt s.dev p).blocks ∧
          fld t.dev ⟨6, 0x0A0, 56, 32⟩ = freeBlocks (poolAt s.dev p)))

/-- R160: the place that first fit finds lies in the area and overlaps no part in use. -/
def Rule.FirstFit : Prop :=
  ∀ (cap blocks b at_ : Nat) (used : List (Nat × Nat)), used.Pairwise (fun x y => x.1 + x.2 ≤ y.1) →
    (∀ x ∈ used, at_ ≤ x.1) → firstFit cap blocks at_ used = some b → (∀ x ∈ used, x.1 + x.2 ≤ cap) →
    at_ ≤ b ∧ b + blocks ≤ cap ∧ ∀ x ∈ used, b + blocks ≤ x.1 ∨ x.1 + x.2 ≤ b
/-! ### Wait cycles (11) -/

/-- The key of the next search of a berth's waiter (R194). -/
def searchKeyOf (d : Dev) (b : Nat) : SearchKey :=
  { node := BitVec.ofNat 32 (fld d fFsaId), berth := BitVec.ofNat 32 (berthHandle b (berthAt d b).gen),
    num := BitVec.ofNat 32 d.blu.nextSearch }

/-- When the waiter of a berth was registered; 0 where none is. -/
def regTime (d : Dev) (b : Nat) : Nat := match waiterOf d b with | some (c, _) => c.entrySince | none => 0

/-- SEARCH_START (R194, R201): nothing without a waiter, or before the period of CONFIRM_US is over; with CYC_EN 0 the next period starts;
with 64 searches under way the start waits its turn, which comes in the order of registration. -/
def Rule.SearchStart : Prop :=
  ∀ (s : State) (b : BitVec 22), awake s.dev 6 = true →
    (waiterOf s.dev b.toNat = none → exec (.searchStart b) s = .next s) ∧
    (∀ c e u, waiterOf s.dev b.toNat = some (c, e) → u = periodStart s.dev b.toNat c + us (fld s.dev fBluConfirmUs) →
      (s.dev.now < u → exec (.searchStart b) s = .next s) ∧
      (u ≤ s.dev.now → s.dev.blu.startQ.contains b.toNat = false →
        (s.dev.blu.searches.any fun x => isInitiator s.dev x.key b.toNat) = false →
        (flag s.dev fBluCycEn = false → exec (.searchStart b) s =
          .next ⟨modBlu s.dev fun x => { x with searchAt := tput x.searchAt b.toNat u }, s.pending⟩) ∧
        (flag s.dev fBluCycEn = true → 64 ≤ s.dev.blu.searches.length → exec (.searchStart b) s =
          .next ⟨modBlu s.dev fun x => { x with
            startQ := (x.startQ.filter fun y => regTime s.dev y ≤ regTime s.dev b.toNat) ++ [b.toNat] ++
              x.startQ.filter fun y => regTime s.dev b.toNat < regTime s.dev y }, s.pending⟩)))

/-- SEARCH_START and VERDICT (R190, R194, R197, R198): a waiter whose bollard can be moved on by no host and no other node, and by
commands of its own berth only, none of which can run before it, is searched for; the verdict completes it DEADLOCK with its
entry in DETAIL, counts one cycle, and the search is over. -/
def Rule.SelfDeadlock : Prop :=
  ∀ (s : State) (b : BitVec 22) (c : Cmd) (e : SyncEnt) (es : List Cmd), awake s.dev 6 = true →
    waiterOf s.dev b.toNat = some (c, e) → cmdAt s.dev c.key = some c → c.completeLsn = none → c.berth = b.toNat →
    (berthAt s.dev b.toNat).gen < 2 ^ 10 → s.dev.blu.searches = [] → s.dev.blu.parts = [] → s.dev.blu.startQ = [] →
    periodStart s.dev b.toNat c + us (fld s.dev fBluConfirmUs) ≤ s.dev.now → flag s.dev fBluCycEn = true →
    e.node = 0 → bolOk s.dev e.handle = true → (bolAt s.dev (bolIdx e.handle)).state = .live →
    (bolAt s.dev (bolIdx e.handle)).hostSig = false → (bolAt s.dev (bolIdx e.handle)).cap = 0 →
    es = enablers s.dev 0 e.handle e.code e.value → es ≠ [] → (∀ x ∈ es, x.berth = b.toNat ∧ blockedAt s.dev x = true) →
    ∃ t, exec (.searchStart b) s = .next t ∧ t.dev.blu.searches.map (·.key) = [searchKeyOf s.dev b.toNat] ∧
      ∃ u, exec (.verdict (searchKeyOf s.dev b.toNat)) t = .next u ∧
        (cmdAt u.dev c.key).map (fun x => (x.phase, x.status, x.detail)) = some (.complete, some stDeadlock, c.met) ∧
        u.dev.blu.searches = [] ∧ fld u.dev fBluCycles = (fld s.dev fBluCycles + 1) % 2 ^ 16

/-- A packet body has joined a partner's queue. -/
def queuedTo (d : Dev) (n : Nat) (p : Payload) : Prop := ((partnerAt d n).queue.map (·.body)).contains p = true

/-- WAIT_QUERY and DECL_QUERY (R195, R196, R197, R201): the packet is taken; where fabric queries were off as the search came, the answer is
ABORT. Before the verdict lap, for a wait that is no longer registered here it is OPEN, and for a bollard with HOST_SIG; where no command
here declares a signal that could meet the wait it is EMPTY, or OPEN where an earlier lap found one, and where one that does is not blocked
it is OPEN. In the verdict lap, with nothing recorded of the search, it is BLOCKED. Without such a packet nothing changes. -/
def Rule.CycleQueries : Prop :=
  ∀ (s : State) (src : BitVec 32) (k : SearchKey) (lap : BitVec 2) (h w : BitVec 32) (cond : BitVec 4) (v : W64),
    awake s.dev 6 = true → reachable s.dev src.toNat = true →
    (firstIn s.dev src.toNat = some (.waitQuery k lap h w) →
      ∃ t, exec (.waitQuery src) s = .next t ∧ (partnerAt t.dev src.toNat).inbox = (partnerAt s.dev src.toNat).inbox.drop 1 ∧
        (fabricOn s.dev k = false → queuedTo t.dev src.toNat (.reply k lap .abort false)) ∧
        (fabricOn s.dev k = true → lap ≠ 3 → s.dev.blu.waits = [] → queuedTo t.dev src.toNat (.reply k lap .opened false)) ∧
        (∀ i x, fabricOn s.dev k = true → lap ≠ 3 → (bolAt s.dev (bolIdx h.toNat)).hostSig = true → s.dev.blu.waits = [x] →
          x.bol = bolIdx h.toNat → x.who = .away src.toNat w.toNat i → queuedTo t.dev src.toNat (.reply k lap .opened false)) ∧
        (fabricOn s.dev k = true → lap = 3 → (∀ p ∈ s.dev.blu.parts, p.key ≠ k) →
          queuedTo t.dev src.toNat (.reply k lap .blocked false))) ∧
    (firstIn s.dev src.toNat = some (.declQuery k lap h cond v) →
      ∃ t, exec (.declQuery src) s = .next t ∧ (partnerAt t.dev src.toNat).inbox = (partnerAt s.dev src.toNat).inbox.drop 1 ∧
        (fabricOn s.dev k = false → queuedTo t.dev src.toNat (.reply k lap .abort false)) ∧
        (fabricOn s.dev k = true → lap ≠ 3 → enablers s.dev src.toNat h.toNat cond.toNat v = [] →
          queuedTo t.dev src.toNat (.reply k lap
            (if (oldQuery s.dev k src.toNat src.toNat h.toNat 0 lap.toNat).isSome then .opened else .empty) false)) ∧
        (∀ x, fabricOn s.dev k = true → lap ≠ 3 → x ∈ enablers s.dev src.toNat h.toNat cond.toNat v → blockedAt s.dev x = false →
          queuedTo t.dev src.toNat (.reply k lap .opened false)) ∧
        (fabricOn s.dev k = true → lap = 3 → (∀ p ∈ s.dev.blu.parts, p.key ≠ k) →
          queuedTo t.dev src.toNat (.reply k lap .blocked false))) ∧
    (firstIn s.dev src.toNat = none → exec (.waitQuery src) s = .next s ∧ exec (.declQuery src) s = .next s)

/-- REPLY (R196): the answer of the one node that was asked decides the answer to the node that asked here: BLOCKED, with its REACH, in
lap 1; EMPTY leaves it BLOCKED where an enabler was found here and OPEN otherwise; OPEN and ABORT go back as they came. -/
def Rule.CycleReply : Prop :=
  ∀ (s : State) (src : BitVec 32) (k : SearchKey) (v : QVerdict) (reach : Bool) (p : Part) (n : Nat), awake s.dev 6 = true →
    reachable s.dev n = true → firstIn s.dev src.toNat = some (.reply k 1 v reach) → s.dev.blu.searches = [] →
    s.dev.blu.parts = [p] → p.key = k → p.lap = 1 → p.src = some n → p.kids = [] → p.outs = [src.toNat] → p.done = false →
    ∃ t, exec (.reply src) s = .next t ∧
      queuedTo t.dev n (.reply k 1 (if v = .empty then (if p.found then .blocked else .opened) else v)
        (if v = .blocked then p.reach || reach else if v = .empty then p.reach else false)) ∧
      t.dev.blu.parts.map (·.done) = [true]

/-! ### Moorings (13) -/

/-- MOOR (R231): the checks in their order; a key that names no mooring takes the lowest FREE record, QUEUED, with a reference, and
counts a miss; one that names a mooring of the same size adds a reference, or none to one held, and counts a hit. -/
def Rule.Moor : Prop :=
  ∀ (s : State) (k : CmdId) (x : Cmd) (key : W64) (backing size : Nat) (c : CtxRec), awake s.dev 11 = true → atIssueOf s.dev k x →
    x.spec.op = .moor key backing size → x.spec.sigs = [] → x.moors = [] → c = ctxAt s.dev (ctxIdx x.ctx) →
    (key = 0 ∨ backing % 64 ≠ 0 ∨ size = 0 ∨ size % 64 ≠ 0 →
      ∃ t, exec (.moor k) s = .next t ∧
        (cmdAt t.dev k).map (fun x => (x.status, x.fault.map (·.cause))) = some (some stFaulted, some 0x64)) ∧
    (key ≠ 0 → backing % 64 = 0 → size ≠ 0 → size % 64 = 0 →
      (arenaGranules s.dev < granulesOf size →
        ∃ t, exec (.moor k) s = .next t ∧
          (cmdAt t.dev k).map (fun x => (x.status, x.fault.map (·.cause))) = some (some stFaulted, some 0x63)) ∧
      (∀ m, granulesOf size ≤ arenaGranules s.dev → mooringOf s.dev x.ctx key = none → refStoreFull s.dev = false →
        freeMoor s.dev = some m →
        ∃ t, exec (.moor k) s = .next t ∧
          moorAt t.dev m = { key := key, sealCtx := if c.secrecy = .sealed then x.ctx else 0,
                             pid := if c.secrecy = .sealed then 0 else c.pid, st := .queued, size := size,
                             order := s.dev.mmg.order } ∧
          t.dev.mmg.refs = s.dev.mmg.refs ++
            [{ ctx := x.ctx, moor := m, backing := backing, slot := freeSlot s.dev.mmg.refs }] ∧
          (ctxAt t.dev (ctxIdx x.ctx)).mooringsHeld = c.mooringsHeld + 1 ∧
          fld t.dev fMmgMisses = min (fld s.dev fMmgMisses + 1) (2 ^ 16 - 1) ∧
          (cmdAt t.dev k).map (fun x => (x.phase, x.status)) = some (.complete, some stOk)) ∧
      (∀ m, granulesOf size ≤ arenaGranules s.dev → mooringOf s.dev x.ctx key = some m →
        ((moorAt s.dev m).size ≠ size →
          ∃ t, exec (.moor k) s = .next t ∧
            (cmdAt t.dev k).map (fun x => (x.status, x.fault.map fun f => (f.cause, f.argA))) =
              some (some stFaulted, some (0x61, m))) ∧
        ((moorAt s.dev m).size = size → holdsRef s.dev x.ctx m = true ∨ refStoreFull s.dev = false →
          ∃ t, exec (.moor k) s = .next t ∧ t.dev.mmg.moors = s.dev.mmg.moors ∧
            t.dev.mmg.refs = s.dev.mmg.refs ++
              (if holdsRef s.dev x.ctx m then []
                else [{ ctx := x.ctx, moor := m, backing := backing, slot := freeSlot s.dev.mmg.refs }]) ∧
            fld t.dev fMmgHits = min (fld s.dev fMmgHits + 1) (2 ^ 16 - 1) ∧
            (cmdAt t.dev k).map (fun x => (x.phase, x.status)) = some (.complete, some stOk))))

/-- UNMOOR (R230, R232, R236): the reference goes and the command completes OK; the mooring goes with its last reference where it is LOST, or
not RESIDENT and without uses, and stays otherwise; a key without a reference of the context faults with cause 0x60. -/
def Rule.Unmoor : Prop :=
  ∀ (s : State) (k : CmdId) (x : Cmd) (key : W64), awake s.dev 11 = true → atIssueOf s.dev k x → x.spec.op = .unmoor key →
    x.spec.sigs = [] → x.moors = [] →
    (mooringOf s.dev x.ctx key = none →
      ∃ t, exec (.unmoor k) s = .next t ∧
        (cmdAt t.dev k).map (fun x => (x.status, x.fault.map fun f => (f.cause, f.argA))) =
          some (some stFaulted, some (0x60, 0xFFFFFFFF))) ∧
    (∀ m, mooringOf s.dev x.ctx key = some m → holdsRef s.dev x.ctx m = false →
      ∃ t, exec (.unmoor k) s = .next t ∧
        (cmdAt t.dev k).map (fun x => (x.status, x.fault.map fun f => (f.cause, f.argA))) = some (some stFaulted, some (0x60, m))) ∧
    (∀ m, mooringOf s.dev x.ctx key = some m → holdsRef s.dev x.ctx m = true →
      ∃ t, exec (.unmoor k) s = .next t ∧
        t.dev.mmg.refs = (s.dev.mmg.refs.filter fun y => !(y.ctx = x.ctx && y.moor = m)) ∧
        moorAt t.dev m = (if ((moorAt s.dev m).uses = 0 ∨ (moorAt s.dev m).st = .lost) ∧ (moorAt s.dev m).st ≠ .resident ∧
          (∀ y ∈ s.dev.mmg.refs, y.moor = m → y.ctx = x.ctx) then {} else moorAt s.dev m) ∧
        (cmdAt t.dev k).map (fun x => (x.phase, x.status)) = some (.complete, some stOk))

/-- MOORING_LOAD_START (R234, R235): the QUEUED mooring that was moored first takes the granules that fit lowest, is LOADING from its
oldest LIVE reference, and its first line is asked for; where none fits and nothing idle can go, MMG event 2 is raised, once. -/
def Rule.LoadStart : Prop :=
  ∀ (s : State) (m : BitVec 12) (r : Mooring) (x : MoorRef) (xs : List MoorRef) (c : CtxRec), awake s.dev 11 = true →
    r = moorAt s.dev m.toNat →
    (r.st ≠ .queued → exec (.mooringLoadStart m) s = .next s) ∧
    (r.st = .queued → flag s.dev (fQuiesced 8) = false → (∀ e ∈ s.dev.mmg.moors, e.2.st = .queued → r.order ≤ e.2.order) →
      liveRefs s.dev m.toNat = x :: xs → c = ctxAt s.dev (ctxIdx x.ctx) →
      (∀ g, fitFor s.dev (granulesOf r.size) = some g → 0 < r.size →
        ∃ t, exec (.mooringLoadStart m) s = .next t ∧
          moorAt t.dev m.toNat = { r with st := .loading, off := g * granule, loaded := 0, fullReported := false, loader := x.ctx,
                                          source := x.backing } ∧
          t.dev.memOut.getLast? = some (.moorRead c.asid c.keyid c.pid x.backing)) ∧
      (fitFor s.dev (granulesOf r.size) = none → idleMoor s.dev = none →
        (r.fullReported = true → exec (.mooringLoadStart m) s = .next s) ∧
        (r.fullReported = false →
          exec (.mooringLoadStart m) s =
            .next { s with dev := raiseEvent (putMoor s.dev m.toNat { r with fullReported := true }) 8 2 })))

/-- R234: the granules that first fit finds lie in the arena and belong to no mooring that holds granules. -/
def Rule.GranulesFit : Prop :=
  ∀ (d : Dev) (n g : Nat), fitFor d n = some g →
    g + n ≤ arenaGranules d ∧
    ∀ e ∈ d.mmg.moors, e.2.placed = true →
      (g + n) * granule ≤ e.2.off ∨ e.2.off + granulesOf e.2.size * granule ≤ g * granule

/-- MOORING_LOAD_LINE and MOORING_LOADED (R66, R235): a line of the backing copy of a LIVE loader is written at LOAD_VA + OFFSET plus its
place, and 64 bytes more are loaded; one of a loader that is no longer LIVE is dropped. After the last line the mooring is RESIDENT, before
it nothing changes. -/
def Rule.LoadLines : Prop :=
  ∀ (s : State) (m : BitVec 12) (l : Line) (r : Mooring) (c : CtxRec), awake s.dev 11 = true → r = moorAt s.dev m.toNat →
    r.st = .loading → c = ctxAt s.dev (ctxIdx r.loader) →
    (r.loaded < r.size →
      (ctxLive s.dev r.loader = true →
        ∃ t, exec (.mooringLoadLine m l) s = .next t ∧ moorAt t.dev m.toNat = { r with loaded := r.loaded + 64 } ∧
          t.dev.memOut = s.dev.memOut ++ [.moorWrite c.asid c.keyid c.pid (s.dev.scu.cfg.loadVa + r.off + r.loaded) l] ++
            (if r.loaded + 64 < r.size then [.moorRead c.asid c.keyid c.pid (r.source + (r.loaded + 64))] else [])) ∧
      (ctxLive s.dev r.loader = false → exec (.mooringLoadLine m l) s = .next s) ∧
      exec (.mooringLoaded m) s = .next s) ∧
    (r.size ≤ r.loaded →
      exec (.mooringLoadLine m l) s = .next s ∧
      ∃ t, exec (.mooringLoaded m) s = .next t ∧ moorAt t.dev m.toNat = { r with st := .resident })

/-- LOAD_RESTART (R236): a load whose read failed, or whose loader's context is DYING, begins again from the next LIVE reference and is
counted; with none left the mooring is LOST and MMG event 1 is raised; a good answer of a LIVE loader changes nothing. -/
def Rule.LoadRestart : Prop :=
  ∀ (s : State) (m : BitVec 12) (resp : MemResp) (r : Mooring), awake s.dev 11 = true → r = moorAt s.dev m.toNat →
    r.st = .loading → r.loaded < r.size →
    (resp = .ok → ctxLive s.dev r.loader = true → exec (.loadRestart m resp) s = .next s) ∧
    (resp ≠ .ok ∨ ctxLive s.dev r.loader = false →
      (∀ x, nextRef s.dev m.toNat = some x →
        ∃ t, exec (.loadRestart m resp) s = .next t ∧
          moorAt t.dev m.toNat = { r with loader := x.ctx, source := x.backing, loaded := 0 } ∧
          fld t.dev fMmgRestarts = min (fld s.dev fMmgRestarts + 1) (2 ^ 16 - 1)) ∧
      (nextRef s.dev m.toNat = none → refsOf s.dev m.toNat ≠ 0 →
        ∃ t, exec (.loadRestart m resp) s = .next t ∧ (moorAt t.dev m.toNat).st = .lost ∧ fbit t.dev (fIrqRaw 8) 1 = true))

/-- MOORING_POISON (R237, R238): a report on a RESIDENT mooring with a LIVE reference makes it POISONED, records the granule for repair,
shows mooring and granule and raises MMG event 0; the command that read it is affected. Without a report nothing changes. -/
def Rule.MooringPoison : Prop :=
  ∀ (s : State), awake s.dev 11 = true →
    (s.dev.mmg.poison = [] → exec .mooringPoison s = .next s) ∧
    (∀ k a rest m r g c, s.dev.mmg.poison = (k, a) :: rest → moorAtAddr s.dev a = some m → m < 4096 → r = moorAt s.dev m →
      r.st = .resident → r.repair = [] → liveRefs s.dev m ≠ [] → g = (a - s.dev.scu.cfg.arenaVa - r.off) / granule → g < 2 ^ 20 →
      cmdAt s.dev k = some c → c.phase = .issued → c.status = none → tilesOut s.dev k ≠ 0 →
      ∃ t, exec .mooringPoison s = .next t ∧ t.dev.mmg.poison = rest ∧
        (moorAt t.dev m).st = .poisoned ∧ (moorAt t.dev m).repair = [g] ∧ (moorAt t.dev m).poisons = r.poisons + 1 ∧
        fld t.dev fMmgPoisonIndex = m ∧ fld t.dev fMmgPoisonGranule = g ∧
        fld t.dev fMmgPoisonSeq = (fld s.dev fMmgPoisonSeq + 1) % 2 ^ 32 ∧ fbit t.dev (fIrqRaw 8) 0 = true ∧
        (cmdAt t.dev k).map (fun x => (x.phase, x.slices, x.hit)) = some (.affected, [], c.hit.filter (· ≠ m) ++ [m]))

/-- GRANULE_REPAIRED (R238): before the granule's last line nothing changes; after the last granule recorded the mooring is RESIDENT;
with another recorded, the repair goes on with that one. -/
def Rule.GranuleRepaired : Prop :=
  ∀ (s : State) (m : BitVec 12) (r : Mooring) (g : Nat) (rest : List Nat), awake s.dev 11 = true → r = moorAt s.dev m.toNat →
    r.st = .poisoned → r.repair = g :: rest →
    (g * granule + r.loaded < min r.size ((g + 1) * granule) → exec (.granuleRepaired m) s = .next s) ∧
    (min r.size ((g + 1) * granule) ≤ g * granule + r.loaded →
      (rest = [] →
        ∃ t, exec (.granuleRepaired m) s = .next t ∧ (moorAt t.dev m.toNat).st = .resident ∧ (moorAt t.dev m.toNat).repair = []) ∧
      (rest ≠ [] → liveRefs s.dev m.toNat ≠ [] →
        ∃ t, exec (.granuleRepaired m) s = .next t ∧ (moorAt t.dev m.toNat).st = .poisoned ∧
          (moorAt t.dev m.toNat).repair = rest ∧ (moorAt t.dev m.toNat).loaded = 0))

/-- MMG_READ (R241, R348): the staging area holds the words of the record that the waiting READ selected, or MMG_SEL where none waits, and the
command ends DONE with BUSY 0; the record of a mooring of a Sealed domain is refused and counted, in every state of S. -/
def Rule.MmgRead : Prop :=
  ∀ (s : State) (m : Nat), awake s.dev 11 = true →
    (s.dev.mmg.cmd = some (1, m) ∨ s.dev.mmg.cmd = none ∧ flag s.dev fMmgBusy = false ∧ m = fld s.dev fMmgSel) →
    ((moorAt s.dev m).sealCtx = 0 →
      ∃ t, exec .mmgRead s = .next t ∧ t.dev.mmg.cmd = none ∧ flag t.dev fMmgBusy = false ∧ fld t.dev fMmgResult = 0 ∧ fld t.dev fMmgSeq = (fld s.dev fMmgSeq + 1) % 2 ^ 32 ∧
        ∀ i, i < 32 → reg t.dev 8 (0x100 + 8 * i) = (moorWords s.dev m).getD i 0) ∧
    ((moorAt s.dev m).sealCtx ≠ 0 →
      ∃ t, exec .mmgRead s = .next t ∧ fld t.dev fMmgResult = 3 ∧ fld t.dev fMmgSeq = (fld s.dev fMmgSeq + 1) % 2 ^ 32 ∧
        fld t.dev fSecRefused = min (fld s.dev fSecRefused + 1) (2 ^ 32 - 1) ∧
        ∀ i, i < 32 → reg t.dev 8 (0x100 + 8 * i) = reg s.dev 8 (0x100 + 8 * i))
/-! ### The fabric: enumeration, census, routes (16) -/

/-- The last packet that left, with its link, as its body. -/
def lastSent (d : Dev) : Option (Nat × Payload) := (d.fsa.sent.getLast?).map fun x => (x.1, x.2.body)

/-- ENUM_START (R278, R279): at a root that is neither busy nor quiesced a new epoch begins, and the token goes out on the lowest link
that may take it, one hop further than the root; while an enumeration or a census runs it is remembered; a node that is no root
ignores it. -/
def Rule.EnumStart : Prop :=
  ∀ (s : State), awake s.dev 12 = true →
    (isRoot s.dev = false → exec .enumStart s = .next s) ∧
    (isRoot s.dev = true → flag s.dev fFsaEnumBusy = true ∨ s.dev.fsa.censusOn = true →
      exec .enumStart s = .next { s with dev := modFsa s.dev fun x => { x with startDue := true } }) ∧
    (∀ k : Nat, isRoot s.dev = true → flag s.dev fFsaEnumBusy = false → s.dev.fsa.censusOn = false →
      flag s.dev (fQuiesced 9) = false → linkUsable s.dev k = true → (linkAt s.dev k).st ≠ .foreign → k < 48 →
      (∀ j, j < k → linkUsable s.dev j = false) →
      ∃ t, exec .enumStart s = .next t ∧ t.dev.fsa.epoch = some ((s.dev.fsa.lastEpoch + 1) % 2 ^ 16) ∧
        flag t.dev fFsaEnumBusy = true ∧ t.dev.fsa.tokenAt = some k ∧
        lastSent t.dev = some (k, .enumTok (BitVec.ofNat 16 ((s.dev.fsa.lastEpoch + 1) % 2 ^ 16))
          (BitVec.ofNat 32 (fld s.dev fFsaId)) (BitVec.ofNat 32 (fld s.dev fFsaId))
          (BitVec.ofNat 32 (max s.dev.fsa.next (fld s.dev fFsaId + 1))) 1))

/-- ENUM (R279): a token of another root makes the link FOREIGN and is answered NAK_FOREIGN; one of the present epoch makes it CROSS and
is answered NAK_VISITED; one of a new epoch makes its link the way to the parent, and a node without an ID takes NEXT, or its
fixed ID where it is pinned. -/
def Rule.EnumToken : Prop :=
  ∀ (s : State) (link : BitVec 6) (a : Nat) (p : Packet) (epoch : BitVec 16) (root base next hops : W32), awake s.dev 12 = true →
    s.dev.fsa.links.length = 48 →
    (link.toNat ≥ 48 → exec (.enumToken link) s = .refused .reservedOperand) ∧
    (link.toNat < 48 → nextIn s.dev link.toNat = none → exec (.enumToken link) s = .next s) ∧
    (link.toNat < 48 → linkUsable s.dev link.toNat = true → nextIn s.dev link.toNat = some (a, p) →
      p.body = .enumTok epoch root base next hops →
      (s.dev.fsa.rootId ≠ 0 → root.toNat ≠ s.dev.fsa.rootId →
        ∃ t, exec (.enumToken link) s = .next t ∧ (linkAt t.dev link.toNat).st = .foreign ∧
          lastSent t.dev = some (link.toNat, .enumReply .nakForeign 0 (BitVec.ofNat 32 (fld s.dev fFsaId)))) ∧
      (s.dev.fsa.rootId = 0 ∨ root.toNat = s.dev.fsa.rootId →
        (s.dev.fsa.epoch = some epoch.toNat →
          ∃ t, exec (.enumToken link) s = .next t ∧ (linkAt t.dev link.toNat).st = .cross ∧
            lastSent t.dev = some (link.toNat, .enumReply .nakVisited 0 (BitVec.ofNat 32 (fld s.dev fFsaId)))) ∧
        (s.dev.fsa.epoch ≠ some epoch.toNat → flag s.dev fFsaPinned = false →
          ∃ t, exec (.enumToken link) s = .next t ∧ t.dev.fsa.epoch = some epoch.toNat ∧ t.dev.fsa.parent = some link.toNat ∧
            t.dev.fsa.rootId = root.toNat ∧ (linkAt t.dev link.toNat).st = .parent ∧
            fld t.dev fFsaId = (if fld s.dev fFsaId = 0 then next.toNat else fld s.dev fFsaId) ∧
            fld t.dev fFsaDepth = min hops.toNat (2 ^ 24 - 1))))

/-- The link state that an answer to the token gives (R279). -/
def ansLink : EnumAns → LinkSt
  | .done => .child | .nakVisited => .cross | .nakForeign => .foreign

/-- ENUM_REPLY (R279): the answer from the link that holds the token fixes the link's state and its neighbour; an answer from another
link is taken and changes neither. -/
def Rule.EnumReply : Prop :=
  ∀ (s : State) (link : BitVec 6) (a : Nat) (p : Packet) (ans : EnumAns) (next id : W32), awake s.dev 12 = true →
    s.dev.fsa.links.length = 48 → link.toNat < 48 → nextIn s.dev link.toNat = some (a, p) → p.body = .enumReply ans next id →
    isRoot s.dev = false →
    (s.dev.fsa.tokenAt = some link.toNat →
      ∃ t, exec (.enumReply link) s = .next t ∧ (linkAt t.dev link.toNat).st = ansLink ans ∧
        (linkAt t.dev link.toNat).nbr = id.toNat) ∧
    (s.dev.fsa.tokenAt ≠ some link.toNat →
      ∃ t, exec (.enumReply link) s = .next t ∧ t.dev.fsa.links = s.dev.fsa.links ∧ t.dev.regs = s.dev.regs)

/-- CENSUS (R280, R282): asked by its parent, a node without children reports itself; a new ID at the end of its path is taken and FSA
event 3 raised, and before its end it goes on down the tree; a report of a change goes on to the parent. -/
def Rule.Census : Prop :=
  ∀ (s : State) (link : BitVec 6) (a : Nat) (p : Packet) (m : CensusMsg), awake s.dev 12 = true → link.toNat < 48 →
    nextIn s.dev link.toNat = some (a, p) → p.body = .census m → isRoot s.dev = false →
    (m = .ask → s.dev.fsa.parent = some link.toNat → linkUsable s.dev link.toNat = true →
      (∀ k, k < 48 → (linkAt s.dev k).st ≠ .child) →
      ∃ t, exec (.census link) s = .next t ∧ lastSent t.dev = some (link.toNat, .census (.report [([], ownReport s.dev)]))) ∧
    (∀ id, m = .newId [] id →
      ∃ t, exec (.census link) s = .next t ∧ fld t.dev fFsaId = id.toNat ∧ fbit t.dev (fIrqRaw 9) 3 = true) ∧
    (∀ k r id, m = .newId (k :: r) id → linkUsable s.dev k.toNat = true →
      ∃ t, exec (.census link) s = .next t ∧ lastSent t.dev = some (k.toNat, .census (.newId r id)) ∧ t.dev.regs = s.dev.regs) ∧
    (∀ up k, m = .change up → s.dev.fsa.parent = some k → linkUsable s.dev k = true →
      ∃ t, exec (.census link) s = .next t ∧ lastSent t.dev = some (k, .census (.change up)))

/-- ROUTE (R281, R282): at the end of its path the primary and alternate links of a destination are installed in one step and the
destination is ACTIVE, unless it is quarantined; marked absent, it has no route and is ABSENT; before the end of its path the
packet goes on. -/
def Rule.Route : Prop :=
  ∀ (s : State) (link : BitVec 6) (a : Nat) (p : Packet) (path : List (BitVec 6)) (dst : W32) (pr al : BitVec 6) (absent : Bool),
    awake s.dev 12 = true → link.toNat < 48 → nextIn s.dev link.toNat = some (a, p) → p.body = .route path dst pr al absent →
    dst.toNat ≠ fld s.dev fFsaId →
    (path = [] → absent = false → pr.toNat < 48 →
      ∃ t, exec (.route link) s = .next t ∧ (partnerAt t.dev dst.toNat).primary = some pr.toNat ∧
        (partnerAt t.dev dst.toNat).alternate = (if al.toNat < 48 then some al.toNat else none) ∧
        (partnerAt t.dev dst.toNat).st =
          (if (partnerAt s.dev dst.toNat).st = .quarantined then .quarantined else .active)) ∧
    (path = [] → absent = true →
      ∃ t, exec (.route link) s = .next t ∧ (partnerAt t.dev dst.toNat).primary = none ∧
        (partnerAt t.dev dst.toNat).alternate = none ∧
        (partnerAt t.dev dst.toNat).st =
          (if (partnerAt s.dev dst.toNat).st = .quarantined then .quarantined else .absent)) ∧
    (∀ k r, path = k :: r → linkUsable s.dev k.toNat = true →
      ∃ t, exec (.route link) s = .next t ∧ lastSent t.dev = some (k.toNat, .route r dst pr al absent) ∧
        t.dev.fsa.partners = s.dev.fsa.partners)

/-- ISOLATE (R280): at the end of its path the node is ISOLATED and FSA event 3 is raised; before it the packet goes on. -/
def Rule.Isolate : Prop :=
  ∀ (s : State) (link : BitVec 6) (a : Nat) (p : Packet) (path : List (BitVec 6)), awake s.dev 12 = true → link.toNat < 48 →
    nextIn s.dev link.toNat = some (a, p) → p.body = .isolate path →
    (path = [] → ∃ t, exec (.isolate link) s = .next t ∧ fld t.dev fFsaState = 2 ∧ fbit t.dev (fIrqRaw 9) 3 = true) ∧
    (∀ k r, path = k :: r → linkUsable s.dev k.toNat = true →
      ∃ t, exec (.isolate link) s = .next t ∧ lastSent t.dev = some (k.toNat, .isolate r) ∧ t.dev.regs = s.dev.regs)

/-- LINK_DOWN and LINK_UP (R282): a level that is already so changes nothing; with the FSA in reset only the level is kept; otherwise FSA
event 2 is raised, and of a partner whose primary link fell the alternate becomes the primary, or, without one, it is ABSENT. -/
def Rule.LinkLevels : Prop :=
  ∀ (s : State) (link : BitVec 6), link.toNat < 48 → s.dev.fsa.links.length = 48 →
    ((linkAt s.dev link.toNat).up = false → exec (.linkDown link) s = .next s) ∧
    ((linkAt s.dev link.toNat).up = true → exec (.linkUp link) s = .next s) ∧
    (inReset s.dev 12 = true →
      ((linkAt s.dev link.toNat).up = true →
        exec (.linkDown link) s = .next { s with dev := modLink s.dev link.toNat fun l => { l with up := false } }) ∧
      ((linkAt s.dev link.toNat).up = false →
        exec (.linkUp link) s = .next { s with dev := modLink s.dev link.toNat fun l => { l with up := true } })) ∧
    (awake s.dev 12 = true → (linkAt s.dev link.toNat).up = false →
      ∃ t, exec (.linkUp link) s = .next t ∧ (linkAt t.dev link.toNat).up = true ∧ fbit t.dev (fIrqRaw 9) 2 = true) ∧
    (awake s.dev 12 = true → (linkAt s.dev link.toNat).up = true → isRoot s.dev = false →
      ∃ t, exec (.linkDown link) s = .next t ∧ (linkAt t.dev link.toNat).up = false ∧ fbit t.dev (fIrqRaw 9) 2 = true ∧
        ∀ n p, s.dev.fsa.partners = [(n, p)] → p.primary = some link.toNat → p.st = .active →
          (∀ b, p.alternate = some b → b ≠ link.toNat → linkUsable s.dev b = true →
            (partnerAt t.dev n).primary = some b ∧ (partnerAt t.dev n).alternate = none) ∧
          (p.alternate = none → (partnerAt t.dev n).primary = none ∧ (partnerAt t.dev n).st = .absent))

/-- LINK_SESSION_KEY (R24, R284): the key is installed with the far end's link and role, and both packet counters start at 0; a link number
above 47 is refused. While the FSA is in reset a key and a packet stay raised at its crossing, in the order in which they came. -/
def Rule.LinkSessionKey : Prop :=
  ∀ (s : State) (sel : BitVec 16) (key : BitVec 256),
    ((sel.extractLsb' 0 6).toNat < 48 → (sel.extractLsb' 6 6).toNat < 48 →
      (awake s.dev 12 = true → s.dev.fsa.links.length = 48 →
        ∃ t, exec (.linkSessionKey sel key) s = .next t ∧
          linkAt t.dev (sel.extractLsb' 0 6).toNat = { linkAt s.dev (sel.extractLsb' 0 6).toNat with
            key := some key, far := (sel.extractLsb' 6 6).toNat, role := sel.getLsbD 12, tx := 0, rx := 0 } ∧
          ∀ j, j ≠ (sel.extractLsb' 0 6).toNat → linkAt t.dev j = linkAt s.dev j) ∧
      (inReset s.dev 12 = true → exec (.linkSessionKey sel key) s =
        .next { s with dev := modFsa s.dev fun x => { x with held := x.held ++ [.key sel key] } })) ∧
    (∀ (link : BitVec 6) (arrive : BitVec 16) (p : SealedPacket), link.toNat < 48 → inReset s.dev 12 = true →
      exec (.fabricPacketReceive link arrive p) s =
        .next { s with dev := modFsa s.dev fun x => { x with held := x.held ++ [.packet link.toNat arrive.toNat p] } }) ∧
    (48 ≤ (sel.extractLsb' 0 6).toNat ∨ 48 ≤ (sel.extractLsb' 6 6).toNat →
      exec (.linkSessionKey sel key) s = .refused .reservedOperand)

/-! ### The fabric: packets (16) -/

/-- Packets that belong to a partner: neither enumeration nor tide packets, nor a reserved PKIND (R283). -/
def ofPartner : Payload → Bool
  | .signal .. | .sigNotice .. | .waitReg .. | .waitMet .. | .waitEnd .. | .waitQuery .. | .declQuery .. | .reply .. | .capNote ..
  | .ackOnly => true
  | .enumTok .. | .enumReply .. | .census _ | .route .. | .isolate _ | .tideSync .. | .routeSet .. | .reserved _ => false

/-- FABRIC_PACKET_RECEIVE (R284, R285, R294): on a link that is down or quarantined nothing changes; a packet whose key, nonce or tag is
wrong advances the link's counter, counts in AUTH_FAIL and goes no further; a good packet of a partner with the PSEQ expected, on
its route and within its rate, joins the inbound buffer, and the next PSEQ is expected; one with a later PSEQ is dropped. -/
def Rule.PacketReceive : Prop :=
  ∀ (s : State) (link : BitVec 6) (arrive : BitVec 16) (p : SealedPacket) (l : LinkRec) (n : Nat) (r : Partner),
    awake s.dev 12 = true → link.toNat < 48 → s.dev.fsa.links.length = 48 → l = linkAt s.dev link.toNat → n = p.pkt.src.toNat →
    r = partnerAt s.dev n →
    (linkUsable s.dev link.toNat = false → exec (.fabricPacketReceive link arrive p) s = .next s) ∧
    (linkUsable s.dev link.toNat = true → l.nbr = 0 →
      ¬ (l.key = some p.key ∧ p.nonce = rxNonce s.dev link.toNat ∧ p.intact = true) →
      exec (.fabricPacketReceive link arrive p) s =
        .next ⟨incSat (modLink s.dev link.toNat fun x => { x with rx := x.rx + 1 }) fFsaAuthFail, s.pending⟩) ∧
    (linkUsable s.dev link.toNat = true → l.key = some p.key → p.nonce = rxNonce s.dev link.toNat → p.intact = true →
      p.e2eOk = true → ofPartner p.pkt.body = true → p.pkt.body ≠ .ackOnly → fld s.dev fFsaState ≠ 2 → l.st ≠ .foreign →
      p.pkt.dest.toNat = fld s.dev fFsaId → r.st = .active → r.primary = some link.toNat →
      r.session = some p.pkt.session.toNat → r.rateLim ≠ 0 → s.dev.now < r.rateStart + 1000 → r.rate < r.rateLim →
      r.expect < 2 ^ 32 →
      (p.pkt.pseq.toNat = r.expect →
        ∃ t, exec (.fabricPacketReceive link arrive p) s = .next t ∧
          (partnerAt t.dev n).inbox = r.inbox ++ [p.pkt] ∧ (partnerAt t.dev n).expect = (r.expect + 1) % 2 ^ 32 ∧
          (linkAt t.dev link.toNat).rx = l.rx + 1) ∧
      (r.expect < p.pkt.pseq.toNat → p.pkt.pseq.toNat < r.expect + 2 ^ 31 →
        ∃ t, exec (.fabricPacketReceive link arrive p) s = .next t ∧
          (partnerAt t.dev n).inbox = r.inbox ∧ (partnerAt t.dev n).expect = r.expect))

/-- PACKET_RESEND (R285): a packet not acknowledged within RESEND_US leaves again as it was, on the primary link; before that, and
towards a node that cannot be reached, nothing leaves. -/
def Rule.PacketResend : Prop :=
  ∀ (s : State) (node : BitVec 32) (o : OutPkt) (l u k : Nat), awake s.dev 12 = true →
    (reachable s.dev node.toNat = false → exec (.packetResend node) s = .next s) ∧
    (reachable s.dev node.toNat = true → (partnerAt s.dev node.toNat).primary = some l →
      (partnerAt s.dev node.toNat).queue = [o] → o.sent = some (u, k) →
      (u + us (fld s.dev fFsaResendUs) ≤ s.dev.now →
        ∃ t, exec (.packetResend node) s = .next t ∧
          t.dev.fsa.sent = s.dev.fsa.sent ++ [(l, mkPacket s.dev node.toNat o.credit o.pseq o.body)] ∧
          (partnerAt t.dev node.toNat).queue = [{ o with sent := some (s.dev.now, l) }]) ∧
      (s.dev.now < u + us (fld s.dev fFsaResendUs) → exec (.packetResend node) s = .next s))

/-- SIGNAL (R288, R289): a signal whose identity is remembered is not applied again; one that passes the owner's checks, at a bollard on
which nothing waits, gives VALUE what its operation makes of it and its identity is remembered; one that is refused leaves VALUE
and sends a SIG_NOTICE with the reason. Each is taken from the inbound buffer. -/
def Rule.RemoteSignal : Prop :=
  ∀ (s : State) (src : BitVec 32) (q : Packet) (h : W32) (v cap : W64) (op : BitVec 4) (ref : BitVec 40) (line : BitVec 16)
    (entry : BitVec 3) (i : Nat), awake s.dev 6 = true → headIn s.dev src.toNat = some q →
    q.body = .signal h v cap op ref line entry → i = bolIdx h.toNat →
    ((∃ x ∈ s.dev.fsa.idents, x.src = src.toNat ∧ x.ref = ref.toNat ∧ x.line = line.toNat ∧ x.entry = entry.toNat) →
      ∃ t, exec (.signal src) s = .next t ∧ t.dev.blu = s.dev.blu ∧ t.dev.fsa.idents = s.dev.fsa.idents ∧
        (partnerAt t.dev src.toNat).inbox = (partnerAt s.dev src.toNat).inbox.drop 1) ∧
    (s.dev.fsa.idents = [] → hot s.dev (bolRecs s.dev h.toNat) → (∀ w ∈ s.dev.blu.waits, w.bol ≠ i) →
      (∀ w, remoteTest s.dev src.toNat h.toNat cap = none → sigOp (bolAt s.dev i) op.toNat v = .ok w →
        ∃ t, exec (.signal src) s = .next t ∧ (bolAt t.dev i).value = w ∧
          t.dev.fsa.idents = [{ src := src.toNat, ref := ref.toNat, line := line.toNat, entry := entry.toNat,
                                lsn := s.dev.lbu.nextLsn }] ∧
          (partnerAt t.dev src.toNat).inbox = (partnerAt s.dev src.toNat).inbox.drop 1) ∧
      (∀ row, remoteTest s.dev src.toNat h.toNat cap = some row → badRow row = false → reachable s.dev src.toNat = true →
        ∃ t, exec (.signal src) s = .next t ∧ (bolAt t.dev i).value = (bolAt s.dev i).value ∧
          queuedTo t.dev src.toNat (.sigNotice ref line entry h row) ∧
          (partnerAt t.dev src.toNat).inbox = (partnerAt s.dev src.toNat).inbox.drop 1))

/-- SIG_NOTICE, WAIT_MET, WAIT_END, CAP_NOTE (R175, R178, R288, R290): a notice counts in BLU_REJ_CNT.REMOTE; the end of a wait at
another node returns its share and, met, lets the command go on, or ends it with the status it names; a note of a capability shows
node and handle, and raises FSA event 4. -/
def Rule.PartnerNotices : Prop :=
  ∀ (s : State) (src : BitVec 32), awake s.dev 6 = true → awake s.dev 12 = true →
    (∀ ref line entry h row, firstIn s.dev src.toNat = some (.sigNotice ref line entry h row) → row ≠ .backward →
      ∃ t, exec (.sigNotice src) s = .next t ∧ fld t.dev fBluRejRemote = min (fld s.dev fBluRejRemote + 1) (2 ^ 16 - 1) ∧
        t.dev.blu = s.dev.blu ∧ t.dev.cmds = s.dev.cmds) ∧
    (∀ w e time k c, firstIn s.dev src.toNat = some (.waitMet w e time) → awayOf s.dev src.toNat w.toNat e.toNat = some k →
      cmdAt s.dev k = some c → c.spin = none →
      ∃ t, exec (.waitMet src) s = .next t ∧ (cmdAt t.dev k).map (fun x => (x.met, x.regd)) = some (c.met + 1, false) ∧
        (partnerAt t.dev src.toNat).shares = (partnerAt s.dev src.toNat).shares - 1) ∧
    (∀ w e st k c, firstIn s.dev src.toNat = some (.waitEnd w e st) → awayOf s.dev src.toNat w.toNat e.toNat = some k →
      s.dev.blu.waits = [] → cmdAt s.dev k = some c → c.completeLsn = none →
      ∃ t, exec (.waitEnd src) s = .next t ∧
        (cmdAt t.dev k).map (fun x => (x.phase, x.status, x.detail)) = some (.complete, some (waitEndStatus st), e.toNat) ∧
        (partnerAt t.dev src.toNat).shares = (partnerAt s.dev src.toNat).shares - 1) ∧
    (∀ h added, firstIn s.dev src.toNat = some (.capNote h added) →
      ∃ t, exec (.capNote src) s = .next t ∧ fld t.dev fFsaImportNode = src.toNat ∧ fld t.dev fFsaImportHandle = h.toNat ∧
        flag t.dev fFsaExported = added ∧ fbit t.dev (fIrqRaw 9) 4 = true)

/-- WAIT_REG (R287, R288): without a free share the packet is kept in the inbound buffer; with one, a wait of a partner that fails its
first check is answered WAIT_END, one whose condition holds is answered WAIT_MET, and another is registered for its node and berth. -/
def Rule.RemoteRegister : Prop :=
  ∀ (s : State) (src : BitVec 32) (q : Packet) (h : W32) (v cap : W64) (cond : BitVec 4) (w : W32) (e : BitVec 3) (cont : Bool)
    (r : BolRec), awake s.dev 6 = true → headIn s.dev src.toNat = some q → q.body = .waitReg h v cap cond w e cont →
    (partnerAt s.dev src.toNat).kept = [] → r = bolAt s.dev (bolIdx h.toNat) →
    (fld s.dev fFsaShare ≤ sharesOf s.dev src.toNat →
      ∃ t, exec (.waitReg src) s = .next t ∧ (partnerAt t.dev src.toNat).kept = [q] ∧ t.dev.blu = s.dev.blu ∧
        (partnerAt t.dev src.toNat).inbox = (partnerAt s.dev src.toNat).inbox.drop 1) ∧
    (sharesOf s.dev src.toNat < fld s.dev fFsaShare → hot s.dev (bolRecs s.dev h.toNat) → reachable s.dev src.toNat = true →
      (∀ x ∈ s.dev.blu.waits, x.bol ≠ bolIdx h.toNat) →
      (remoteTest s.dev src.toNat h.toNat cap = some .stale →
        ∃ t, exec (.waitReg src) s = .next t ∧ queuedTo t.dev src.toNat (.waitEnd w e .stale) ∧
          t.dev.blu.waits = s.dev.blu.waits) ∧
      (remoteTest s.dev src.toNat h.toNat cap = none → kindOfCode cond.toNat = some r.kind → r.kind = .fence ∨ r.kind = .flag →
        (condHolds r cond.toNat v = true →
          ∃ t, exec (.waitReg src) s = .next t ∧
            queuedTo t.dev src.toNat (.waitMet w e (BitVec.ofNat 64 (tideW s.dev))) ∧ t.dev.blu.waits = s.dev.blu.waits) ∧
        (condHolds r cond.toNat v = false →
          ∃ t, exec (.waitReg src) s = .next t ∧
            t.dev.blu.waits = s.dev.blu.waits ++ [{ bol := bolIdx h.toNat, who := .away src.toNat w.toNat e.toNat,
                                                    code := cond.toNat, value := v, cont := cont }])))

/-- ACK_ONLY (R283, R286): it returns its credits and acknowledges what was sent below its ACK; without one nothing changes. -/
def Rule.AckOnly : Prop :=
  ∀ (s : State) (src : BitVec 32), awake s.dev 12 = true →
    ((partnerAt s.dev src.toNat).inbox = [] → exec (.ackOnly src) s = .next s) ∧
    (∀ q o x, (partnerAt s.dev src.toNat).inbox = [q] → q.body = .ackOnly → (partnerAt s.dev src.toNat).queue = [o] →
      o.sent = some x → 1 ≤ sub32 q.ack.toNat o.pseq → sub32 q.ack.toNat o.pseq < 2 ^ 31 → s.dev.cmds = [] →
      ∃ t, exec (.ackOnly src) s = .next t ∧ (partnerAt t.dev src.toNat).queue = [] ∧
        (partnerAt t.dev src.toNat).used = (partnerAt s.dev src.toNat).used - q.credit.toNat ∧
        (partnerAt t.dev src.toNat).inbox = [])

/-! ### The tide counter's alignment (16) -/

/-- TIDE_SYNC_SEND, TIDE_SYNC, DEPARTURE_STAMP (R291): every 100 µs a TIDE_SYNC leaves to the parent, and none before; a request from
another neighbour is answered with its arrival and the last departure to it; the departure of a stamped flit is kept as the tick
nearest the counter. -/
def Rule.TideExchange : Prop :=
  ∀ (s : State) (link : BitVec 6) (time : BitVec 16), awake s.dev 12 = true → link.toNat < 48 →
    (s.dev.fsa.parent = none → exec .tideSyncSend s = .next s) ∧
    (∀ k, s.dev.fsa.parent = some k → s.dev.fsa.tideLast ≠ 0 → s.dev.now < s.dev.fsa.tideLast + 100000 →
      exec .tideSyncSend s = .next s) ∧
    (∀ k, s.dev.fsa.parent = some k → s.dev.fsa.tideLast + 100000 ≤ s.dev.now → linkUsable s.dev k = true →
      fld s.dev fFsaState ≠ 2 →
      ∃ t, exec .tideSyncSend s = .next t ∧ t.dev.fsa.tideLast = s.dev.now ∧ lastSent t.dev = some (k, .tideSync 0 0 0)) ∧
    (nextIn s.dev link.toNat = none → exec (.tideSync link) s = .next s) ∧
    (∀ a p t1 t2 t3, nextIn s.dev link.toNat = some (a, p) → p.body = .tideSync t1 t2 t3 → fld s.dev fFsaState ≠ 2 →
      s.dev.fsa.parent ≠ some link.toNat → linkUsable s.dev link.toNat = true →
      ∃ t, exec (.tideSync link) s = .next t ∧ t.dev.regs = s.dev.regs ∧
        lastSent t.dev = some (link.toNat, .tideSync 0 (BitVec.ofNat 64 a)
          (BitVec.ofNat 64 (tget 0 s.dev.fsa.tideDep link.toNat)))) ∧
    (∀ a p t1 t2 t3, nextIn s.dev link.toNat = some (a, p) → p.body = .tideSync t1 t2 t3 → fld s.dev fFsaState ≠ 2 →
      s.dev.fsa.parent = some link.toNat → s.dev.fsa.tideSamples.length < 255 →
      ∃ t, exec (.tideSync link) s = .next t ∧ t.dev.fsa.tideHeard = some s.dev.now ∧ t.dev.regs = s.dev.regs ∧
        t.dev.tide = s.dev.tide) ∧
    (exec (.departureStamp link time) s = .next ⟨if s.dev.fsa.parent = some link.toNat
      then modFsa s.dev fun x => { x with tideCur := some (extendStamp s.dev time.toNat) }
      else modFsa s.dev fun x => { x with tideDep := tset 0 x.tideDep link.toNat (extendStamp s.dev time.toNat) }, s.pending⟩)

/-- R291: a 16-bit stamp stands for the value nearest the tide counter with those low bits. -/
def Rule.StampExtends : Prop :=
  ∀ (d : Dev) (x : Nat), d.tide < 2 ^ 64 → x < 2 ^ 16 →
    extendStamp d x % 2 ^ 16 = x ∧
    ((extendStamp d x + 2 ^ 64 - d.tide) % 2 ^ 64 < 2 ^ 15 ∨ (d.tide + 2 ^ 64 - extendStamp d x) % 2 ^ 64 ≤ 2 ^ 15)

/-- TIDE_LOST (R292): 10 ms without a TIDE_SYNC from the parent clear ALIGNED, count and raise FSA event 5, once; before that nothing
changes. -/
def Rule.TideLost : Prop :=
  ∀ (s : State) (k u : Nat), awake s.dev 12 = true → s.dev.fsa.parent = some k → s.dev.fsa.tideHeard = some u →
    (u + 10000000 ≤ s.dev.now →
      ∃ t, exec .tideLost s = .next t ∧ flag t.dev fTideAligned = false ∧ t.dev.fsa.tideHeard = none ∧
        fld t.dev fFsaTideLost = min (fld s.dev fFsaTideLost + 1) (2 ^ 16 - 1) ∧ fbit t.dev (fIrqRaw 9) 5 = true ∧
        exec .tideLost t = .next t) ∧
    (s.dev.now < u + 10000000 → exec .tideLost s = .next s)

/-! ### Partner and export commands (16) -/

/-- How a partner command ends (R295). -/
def partnerEnded (d e : Dev) (res : Nat) : Prop :=
  fld e fFsaPartnerResult = res ∧ fld e fFsaPartnerSeq = (fld d fFsaPartnerSeq + 1) % 2 ^ 32 ∧ flag e fFsaPartnerBusy = false

/-- PARTNER_READ, RELEASE, QUARANTINE (R294, R295): one written while BUSY is lost; a selection that cannot be a partner and one without
an entry have RESULT BADSEL and NOTFOUND; a read shows state, links and queue; a release of a quarantined partner makes it ACTIVE,
or ABSENT without a route, and is refused for another; a quarantine takes effect. -/
def Rule.PartnerCommands : Prop :=
  ∀ (s : State) (n : Nat) (p : Partner), awake s.dev 12 = true → n = fld s.dev fFsaPartnerSel → p = partnerAt s.dev n →
    (flag s.dev fFsaPartnerBusy = true → ∀ i ∈ [Instr.partnerRead, .release, .quarantine],
      exec i s = .next { s with dev := setFld s.dev fFsaPartnerLost 1 }) ∧
    (flag s.dev fFsaPartnerBusy = false → flag s.dev (fQuiesced 9) = false →
      (nodeOk s.dev n = false → ∀ i ∈ [Instr.partnerRead, .release, .quarantine],
        ∃ t, exec i s = .next t ∧ partnerEnded s.dev t.dev 2) ∧
      (nodeOk s.dev n = true → tfind s.dev.fsa.partners n = none → ∀ i ∈ [Instr.partnerRead, .release, .quarantine],
        ∃ t, exec i s = .next t ∧ partnerEnded s.dev t.dev 5) ∧
      (nodeOk s.dev n = true → (tfind s.dev.fsa.partners n).isSome = true →
        (∃ t, exec .partnerRead s = .next t ∧ partnerEnded s.dev t.dev 0 ∧ fld t.dev fFsaInfoState = p.st.code ∧
          fld t.dev fFsaInfoPrimary = p.primary.getD 63 % 64 ∧ fld t.dev fFsaInfoAlternate = p.alternate.getD 63 % 64 ∧
          fld t.dev fFsaInfoQueued = p.queue.length % 2 ^ 16) ∧
        (p.st = .quarantined →
          ∃ t, exec .release s = .next t ∧ partnerEnded s.dev t.dev 0 ∧
            (partnerAt t.dev n).st = (if p.primary.isSome then .active else .absent)) ∧
        (p.st ≠ .quarantined → ∃ t, exec .release s = .next t ∧ partnerEnded s.dev t.dev 3 ∧
          t.dev.fsa.partners = s.dev.fsa.partners) ∧
        (p.st ≠ .quarantined → (∀ k, k < 48 → (linkAt s.dev k).nbr ≠ n) →
          ∃ t, exec .quarantine s = .next t ∧ partnerEnded s.dev t.dev 0 ∧ (partnerAt t.dev n).st = .quarantined ∧
            fbit t.dev (fIrqRaw 9) 1 = true)))

/-- How an export command ends (R290, R295). -/
def exportEnded (d e : Dev) (res : Nat) : Prop :=
  fld e fFsaExpResult = res ∧ fld e fFsaExpSeq = (fld d fFsaExpSeq + 1) % 2 ^ 32 ∧ flag e fFsaExpBusy = false

/-- ADD, REMOVE, REMOVE_ALL (R290): one written while BUSY is lost; a handle that names no slot's owner has RESULT STALE; an ADD of a LIVE
bollard with a capability, to a node that can be a partner, adds the pair and sends it a CAP_NOTE; a REMOVE of a pair takes it away;
REMOVE_ALL takes away every pair of the bollard. -/
def Rule.ExportCommands : Prop :=
  ∀ (s : State) (n h : Nat) (r : BolRec), awake s.dev 12 = true → n = fld s.dev fFsaExpNode → h = fld s.dev fFsaExpHandle →
    r = bolAt s.dev (bolIdx h) →
    (flag s.dev fFsaExpBusy = true → ∀ i ∈ [Instr.add, .remove, .removeAll],
      exec i s = .next { s with dev := setFld s.dev fFsaExpLost 1 }) ∧
    (flag s.dev fFsaExpBusy = false → flag s.dev (fQuiesced 9) = false → hot s.dev (bolRecs s.dev h) →
      (bolOk s.dev h = false → ∀ i ∈ [Instr.add, .remove, .removeAll],
        ∃ t, exec i s = .next t ∧ exportEnded s.dev t.dev 1 ∧ t.dev.fsa.exports = s.dev.fsa.exports) ∧
      (bolOk s.dev h = true → nodeOk s.dev n = true → r.state = .live → r.cap ≠ 0 → s.dev.fsa.exports.contains (h, n) = false →
        s.dev.fsa.exports.length < 262144 →
        ∃ t, exec .add s = .next t ∧ exportEnded s.dev t.dev 0 ∧ t.dev.fsa.exports = s.dev.fsa.exports ++ [(h, n)] ∧
          (reachable s.dev n = true → queuedTo t.dev n (.capNote (BitVec.ofNat 32 h) true))) ∧
      (bolOk s.dev h = true → nodeOk s.dev n = true → s.dev.fsa.exports.contains (h, n) = true →
        ∃ t, exec .remove s = .next t ∧ exportEnded s.dev t.dev 0 ∧
          t.dev.fsa.exports = s.dev.fsa.exports.filter (· ≠ (h, n))) ∧
      (bolOk s.dev h = true →
        ∃ t, exec .removeAll s = .next t ∧ exportEnded s.dev t.dev 0 ∧
          t.dev.fsa.exports = s.dev.fsa.exports.filter fun e => e.1 ≠ h))
/-! ### Fault records and machine checks (17) -/

/-- FAULT_RECORD_WRITE (R296, R299, R300): without such an open record, or before the launched tiles of its command have drained, nothing
changes. A record whose berth has no slot pending enters the queue at PROD, which advances, and SCU event 2 is raised; with the
queue full it is PENDING in the berth's slot, counted, the berth is HALTED and event 1 raised. A fault of a berth whose slot is PENDING
takes no slot of its own: it is counted in the pending record's FOLLOWING, which its completion names. Then the command completes
FAULTED. -/
def Rule.FaultRecordWrite : Prop :=
  ∀ (s : State) (q : BitVec 32) (r : FaultRec) (rest : List FaultRec), awake s.dev 13 = true →
    ((∀ x ∈ s.dev.scu.open_, x.seq ≠ q.toNat) → exec (.faultRecordWrite q) s = .next s) ∧
    (s.dev.scu.open_ = r :: rest → r.seq = q.toNat →
      (recDrained s.dev r = false → exec (.faultRecordWrite q) s = .next s) ∧
      (recDrained s.dev r = true → r.counted = false → tfind s.dev.scu.slots (berthIdx r.berth) = none →
        ∃ t, exec (.faultRecordWrite q) s = .next t ∧ t.dev.scu.open_ = rest ∧
          (fqFull s.dev = false → tfind t.dev.scu.queue (fld s.dev fFqProd % 4096) = some r ∧
            fld t.dev fFqProd = (fld s.dev fFqProd + 1) % 2 ^ 32 ∧ fbit t.dev (fIrqRaw 0) 2 = true) ∧
          (fqFull s.dev = true → tfind t.dev.scu.slots (berthIdx r.berth) = some { r with slot := true } ∧
            t.dev.scu.pendList = s.dev.scu.pendList ++ [berthIdx r.berth] ∧ fld t.dev fFqProd = fld s.dev fFqProd ∧
            fld t.dev fFqOverflows = (fld s.dev fFqOverflows + 1) % 2 ^ 32 ∧ fbit t.dev (fIrqRaw 0) 1 = true ∧
            ((berthAt s.dev (berthIdx r.berth)).state = .live → (berthAt t.dev (berthIdx r.berth)).state = .halted)) ∧
          ∀ c, (s.dev.cmds.filter fun c => c.status = some stFaulted && c.faultSeq = q.toNat && c.completeLsn.isNone) = [c] →
            cmdAt s.dev c.key = some c →
            (cmdAt t.dev c.key).map (fun x => (x.phase, x.status, x.detail)) =
              some (if c.sigOk = [] then .complete else .closing, some stFaulted, q.toNat % 2 ^ 16)) ∧
      (∀ p, recDrained s.dev r = true → r.counted = false → tfind s.dev.scu.slots (berthIdx r.berth) = some p →
        ∃ t, exec (.faultRecordWrite q) s = .next t ∧ t.dev.scu.open_ = rest.map (fun x =>
            if x.slot = true ∧ x.seq = p.seq then { x with following := min (x.following + 1) 0xFFFF } else x) ∧
          fld t.dev fFqProd = fld s.dev fFqProd ∧ t.dev.scu.pendList = s.dev.scu.pendList ∧
          (p.slot = true → tfind t.dev.scu.slots (berthIdx r.berth) = some { p with following := min (p.following + 1) 0xFFFF }) ∧
          ∀ c, (s.dev.cmds.filter fun c => c.status = some stFaulted && c.faultSeq = q.toNat && c.completeLsn.isNone) = [c] →
            cmdAt s.dev c.key = some c →
            (cmdAt t.dev c.key).map (fun x => (x.phase, x.status, x.faultSeq, x.detail)) =
              some (if c.sigOk = [] then .complete else .closing, some stFaulted, p.seq, p.seq % 2 ^ 16)))

/-- FQ_CONS_WRITE (R299): CONS goes forward up to PROD; a value beyond PROD is ignored. -/
def Rule.FqConsWrite : Prop :=
  ∀ (s : State) (v : W64), awake s.dev 13 = true →
    ((v.toNat % 2 ^ 32 + 2 ^ 32 - fld s.dev fFqCons) % 2 ^ 32 ≤ (fld s.dev fFqProd + 2 ^ 32 - fld s.dev fFqCons) % 2 ^ 32 →
      exec (.fqConsWrite v) s = .next { s with dev := setFld s.dev fFqCons (v.toNat % 2 ^ 32) }) ∧
    ((fld s.dev fFqProd + 2 ^ 32 - fld s.dev fFqCons) % 2 ^ 32 < (v.toNat % 2 ^ 32 + 2 ^ 32 - fld s.dev fFqCons) % 2 ^ 32 →
      exec (.fqConsWrite v) s = .next s)

/-- PENDING_MOVE (R301): the record at the head of the pending list enters the queue when it has room; with the queue full, or nothing
pending, nothing changes. -/
def Rule.PendingMove : Prop :=
  ∀ (s : State), awake s.dev 13 = true →
    (s.dev.scu.pendList = [] ∨ fqFull s.dev = true → exec .pendingMove s = .next s) ∧
    (∀ b bs r, s.dev.scu.pendList = b :: bs → fqFull s.dev = false → tfind s.dev.scu.slots b = some r →
      ∃ t, exec .pendingMove s = .next t ∧ tfind t.dev.scu.queue (fld s.dev fFqProd % 4096) = some r ∧
        fld t.dev fFqProd = (fld s.dev fFqProd + 1) % 2 ^ 32 ∧ tfind t.dev.scu.slots b = none ∧
        t.dev.scu.pendList = bs.filter (· ≠ b) ∧ fbit t.dev (fIrqRaw 0) 2 = true)

/-- How a fault command ends (R307). -/
def fqEnded (d e : Dev) (res : Nat) : Prop :=
  fld e fFqResult = res ∧ fld e fFqSeq = (fld d fFqSeq + 1) % 2 ^ 32 ∧ flag e fFqBusy = false

/-- FQ_READ, TAKE, FQ_SWEEP (R301, R307, R386): a read puts the record's words into the staging registers, unless both mirrors fail; an
empty berth slot and a queue index that holds none have their RESULTs; a take clears a pending slot; a sweep finds the lowest
pending index at or above FROM. -/
def Rule.FaultCommands : Prop :=
  ∀ (s : State) (a b : MemResp) (v : W64) (i : Nat) (o : Option FaultRec), awake s.dev 13 = true → i = fld s.dev fFqSelIndex →
    o = (if flag s.dev fFqSelSrc then tfind s.dev.scu.slots i else if i < 4096 then tfind s.dev.scu.queue i else none) →
    (o = none → ∃ t, exec (.fqRead a b) s = .next t ∧ fqEnded s.dev t.dev (if flag s.dev fFqSelSrc then 6 else 2)) ∧
    (∀ r, o = some r →
      (a ≠ .ok → b ≠ .ok → ∃ t, exec (.fqRead a b) s = .next t ∧ fqEnded s.dev t.dev 4) ∧
      (a = .ok ∨ b = .ok → ∃ t, exec (.fqRead a b) s = .next t ∧ fqEnded s.dev t.dev 0 ∧
        ∀ n, n < 32 → fld t.dev (fFqData n) = ((faultWords r).getD n 0).toNat)) ∧
    (flag s.dev fFqSelSrc = false → ∃ t, exec .take s = .next t ∧ fqEnded s.dev t.dev 2 ∧ t.dev.scu = s.dev.scu) ∧
    (flag s.dev fFqSelSrc = true → (o = none → ∃ t, exec .take s = .next t ∧ fqEnded s.dev t.dev 6 ∧ t.dev.scu = s.dev.scu) ∧
      (∀ r, o = some r → ∃ t, exec .take s = .next t ∧ fqEnded s.dev t.dev 0 ∧ tfind t.dev.scu.slots i = none ∧
        t.dev.scu.pendList = s.dev.scu.pendList.filter (· ≠ i))) ∧
    (∃ t, exec (.fqSweep v) s = .next t ∧ fld t.dev fFqFrom = v.toNat % 2 ^ 22 ∧ onlyRegs s.dev t.dev ∧
      ((∀ e ∈ s.dev.scu.slots, e.1 < v.toNat % 2 ^ 22) → flag t.dev fFqFound = false ∧ fld t.dev fFqNext = 0) ∧
      (∀ e, s.dev.scu.slots.find? (fun e => v.toNat % 2 ^ 22 ≤ e.1) = some e → e.1 < 2 ^ 22 →
        flag t.dev fFqFound = true ∧ fld t.dev fFqNext = e.1))

/-- MACHINE_CHECK (R87, R303 to R305): nothing on a reserved page or while the unit is in reset; a corrected single-bit error is captured
with CLASS 0x02 and does nothing more; a code that the machine checks do not name is captured only; code 0x20 is latched with its page and address and raises SCU event 0; code 0x10 asks for a reset of the block
besides. A check that is latched already is counted, and what was latched stays. -/
def Rule.MachineCheck : Prop :=
  ∀ (s : State) (page code : BitVec 8) (addr : W64),
    (pageKind page.toNat = .reserved ∨ inReset s.dev (pageUnit page.toNat) = true →
      ∀ c, exec (.machineCheck page ⟨code, c⟩ addr) s = .next s) ∧
    (pageKind page.toNat ≠ .reserved → awake s.dev (pageUnit page.toNat) = true →
      exec (.machineCheck page ⟨code, true⟩ addr) s = .next { s with dev := logErr s.dev page.toNat 2 0x20 addr.toNat } ∧
      (pageKind page.toNat ≠ .tsq → code.toNat ∉ [0x10, 0x20, 0x21, 0x22, 0x23] →
        exec (.machineCheck page ⟨code, false⟩ addr) s = .next { s with dev := logErr s.dev page.toNat 3 code.toNat addr.toNat }) ∧
      (code = 0x20 ∨ code = 0x10 → flag s.dev fMcValid = false →
        ∃ t, exec (.machineCheck page ⟨code, false⟩ addr) s = .next t ∧ flag t.dev fMcValid = true ∧ fld t.dev fMcPage = page.toNat ∧
          fld t.dev fMcClass = 3 ∧ fld t.dev fMcCode = code.toNat ∧ fld t.dev fMcAddr = addr.toNat ∧ fld t.dev fMcCount = 1 ∧
          fbit t.dev (fIrqRaw 0) 0 = true ∧
          (code = 0x20 → t.dev.scu = s.dev.scu) ∧
          (code = 0x10 → s.dev.scu.rst = .none → t.dev.scu.rst = .ask ∧ flag t.dev fMcFatal = true ∧
            fld t.dev fRstCause = 0x09)) ∧
      (code = 0x20 → flag s.dev fMcValid = true →
        ∃ t, exec (.machineCheck page ⟨code, false⟩ addr) s = .next t ∧ flag t.dev fMcOverrun = true ∧
          fld t.dev fMcPage = fld s.dev fMcPage ∧ fld t.dev fMcCode = fld s.dev fMcCode ∧ fld t.dev fMcAddr = fld s.dev fMcAddr ∧
          fld t.dev fMcCount = min (fld s.dev fMcCount + 1) (2 ^ 16 - 1)))

/-! ### Internal coherence (15) -/

/-- An agent that can send: its unit awake, and, for a pilot, running. -/
def agentRuns (d : Dev) (x : Nat) : Prop := awake d (agentUnit x) = true ∧ (x < 8 → pilotRuns d x = true)

/-- RDS, RDX, UPG, WB, EVC, WRPART, ATM sent (R264, R267 to R272): what an agent sends in which state of its line, and the state it goes to;
in C a store goes to D and sends nothing; a pilot sends no RdX; an address that is no coherent line is sent by nobody; an agent above
0xB is refused. -/
def Rule.CoherenceSend : Prop :=
  ∀ (s : State) (x : BitVec 4) (l : BitVec 48) (be : BitVec 64) (data v : Line) (op : AtmOp),
    (12 ≤ x.toNat → exec (.rds x l .send) s = .refused .reservedOperand) ∧
    (x.toNat < 12 → awake s.dev (agentUnit x.toNat) = true → cohLine s.dev l.toNat = false →
      ∀ i ∈ [Instr.rds x l .send, .rdx x l .send, .upg x l .send, .wb x l .send, .evc x l .send, .wrpart x l be data .send,
        .atm x l op .send], exec i s = .next s) ∧
    (x.toNat < 12 → agentRuns s.dev x.toNat → cohLine s.dev l.toNat = true → v = lineData s.dev x.toNat l.toNat →
      (lineSt s.dev x.toNat l.toNat = .i → cacheFull s.dev x.toNat = false →
        exec (.rds x l .send) s = .next ⟨sendReq (setLine s.dev x.toNat l.toNat .is 0) x.toNat l.toNat .rds, s.pending⟩ ∧
        (8 ≤ x.toNat →
          exec (.rdx x l .send) s = .next ⟨sendReq (setLine s.dev x.toNat l.toNat .ix 0) x.toNat l.toNat .rdx, s.pending⟩)) ∧
      (lineSt s.dev x.toNat l.toNat ≠ .i → exec (.rds x l .send) s = .next s ∧ exec (.rdx x l .send) s = .next s) ∧
      (x.toNat < 8 → exec (.rdx x l .send) s = .next s ∧ exec (.upg x l .send) s = .next s ∧
        exec (.wrpart x l be data .send) s = .next ⟨sendReq s.dev x.toNat l.toNat (.wrpart be data), s.pending⟩) ∧
      (8 ≤ x.toNat → exec (.wrpart x l be data .send) s = .next s) ∧
      (8 ≤ x.toNat → lineSt s.dev x.toNat l.toNat = .s ∨ lineSt s.dev x.toNat l.toNat = .f →
        exec (.upg x l .send) s = .next ⟨sendReq (setLine s.dev x.toNat l.toNat .sx v) x.toNat l.toNat .upg, s.pending⟩) ∧
      (8 ≤ x.toNat → lineSt s.dev x.toNat l.toNat = .c →
        exec (.upg x l .send) s = .next { s with dev := setLine s.dev x.toNat l.toNat .d v }) ∧
      (lineSt s.dev x.toNat l.toNat = .d →
        exec (.wb x l .send) s = .next ⟨sendReq (setLine s.dev x.toNat l.toNat .wb v) x.toNat l.toNat (.wb v), s.pending⟩) ∧
      (lineSt s.dev x.toNat l.toNat = .s ∨ lineSt s.dev x.toNat l.toNat = .f ∨ lineSt s.dev x.toNat l.toNat = .c →
        exec (.evc x l .send) s = .next ⟨sendReq (setLine s.dev x.toNat l.toNat .i 0) x.toNat l.toNat .evc, s.pending⟩) ∧
      exec (.atm x l op .send) s = .next ⟨sendReq s.dev x.toNat l.toNat (.atm op), s.pending⟩)

/-- The home is about to grant the one request that waits: its line not busy, and fewer than 256 busy. -/
def grantTurn (d : Dev) (x l : Nat) (q : CReq) : Prop :=
  awake d 2 = true ∧ x < 12 ∧ d.coh.queue = [(l, x, q)] ∧ lineBusy d l = false ∧ d.coh.busy.length < 256

/-- The record that a line belongs to, if any, is on chip. -/
def recHere (d : Dev) (l : Nat) : Prop := ∀ r, lineRec d.scu.cfg l = some r → onChip d r = true

/-- A message has left to an agent, last of all. -/
def lastMsg (d : Dev) (m : CMsg) : Prop := d.coh.msgs.getLast? = some m

/-- RDS, RDX, UPG, WB, EVC, WRPART, ATM granted (R265 to R272): what the home does with a line that it shows in I, or with one sharer or
owner: it sends the grant with its copy, or the snoop and waits for the answer; a written-back line is taken from its owner only,
and, of a manifest, once its records are durable; a partial write merges the bytes enabled; an atomic is done at the home for a record
on chip, and at memory otherwise, the line staying busy until its writes are acknowledged. A line of a record that is not on chip is
read, written or owned by nobody until it is. -/
def Rule.CoherenceGrant : Prop :=
  ∀ (s : State) (x : BitVec 4) (l : BitVec 48),
    (∀ i q r, (i, q) ∈ [(Instr.rds x l .grant, CReq.rds), (.rdx x l .grant, .rdx), (.upg x l .grant, .upg)] →
      grantTurn s.dev x.toNat l.toNat q → lineRec s.dev.scu.cfg l.toNat = some r → onChip s.dev r = false →
      ∃ t, exec i s = .next t ∧ t.dev.coh = s.dev.coh) ∧
    (∀ r be v, grantTurn s.dev x.toNat l.toNat (.wrpart be v) → lineRec s.dev.scu.cfg l.toNat = some r → onChip s.dev r = false →
      ∃ t, exec (.wrpart x l be v .grant) s = .next t ∧ t.dev.coh = s.dev.coh) ∧
    (grantTurn s.dev x.toNat l.toNat .rds → recHere s.dev l.toNat →
      (dirOf s.dev l.toNat = none →
        ∃ t, exec (.rds x l .grant) s = .next t ∧ dirOf t.dev l.toNat = some (.owner x.toNat) ∧
          lastMsg t.dev ⟨x.toNat, l.toNat, .dataC, homeCopy s.dev l.toNat⟩ ∧ lineBusy t.dev l.toNat = true ∧ t.dev.coh.queue = []) ∧
      (∀ y, dirOf s.dev l.toNat = some (.owner y) →
        ∃ t, exec (.rds x l .grant) s = .next t ∧ dirOf t.dev l.toNat = some (.owner y) ∧ lastMsg t.dev ⟨y, l.toNat, .snpS, 0⟩ ∧
          (tfind t.dev.coh.busy l.toNat).map (·.await) = some [y]) ∧
      (∀ y ys, dirOf s.dev l.toNat = some (.shared (y :: ys)) →
        ∃ t, exec (.rds x l .grant) s = .next t ∧ dirOf t.dev l.toNat = some (.sharedF x.toNat (y :: ys)) ∧
          lastMsg t.dev ⟨x.toNat, l.toNat, .dataF, homeCopy s.dev l.toNat⟩)) ∧
    (grantTurn s.dev x.toNat l.toNat .rdx → recHere s.dev l.toNat → dirOf s.dev l.toNat = none →
      ∃ t, exec (.rdx x l .grant) s = .next t ∧ dirOf t.dev l.toNat = some (.owner x.toNat) ∧
        lastMsg t.dev ⟨x.toNat, l.toNat, .dataD, homeCopy s.dev l.toNat⟩) ∧
    (grantTurn s.dev x.toNat l.toNat .upg → recHere s.dev l.toNat → dirOf s.dev l.toNat = some (.sharedF x.toNat []) →
      ∃ t, exec (.upg x l .grant) s = .next t ∧ dirOf t.dev l.toNat = some (.owner x.toNat) ∧
        lastMsg t.dev ⟨x.toNat, l.toNat, .cmp, 0⟩) ∧
    (∀ v, grantTurn s.dev x.toNat l.toNat (.wb v) →
      (lineRec s.dev.scu.cfg l.toNat = none → copyOpen s.dev l.toNat = false → exec (.wb x l .grant) s = .next s) ∧
      (copyOpen s.dev l.toNat = true → dirOf s.dev l.toNat = some (.owner x.toNat) →
        ∃ t, exec (.wb x l .grant) s = .next t ∧ dirOf t.dev l.toNat = none ∧ homeCopy t.dev l.toNat = homeCopy s.dev l.toNat ∧
          lastMsg t.dev ⟨x.toNat, l.toNat, .wbAck, 0⟩) ∧
      (copyOpen s.dev l.toNat = true → dirOf s.dev l.toNat ≠ some (.owner x.toNat) →
        ∃ t, exec (.wb x l .grant) s = .next t ∧ dirOf t.dev l.toNat = dirOf s.dev l.toNat ∧
          homeCopy t.dev l.toNat = homeCopy s.dev l.toNat ∧ lastMsg t.dev ⟨x.toNat, l.toNat, .wbAck, 0⟩ ∧
          fld t.dev fBtcStaleWb = min (fld s.dev fBtcStaleWb + 1) (2 ^ 16 - 1))) ∧
    (grantTurn s.dev x.toNat l.toNat .evc → dirOf s.dev l.toNat = some (.owner x.toNat) →
      ∃ t, exec (.evc x l .grant) s = .next t ∧ dirOf t.dev l.toNat = none) ∧
    (∀ be v, grantTurn s.dev x.toNat l.toNat (.wrpart be v) → recHere s.dev l.toNat → dirOf s.dev l.toNat = none →
      ∃ t, exec (.wrpart x l be v .grant) s = .next t ∧ dirOf t.dev l.toNat = none ∧
        t.dev.btc = (putHome s.dev l.toNat (mergeLine be (homeCopy s.dev l.toNat) v)).btc ∧
        (manAt s.dev l.toNat = none → lineRec s.dev.scu.cfg l.toNat = none →
          homeCopy t.dev l.toNat = mergeLine be (homeCopy s.dev l.toNat) v) ∧
        t.dev.coh.wrCmp = s.dev.coh.wrCmp ++ [(x.toNat, l.toNat, false)] ∧ lineBusy t.dev l.toNat = false) ∧
    (∀ op, grantTurn s.dev x.toNat l.toNat (.atm op) → dirOf s.dev l.toNat = none →
      ∃ t, exec (.atm x l op .grant) s = .next t ∧
        t.dev.btc = (putHome s.dev l.toNat (atomOp op (homeCopy s.dev l.toNat)).2.1).btc ∧
        t.dev.coh.atmRsp = s.dev.coh.atmRsp ++ [(x.toNat, l.toNat, (atomOp op (homeCopy s.dev l.toNat)).1)] ∧
        lineBusy t.dev l.toNat = !lineOnChip s.dev l.toNat ∧
        (lineOnChip s.dev l.toNat = true → t.dev.memOut = s.dev.memOut ∧
          fld t.dev fBtcAtHome = min (fld s.dev fBtcAtHome + 1) (2 ^ 32 - 1)) ∧
        (lineOnChip s.dev l.toNat = false → fld t.dev fBtcAtMem = min (fld s.dev fBtcAtMem + 1) (2 ^ 32 - 1) ∧
          t.dev.memOut[s.dev.memOut.length]? = some (.harbourAtomic
            (mirrorAddr s.dev (atomMirror s.dev) (l.toNat - baseA s.dev.scu.cfg + 8 * atomWord op)) op)))

/-- R30, R272: ADD and CAS on a word of a line return the old word, change no other word, and a CAS that fails changes nothing. -/
def Rule.AtomicOperations : Prop :=
  ∀ (v : Line) (w : BitVec 3) (j : Nat) (k c e : W64), j < 8 →
    (atomOp (.add w k) v).1 = getW v w.toNat ∧
    getW (atomOp (.add w k) v).2.1 j = (if j = w.toNat then getW v j + k else getW v j) ∧
    (atomOp (.cas w c e) v).1 = getW v w.toNat ∧
    getW (atomOp (.cas w c e) v).2.1 j = (if j = w.toNat ∧ getW v j = c then e else getW v j)

/-- R268: a partial write replaces the bytes enabled and no others. -/
def Rule.PartialWrite : Prop :=
  ∀ (be : BitVec 64) (old new : Line) (i : Nat), i < 64 →
    (mergeLine be old new).extractLsb' (8 * i) 8 = if be.getLsbD i then new.extractLsb' (8 * i) 8 else old.extractLsb' (8 * i) 8

/-- SNOOP_RESPONSE, PUSH_ANSWER, DONE (R20, R267, R269, R273): an agent's answers reach the home in the order in which it sent them; the last
answer awaited brings the grant, with the owner's data, to the requester; PushAck records the target as the owner, PushNack leaves the
line in I, and each is counted; Done ends the line's busy period. Without an answer or a Done there, nothing changes. -/
def Rule.HomeAnswers : Prop :=
  ∀ (s : State) (x : BitVec 4) (l : BitVec 48), awake s.dev 2 = true → x.toNat < 12 →
    (s.dev.coh.answers = [] → exec (.snoopResponse x l) s = .next s ∧ exec (.pushAnswer x l) s = .next s) ∧
    (s.dev.coh.dones = [] → exec (.done x l) s = .next s) ∧
    (∀ a rest, takeFirst (fun e => e.1 = x.toNat) s.dev.coh.answers = some (a, rest) → a.2.1 ≠ l.toNat →
      exec (.snoopResponse x l) s = .next s ∧ exec (.pushAnswer x l) s = .next s) ∧
    (∀ b z v, tfind s.dev.coh.busy l.toNat = some b → b.req = .rds → b.agent = z → z < 12 → b.await = [x.toNat] →
      dirOf s.dev l.toNat = some (.owner x.toNat) → s.dev.coh.answers = [(x.toNat, l.toNat, some v, false)] →
      copyOpen s.dev l.toNat = true →
      ∃ t, exec (.snoopResponse x l) s = .next t ∧ homeCopy t.dev l.toNat = homeCopy s.dev l.toNat ∧
        dirOf t.dev l.toNat = some (.sharedF x.toNat [z]) ∧ lastMsg t.dev ⟨z, l.toNat, .dataS, homeCopy s.dev l.toNat⟩ ∧
        t.dev.coh.answers = []) ∧
    (∀ b o miss, tfind s.dev.coh.busy l.toNat = some b → b.req = .push → s.dev.coh.answers = [(x.toNat, l.toNat, o, miss)] →
      s.dev.coh.queue = [] →
      ∃ t, exec (.pushAnswer x l) s = .next t ∧ lineBusy t.dev l.toNat = false ∧
        (miss = false → dirOf t.dev l.toNat = some (.owner x.toNat) ∧
          fld t.dev fBtcPushTaken = min (fld s.dev fBtcPushTaken + 1) (2 ^ 32 - 1)) ∧
        (miss = true → dirOf t.dev l.toNat = dirOf s.dev l.toNat ∧
          fld t.dev fBtcPushRefused = min (fld s.dev fBtcPushRefused + 1) (2 ^ 32 - 1))) ∧
    (∀ b, tfind s.dev.coh.busy l.toNat = some b → b.granted = true → b.agent = x.toNat →
      s.dev.coh.dones = [(x.toNat, l.toNat)] → s.dev.coh.queue = [] →
      ∃ t, exec (.done x l) s = .next t ∧ lineBusy t.dev l.toNat = false ∧ t.dev.coh.dones = [])

/-- The rows of messages to agents, with the kinds each takes and whether they travel with the responses (R268, R270). -/
def msgRows (x : BitVec 4) (l : BitVec 48) : List (Instr × List CohEv × Bool) :=
  [(.snps x l, [.snpS], false), (.snpx x l, [.snpX], false), (.inv x l, [.inv], false), (.snpcur x l, [.snpCur], false),
   (.push x l, [.push], false), (.dataGrant x l, [.dataC, .dataF, .dataS, .dataD], true), (.cmp x l, [.cmp], true),
   (.wback x l, [.wbAck], true)]

/-- SNPS, SNPX, INV, SNPCUR, PUSH, DATA_GRANT, CMP, WBACK (R20, R268, R270): the first message of its crossing to the agent, if it is of the
row's line and kind, takes the line to the state of the table's cell, sends the answer and the Done that the cell names, and keeps or
replaces the data; a cell marked "error" captures CLASS 0x03, code 0x10 in the agent's page and raises the machine check that resets
the block. -/
def Rule.AgentMessages : Prop :=
  ∀ (s : State) (x : BitVec 4) (l : BitVec 48) (i : Instr) (evs : List CohEv) (rsp : Bool) (m : CMsg) (rest : List CMsg),
    x.toNat < 12 → awake s.dev (agentUnit x.toNat) = true → (i, evs, rsp) ∈ msgRows x l →
    takeFirst (fun (m : CMsg) => m.dst = x.toNat && isRsp m.ev = rsp) s.dev.coh.msgs = some (m, rest) →
    (m.ev ∉ evs ∨ m.line ≠ l.toNat → exec i s = .next s) ∧
    (∀ a, m.ev ∈ evs → m.line = l.toNat → agentTable (cacheFull s.dev x.toNat) m.ev (lineSt s.dev x.toNat l.toNat) = some a →
      ∃ t, exec i s = .next t ∧ t.dev.coh.msgs = rest ∧ lineSt t.dev x.toNat l.toNat = a.st ∧
        (a.st.keeps = true →
          lineData t.dev x.toNat l.toNat = if a.keep then lineData s.dev x.toNat l.toNat else m.data) ∧
        (a.st = .c ∨ a.st = .d → lineData t.dev x.toNat l.toNat = homeCopy s.dev l.toNat) ∧
        t.dev.coh.answers = s.dev.coh.answers ++ (match a.answer with
          | some (dirty, miss) => [(x.toNat, l.toNat, if dirty then some (lineData s.dev x.toNat l.toNat) else none, miss)]
          | none => []) ∧
        t.dev.coh.dones = s.dev.coh.dones ++ (if a.done then [(x.toNat, l.toNat)] else []) ∧ t.dev.regs = s.dev.regs) ∧
    (m.ev ∈ evs → m.line = l.toNat → agentTable (cacheFull s.dev x.toNat) m.ev (lineSt s.dev x.toNat l.toNat) = none →
      flag s.dev (fErrValid (agentPage x.toNat)) = false → s.dev.scu.rst = .none →
      ∃ t, exec i s = .next t ∧ fld t.dev (fErrClass (agentPage x.toNat)) = 3 ∧ fld t.dev (fErrCode (agentPage x.toNat)) = 0x10 ∧
        t.dev.scu.rst = .ask)

/-- R270: some cells of the agents' table, from the manual: what a grant leaves, what an owner answers to a snoop, and that a grant in a
stable state is an error. -/
def Rule.AgentTable : Prop :=
  ∀ full : Bool,
    (agentTable full .dataC .is).map (·.st) = some .c ∧ (agentTable full .dataF .is).map (·.st) = some .f ∧
    (agentTable full .dataS .is).map (·.st) = some .s ∧ (agentTable full .dataD .ix).map (·.st) = some .d ∧
    (agentTable full .cmp .sx).map (·.st) = some .d ∧ (agentTable full .inv .s).map (·.st) = some .i ∧
    (agentTable full .snpX .d).map (fun a => (a.st, a.answer)) = some (.i, some (true, false)) ∧
    (agentTable full .snpS .d).map (fun a => (a.st, a.answer)) = some (.f, some (true, false)) ∧
    (agentTable full .push .i).map (·.st) = some (if full then .i else .c) ∧
    (∀ e ∈ [CohEv.dataC, .dataF, .dataS, .dataD, .cmp], ∀ st ∈ [LSt.i, .s, .f, .c, .d, .wb], agentTable full e st = none)

/-- WRCMP and ATMRSP (R268, R272, R306): the first answer to the pilot or agent is taken, if it is of the row's line; a pilot that keeps a copy
holds it in C with the home's data; the answer of an atomic at memory frees its line, and a poisoned one, or an access error, is
captured with CLASS 0x04 in the BTC's page. Without an answer nothing changes. -/
def Rule.PilotAnswers : Prop :=
  ∀ (s : State) (x : BitVec 4) (l : BitVec 48) (resp : MemResp), x.toNat < 12 → awake s.dev (agentUnit x.toNat) = true →
    (s.dev.coh.wrCmp = [] → exec (.wrcmp x l) s = .next s) ∧ (s.dev.coh.atmRsp = [] → exec (.atmrsp x ⟨l, resp⟩) s = .next s) ∧
    (∀ a rest, takeFirst (fun e => e.1 = x.toNat) s.dev.coh.wrCmp = some (a, rest) → a.2.1 ≠ l.toNat →
      exec (.wrcmp x l) s = .next s) ∧
    (∀ held, s.dev.coh.wrCmp = [(x.toNat, l.toNat, held)] →
      ∃ t, exec (.wrcmp x l) s = .next t ∧ t.dev.coh.wrCmp = [] ∧
        (held = true → lineSt t.dev x.toNat l.toNat = .c ∧ lineData t.dev x.toNat l.toNat = homeCopy s.dev l.toNat) ∧
        (held = false → t.dev.coh.lines = s.dev.coh.lines)) ∧
    (∀ w, s.dev.coh.atmRsp = [(x.toNat, l.toNat, w)] →
      (lineBusy s.dev l.toNat = false →
        exec (.atmrsp x ⟨l, resp⟩) s = .next { s with dev := modCoh s.dev fun c => { c with atmRsp := [] } }) ∧
      (∀ b op, tfind s.dev.coh.busy l.toNat = some b → b.req = .atm op → b.granted = true → s.dev.coh.queue = [] →
        ∃ t, exec (.atmrsp x ⟨l, resp⟩) s = .next t ∧ lineBusy t.dev l.toNat = false ∧ t.dev.coh.atmRsp = [] ∧
          t.dev.coh.lines = s.dev.coh.lines ∧ (resp = .ok → t.dev.regs = s.dev.regs) ∧
          (resp ≠ .ok → flag s.dev (fErrValid 2) = false →
            fld t.dev (fErrClass 2) = 4 ∧ fld t.dev (fErrCode 2) = respCode resp)))

/-- PROTOCOL_ERROR (R270, R304): a message in a state for which the table says error is captured with code 0x10 in the agent's page and
asks for a reset of the block; in any other state the row changes nothing; an agent above 0xB is refused. -/
def Rule.ProtocolError : Prop :=
  ∀ (s : State) (m : CohMsg),
    (12 ≤ m.dst.toNat → exec (.protocolError m) s = .refused .reservedOperand) ∧
    (m.dst.toNat < 12 → awake s.dev (agentUnit m.dst.toNat) = true →
      ((agentTable (cacheFull s.dev m.dst.toNat) m.ev (lineSt s.dev m.dst.toNat m.line.toNat)).isSome = true →
        exec (.protocolError m) s = .next s) ∧
      (agentTable (cacheFull s.dev m.dst.toNat) m.ev (lineSt s.dev m.dst.toNat m.line.toNat) = none →
        flag s.dev (fErrValid (agentPage m.dst.toNat)) = false → s.dev.scu.rst = .none →
        ∃ t, exec (.protocolError m) s = .next t ∧ fld t.dev (fErrClass (agentPage m.dst.toNat)) = 3 ∧
          fld t.dev (fErrCode (agentPage m.dst.toNat)) = 0x10 ∧ t.dev.scu.rst = .ask))

/-! ### Interrupts (18) -/

/-- IRQ_SOURCE_RISE (R309): a level that has risen sets its PEND bit, once, and no other; without a rise nothing changes. -/
def Rule.SourceRise : Prop :=
  ∀ (s : State) (n : BitVec 7), awake s.dev 13 = true →
    (srcLevel s.dev n.toNat = true → levelSeen s.dev n.toNat = false →
      ∃ t, exec (.irqSourceRise n) s = .next t ∧ irqPend t.dev n.toNat = true ∧
        (∀ m, m < 128 → m ≠ n.toNat → irqPend t.dev m = irqPend s.dev m) ∧ exec (.irqSourceRise n) t = .next t) ∧
    (srcLevel s.dev n.toNat = false ∨ levelSeen s.dev n.toNat = true → exec (.irqSourceRise n) s = .next s)

/-- MSIX_DELIVERY (R311, R331): the free engine takes the lowest eligible source, clears its PEND bit and no other; while the engine is
taken, delivery is off, or none is eligible, nothing changes. -/
def Rule.MsixDelivery : Prop :=
  ∀ (s : State), awake s.dev 13 = true →
    (deliveryOn s.dev = false ∨ s.dev.scu.crossing ≠ none ∨ (∀ n, n < 128 → eligible s.dev n = false) →
      exec .msixDelivery s = .next s) ∧
    (∀ n, deliveryOn s.dev = true → s.dev.scu.crossing = none → n < 128 → eligible s.dev n = true →
      (∀ m, m < n → eligible s.dev m = false) →
      ∃ t, exec .msixDelivery s = .next t ∧ t.dev.scu.crossing = some n ∧ irqPend t.dev n = false ∧ marked t.dev n = true ∧
        ∀ m, m < 128 → m ≠ n → irqPend t.dev m = irqPend s.dev m)

/-- MSIX_SEND (R310, R311, R320): the vector of the source's number leaves on the host port, LAST shows it and counts, and the engine is
free; without a vector nothing changes. -/
def Rule.MsixSend : Prop :=
  ∀ (s : State), awake s.dev 1 = true →
    (s.dev.scu.crossing = none → exec .msixSend s = .next s) ∧
    (∀ n, s.dev.scu.crossing = some n → n < 128 →
      ∃ t, exec .msixSend s = .next t ∧ t.dev.hpu.out = s.dev.hpu.out ++ [.msix n] ∧ t.dev.scu.crossing = none ∧
        fld t.dev fIrqLastSrc = n ∧ fld t.dev fIrqLastSeq = (fld s.dev fIrqLastSeq + 1) % 2 ^ 32)

/-- BATCH_END and HOLDOFF_EXPIRY (R312, R314): a batch that has delivered and has nothing left ends: its sources may be delivered again,
and the hold-off starts, 100 ns a unit, unless it is 0 or the timer serves the watchdog; once it has run out the group is open. -/
def Rule.Batches : Prop :=
  ∀ (s : State) (g : BitVec 4), awake s.dev 13 = true → s.dev.scu.holdoff.length = 16 →
    ((∀ i, i < 8 → marked s.dev (8 * g.toNat + i) = false) → exec (.batchEnd g) s = .next s) ∧
    ((∃ i, i < 8 ∧ (eligible s.dev (8 * g.toNat + i) = true ∨ mayJoin s.dev (8 * g.toNat + i) = true)) →
      exec (.batchEnd g) s = .next s) ∧
    ((∃ i, i < 8 ∧ marked s.dev (8 * g.toNat + i) = true) →
      (∀ i, i < 8 → eligible s.dev (8 * g.toNat + i) = false ∧ mayJoin s.dev (8 * g.toNat + i) = false) →
      ∃ t, exec (.batchEnd g) s = .next t ∧ (∀ i, i < 8 → marked t.dev (8 * g.toNat + i) = false) ∧
        (timerLost s.dev g.toNat = false → fld s.dev (fGrpHoldoff g.toNat) ≠ 0 →
          t.dev.scu.holdoff.getD g.toNat 0 = s.dev.now + 100 * fld s.dev (fGrpHoldoff g.toNat))) ∧
    (grpOpen s.dev g.toNat = false → s.dev.scu.holdoff.getD g.toNat 0 ≤ s.dev.now →
      ∃ t, exec (.holdoffExpiry g) s = .next t ∧ grpOpen t.dev g.toNat = true ∧ t.dev.regs = s.dev.regs) ∧
    (grpOpen s.dev g.toNat = true ∨ s.dev.now < s.dev.scu.holdoff.getD g.toNat 0 → exec (.holdoffExpiry g) s = .next s)

/-- WIRE_JOIN (R313, R320): a source that may join does, its wire is high, and the join counts as its delivery; another does not. -/
def Rule.WireJoin : Prop :=
  ∀ (s : State) (n : BitVec 7), awake s.dev 13 = true →
    (deliveryOn s.dev = true → mayJoin s.dev n.toNat = true →
      ∃ t, exec (.wireJoin n) s = .next t ∧ irqLocal t.dev (irqRoute s.dev n.toNat - 4) = true ∧ marked t.dev n.toNat = true ∧
        fld t.dev fIrqLastSrc = n.toNat ∧ fld t.dev fIrqLastSeq = (fld s.dev fIrqLastSeq + 1) % 2 ^ 32) ∧
    (deliveryOn s.dev = false ∨ mayJoin s.dev n.toNat = false → exec (.wireJoin n) s = .next s)

/-- IRQ_PEND_WRITE and IRQ_MASK_WRITE (R313, R315, R316): a write of PEND stores its bits, and after them the sets of the sources that
rise in its cycle; a write of MASK stores its bits and leaves PEND; a source that is not pending or is masked is on no wire. -/
def Rule.PendMaskWrite : Prop :=
  ∀ (s : State) (r : BitVec 1) (v hw : W64), awake s.dev 13 = true →
    (∃ t, exec (.irqPendWrite r v hw) s = .next t ∧
      (∀ i, i < 64 → irqPend t.dev (64 * r.toNat + i) = (v.getLsbD i ||
        (hw.getLsbD i && srcLevel s.dev (64 * r.toNat + i) && !levelSeen s.dev (64 * r.toNat + i)))) ∧
      ∀ j ∈ t.dev.scu.joined, irqPend t.dev j.1 = true ∧ irqMask t.dev j.1 = false) ∧
    (∃ t, exec (.irqMaskWrite r v) s = .next t ∧
      (∀ i, i < 64 → irqMask t.dev (64 * r.toNat + i) = v.getLsbD i) ∧ (∀ n, n < 128 → irqPend t.dev n = irqPend s.dev n) ∧
      ∀ j ∈ t.dev.scu.joined, irqPend t.dev j.1 = true ∧ irqMask t.dev j.1 = false)

/-! ### Reset (19) -/

/-- The SCU runs and its own clock is not gated: what a row of the SCU needs in every power state (R326, R338). -/
def scuRuns (d : Dev) : Prop := d.scu.up = true ∧ fbit d fDozing 13 = false

/-- A reset of the block is under way, asked for by a source (R321). -/
def resetBegun (d e : Dev) (cause island : Nat) (idle reload : Bool) : Prop :=
  e.scu.rst = (if idle then .ask else .drain) ∧ fld e fRstCause = cause ∧ fld e fRstIsland = island ∧ e.scu.rstReload = reload ∧
    fld e fRstIdleTimeout = 0 ∧ fld e fRstCount = (fld d fRstCount + 1) % 2 ^ 32 ∧
    (fld d fPwrState ∈ [3, 4, 5] → fld e fPwrState = 0) ∧ { e with regs := d.regs, scu := d.scu } = d

/-- POWER_ON_RESET, BROWN_OUT_RESET, PIN_RESET (R321, R322, R324): every register takes its reset value, but the cause; the SCU falls
into reset, the tide counter to 0 and S to Sealed; what the harbour region and the durable journal hold stays, and which quays have a
clock. -/
def Rule.ColdResets : Prop :=
  ∀ (s : State) (i : Instr) (c : Nat), (i, c) ∈ [(Instr.powerOnReset, 1), (.brownOutReset, 2), (.pinReset, 3)] →
    ∃ t, exec i s = .next t ∧ fld t.dev fRstCause = c ∧ t.dev.scu.up = false ∧ t.dev.tide = 0 ∧ t.dev.scu.sec = 0 ∧
      (∀ p off, regKey p off ≠ regKey 0 0x180 → reg t.dev p off = regDflt (regKey p off)) ∧
      (∀ n, n < 8 → t.dev.scu.tokens.getD n none = none) ∧
      t.dev.harbour.ctx = s.dev.harbour.ctx ∧ t.dev.harbour.berth = s.dev.harbour.berth ∧ t.dev.harbour.bol = s.dev.harbour.bol ∧
      t.dev.harbour.fqProd = fld s.dev fFqProd ∧ t.dev.harbour.fqCons = fld s.dev fFqCons ∧
      t.dev.scu.queue = s.dev.scu.queue ∧ t.dev.lbu.journal = durableJournal s.dev ∧ t.dev.coh = {} ∧
      t.dev.quays = (s.dev.quays.map fun q => { clock := q.clock }) ∧ t.dev.seqs = List.replicate 16 {}

/-- COLD_RESET_RELEASE (R324, R326, R328): the SCU leaves reset, the order of release begins, and the configuration is requested from
the root of trust; once it has, nothing more. -/
def Rule.ColdResetRelease : Prop :=
  ∀ s : State,
    (s.dev.scu.up = true → exec .coldResetRelease s = .next s) ∧
    (s.dev.scu.up = false → ∃ t, exec .coldResetRelease s = .next t ∧ t.dev.scu.up = true ∧ t.dev.scu.rst = .release ∧
      t.dev.scu.load = .config ∧ fld t.dev fLoadState = 1 ∧ t.dev.scu.rtOut = s.dev.scu.rtOut ++ [(0, 1)] ∧
      fld t.dev fLoadAttempts = min (fld s.dev fLoadAttempts + 1) 255)

/-- BLOCK, BLOCK_RELOAD, DEBUG_RESET, WATCHDOG_EXPIRY, CLOCK_FAILURE, PARK_ESCALATION (R23, R321, R323, R335, R336, R341, R348): each source
that applies asks for a reset of the block with its cause; a pilot's park escalates after 64 cycles of the reference clock; a wrong KEY is ignored, a debug request that the security state does
not admit is counted, and a source during a reset is absorbed. -/
def Rule.BlockResets : Prop :=
  ∀ (s : State) (key : BitVec 16) (u : BitVec 4), scuRuns s.dev →
    (key ≠ 0xB10C → exec (.block key) s = .next s ∧ exec (.blockReload key) s = .next s) ∧
    (s.dev.scu.rst = .none →
      (∃ t, exec (.block 0xB10C) s = .next t ∧ resetBegun s.dev t.dev 5 0 true false) ∧
      (∃ t, exec (.blockReload 0xB10C) s = .next t ∧ resetBegun s.dev t.dev 5 0 true true) ∧
      (admits s.dev 5 1 = true → ∃ t, exec .debugReset s = .next t ∧ resetBegun s.dev t.dev 6 0 true false) ∧
      (wdogRuns s.dev = true → fld s.dev fWdogTmoMs * 1000000 ≤ s.dev.now - s.dev.scu.wdogStart →
        ∃ t, exec .watchdogExpiry s = .next t ∧ resetBegun s.dev t.dev 4 0 true false) ∧
      (islandOk u = true → u ≠ 9 → u ≠ 13 → fbit s.dev fDozing u.toNat = false → inReset s.dev u.toNat = false →
        fld s.dev fPwrState ≠ 3 → ∃ t, exec (.clockFailure u) s = .next t ∧ resetBegun s.dev t.dev 7 u.toNat false false ∧
          fbit t.dev fClkFail u.toNat = true) ∧
      ((∃ p ∈ s.dev.dtc.pilots, p.reset = true ∧ p.since + 640 ≤ s.dev.now) → ∃ t, exec (.parkEscalation 4) s = .next t ∧
        resetBegun s.dev t.dev 0x0A 0 false false)) ∧
    (s.dev.scu.rst ≠ .none → s.dev.scu.goingOff = false →
      exec (.block 0xB10C) s = .next s ∧ exec (.blockReload 0xB10C) s = .next s ∧
      (islandOk u = true → exec (.parkEscalation u) s = .next s)) ∧
    ((∀ p ∈ s.dev.dtc.pilots, p.reset = true → s.dev.now < p.since + 640) → islandOk u = true →
      exec (.parkEscalation u) s = .next s) ∧
    (admits s.dev 5 1 = false → exec .debugReset s = .next { s with dev := countRefused s.dev }) ∧
    (wdogRuns s.dev = false ∨ s.dev.now - s.dev.scu.wdogStart < fld s.dev fWdogTmoMs * 1000000 →
      exec .watchdogExpiry s = .next s) ∧
    (u = 9 ∨ u = 13 ∨ (islandOk u = true ∧ fbit s.dev fDozing u.toNat = true) → exec (.clockFailure u) s = .next s)

/-- WDOG_WARN and WATCHDOG_RESTART (R336): at half of TMO_MS the warning, once; a restart by firmware that runs starts the count again. -/
def Rule.Watchdog : Prop :=
  ∀ (s : State) (p : BitVec 3), scuRuns s.dev →
    (wdogRuns s.dev = true → s.dev.scu.wdogWarned = false →
      fld s.dev fWdogTmoMs * 500000 ≤ s.dev.now - s.dev.scu.wdogStart →
      ∃ t, exec .wdogWarn s = .next t ∧ fbit t.dev (fIrqRaw 0) 7 = true ∧ t.dev.scu = { s.dev.scu with wdogWarned := true } ∧
        exec .wdogWarn t = .next t) ∧
    (wdogRuns s.dev = false ∨ s.dev.scu.wdogWarned = true ∨
      s.dev.now - s.dev.scu.wdogStart < fld s.dev fWdogTmoMs * 500000 → exec .wdogWarn s = .next s) ∧
    (isTranslator s.dev p.toNat = false → pilotRuns s.dev p.toNat = true → s.dev.scu.imgVerdict = true →
      inReset s.dev 4 = false →
      exec (.watchdogRestart p) s =
        .next { s with dev := modScu s.dev fun c => { c with wdogStart := s.dev.now, wdogWarned := false } }) ∧
    (isTranslator s.dev p.toNat = true ∨ pilotRuns s.dev p.toNat = false → exec (.watchdogRestart p) s = .next s)

/-- IDLE_REQUEST (R323 step 1): every quay that runs takes a drain request for all work, its queued descriptors leave, and preemptions end. -/
def Rule.IdleRequest : Prop :=
  ∀ s : State, scuRuns s.dev →
    (s.dev.scu.rst ≠ .ask → exec .idleRequest s = .next s) ∧
    (s.dev.scu.rst = .ask → ∃ t, exec .idleRequest s = .next t ∧ t.dev.scu.rst = .idle ∧ t.dev.scu.rstStart = s.dev.now ∧
      (∀ q, q < 56 → q < s.dev.quays.length → quayRuns s.dev q = true →
        fld t.dev (fQptState q) = 2 ∧ (quayAt t.dev q).queue = [] ∧
        (quayAt t.dev q).drains = (quayAt s.dev q).drains ++ [(.all, .reset)] ∧ (quayAt t.dev q).out = (quayAt s.dev q).out) ∧
      (s.dev.scu.goingOff = false → t.dev.hms.save = [] ∧ (∀ e ∈ t.dev.btc.ctx, e.2.save = []) ∧ ∀ c ∈ t.dev.cmds, c.saveSlot = none))

/-- IDLE_COMPLETE (R323): the step ends with the drains ended and the journal durable, or at IDLE_TMO_US, which IDLE_TIMEOUT shows. -/
def Rule.IdleComplete : Prop :=
  ∀ s : State, scuRuns s.dev →
    (s.dev.scu.rst ≠ .idle → exec .idleComplete s = .next s) ∧
    (s.dev.scu.rst = .idle → allIdle s.dev = true →
      ∃ t, exec .idleComplete s = .next t ∧ t.dev.scu.rst = .drain ∧ t.dev.lbu.durable = t.dev.lbu.nextLsn ∧
        fld t.dev fRstIdleTimeout = fld s.dev fRstIdleTimeout) ∧
    (s.dev.scu.rst = .idle → allIdle s.dev = false →
      (s.dev.scu.rstStart + 1000 * fld s.dev fIdleTmoUs ≤ s.dev.now →
        ∃ t, exec .idleComplete s = .next t ∧ t.dev.scu.rst = .drain ∧ fld t.dev fRstIdleTimeout = 1 ∧
          t.dev.lbu = s.dev.lbu) ∧
      (s.dev.now < s.dev.scu.rstStart + 1000 * fld s.dev fIdleTmoUs → exec .idleComplete s = .next s))

/-- A load has ended in UNLOADED with a reason (R332). -/
def loadFailed (d e : Dev) (reason : Nat) : Prop :=
  fld e fLoadState = 4 ∧ fld e fLoadReason = reason ∧ e.scu.load = .none ∧
    fld e fInReset = (if fbit d fInReset 1 then 0x5FFE else 0x5FFC) ∧ fld e fLoadAttempts = fld d fLoadAttempts

/-- MEMORY_DRAIN_DONE (R322, R323 steps 3 and 4, R340): with every transaction answered, reset is asserted: every island but the SCU is held,
their registers take their reset values but PAGE_SCRATCH, the mirrors' states, the SCU page and the harbour region stay, and the order of release
starts; after more than 10 µs the block is UNLOADED with MEM_PORT instead; an entry into Off ends in OFF_READY. -/
def Rule.MemoryDrainDone : Prop :=
  ∀ s : State, scuRuns s.dev →
    (s.dev.scu.rst ≠ .drain → exec .memoryDrainDone s = .next s) ∧
    (s.dev.scu.rst = .drain → s.dev.scu.rstStart + 10000 < s.dev.now →
      ∃ t, exec .memoryDrainDone s = .next t ∧ loadFailed s.dev t.dev 6) ∧
    (s.dev.scu.rst = .drain → s.dev.now ≤ s.dev.scu.rstStart + 10000 →
      (s.dev.scu.goingOff = false → ∃ t, exec .memoryDrainDone s = .next t ∧ t.dev.scu.rst = .release ∧ t.dev.scu.lastOrder = 1 ∧
        fld t.dev fInReset = 0x5FFE ∧ fld t.dev fLoadState = 1 ∧ t.dev.coh = {} ∧ t.dev.cmds = keptCmds (logInMemory s.dev) ∧
        t.dev.btc.ctx = s.dev.harbour.ctx ∧ t.dev.btc.berth = s.dev.harbour.berth ∧ t.dev.harbour = s.dev.harbour ∧
        t.dev.scu.queue = s.dev.scu.queue ∧ t.dev.scu.tokens = s.dev.scu.tokens ∧ t.dev.scu.sec = s.dev.scu.sec ∧
        (s.dev.scu.cfgVerified = true → t.dev.scu.load = .image ∧ t.dev.scu.fromHarbour = !s.dev.scu.rstReload) ∧
        (s.dev.scu.cfgVerified = false → t.dev.scu.load = .config) ∧
        (∀ p, reg t.dev p 0x048 = reg s.dev p 0x048) ∧ (∀ m, m < 2 → mirrorSt t.dev m = mirrorSt s.dev m) ∧
        (∀ off, off < 0x1000 → off ≠ 0x1A0 → off ≠ 0x1C0 → reg t.dev 0 off = reg s.dev 0 off) ∧
        (∀ p off, off < 0x1000 → off ≠ 0x048 → p ∉ [0, 4, 7, 8, 9] → reg t.dev p off = regDflt (regKey p off))) ∧
      (s.dev.scu.goingOff = true → s.dev.scu.targetLater = none →
        ∃ t, exec .memoryDrainDone s = .next t ∧ t.dev.scu.rst = .none ∧ t.dev.scu.goingOff = false ∧
          fld t.dev fPwrState = 4 ∧ fld t.dev fInReset = 0x5FFC ∧ fld t.dev fLoadState = 0))

/-- PILOT_LOCKUP and PILOT_RELOAD_DONE (R334, R275): a pilot that runs is reset; its translation goes back to the queue, its debug bits and
its lines go; within a second of its last release it stays out of service. Once reloaded it is released, counted, and SCU event 5
is raised. -/
def Rule.PilotLockup : Prop :=
  ∀ (s : State) (p : BitVec 3), scuRuns s.dev → s.dev.dtc.pilots.length = 8 → s.dev.scu.pilotRel.length = 8 →
    (pilotRuns s.dev p.toNat = false ∨ s.dev.scu.imgVerdict = false ∨ inReset s.dev 4 = true ∨ fbit s.dev fDozing 4 = true →
      exec (.pilotLockup p) s = .next s) ∧
    (pilotRuns s.dev p.toNat = true → s.dev.scu.imgVerdict = true → inReset s.dev 4 = false → fbit s.dev fDozing 4 = false →
      fld s.dev fPwrState ≠ 3 →
      ∃ t, exec (.pilotLockup p) s = .next t ∧ (at' {} t.dev.dtc.pilots p.toNat).reset = true ∧
        (∀ x ∈ t.dev.plx.queue, x.pilot ≠ some p.toNat) ∧ (∀ e ∈ t.dev.coh.lines, e.1 ≠ p.toNat) ∧
        fbit t.dev fDtcInstrEn p.toNat = false ∧
        (fbit t.dev fPilotOut p.toNat = true ↔ s.dev.scu.pilotRel.getD p.toNat 0 ≠ 0 ∧
          s.dev.tide % 2 ^ 64 < s.dev.scu.pilotRel.getD p.toNat 0 + 1000000000)) ∧
    ((at' {} s.dev.dtc.pilots p.toNat).reset = false ∨ fbit s.dev fPilotOut p.toNat = true →
      exec (.pilotReloadDone p) s = .next s) ∧
    ((at' {} s.dev.dtc.pilots p.toNat).reset = true → fbit s.dev fPilotOut p.toNat = false →
      ∃ t, exec (.pilotReloadDone p) s = .next t ∧ (at' {} t.dev.dtc.pilots p.toNat).reset = false ∧
        t.dev.scu.pilotRel.getD p.toNat 0 = max 1 (s.dev.tide % 2 ^ 64) ∧ fbit t.dev (fIrqRaw 0) 5 = true ∧
        fld t.dev fPilotResets = min (fld s.dev fPilotResets + 1) (2 ^ 16 - 1))

/-- ISLAND_RELEASE (R326, R36): the next island in the order leaves reset, 160 ns after the one before, once its condition holds: its bit of
IN_RESET clears and the order moves on; the quays come up ONLINE, but ABSENT by configuration, STOPPED without a clock and FAILED after
a drain that did not end; the sequencers' stores take the verified image. Out of turn, nothing; an island that is none is refused. -/
def Rule.IslandRelease : Prop :=
  ∀ (s : State) (u : BitVec 4),
    (islandOk u = false → exec (.islandRelease u) s = .refused .reservedOperand) ∧
    (scuRuns s.dev → islandOk u = true → mayRelease s.dev u.toNat = false → exec (.islandRelease u) s = .next s) ∧
    (scuRuns s.dev → islandOk u = true → mayRelease s.dev u.toNat = true → u ≠ 10 ∨ s.dev.scu.load ≠ .image →
      s.dev.hpu.held = [] → s.dev.hms.held = [] → s.dev.dtc.dapHeld = [] → s.dev.fsa.held = [] →
      ∃ t, exec (.islandRelease u) s = .next t ∧ fbit t.dev fInReset u.toNat = false ∧ fbit t.dev fClkFail u.toNat = false ∧
        t.dev.scu.lastOrder = s.dev.scu.lastOrder + 1 ∧ t.dev.scu.rstStart = s.dev.now ∧
        (u = 9 → t.dev.scu.rst = .none ∧ ∀ q, q < 56 → fld t.dev (fQptState q) =
          if nbit s.dev.scu.cfg.quayAbsent q then 0 else if (quayAt s.dev q).clock = false then 4 else if s.dev.scu.quayFailed.contains q then 3 else 1) ∧
        (u = 8 → s.dev.scu.imgVerdict = true → ∀ q, q < 16 → fld t.dev (fTsqState q) = 1 ∧
          (q < s.dev.seqs.length → (seqAt t.dev q).img = some s.dev.scu.imgHead)))

/-- R326: an island leaves reset only after the one before it in the order, and only with the configuration verified or, for the
HPU, the load failed. -/
def Rule.ReleaseOrder : Prop :=
  ∀ (d : Dev) (u : Nat), mayRelease d u = true →
    releaseOrder u = d.scu.lastOrder + 1 ∧ d.scu.rstStart + 160 ≤ d.now ∧ (d.scu.cfgVerified = true ∨ u = 1)

/-! ### Loading (19) -/

/-- CONFIG_CHUNK and CONFIG_VERDICT (R328, R332): chunks are kept in order up to 64 KiB; a verdict of failure ends the load with CONFIG_AUTH,
a form or item that is wrong with CONFIG_FORM; otherwise the configuration takes hold and the image is requested. -/
def Rule.Configuration : Prop :=
  ∀ (s : State) (data : BitVec 256) (last : Bool), scuRuns s.dev →
    (s.dev.scu.load ≠ .config ∨ s.dev.scu.cfgDone = true → exec (.configChunk data last) s = .next s) ∧
    (s.dev.scu.load ≠ .config ∨ s.dev.scu.cfgDone = false → ∀ v, exec (.configVerdict v) s = .next s) ∧
    (s.dev.scu.load = .config → s.dev.scu.cfgDone = false →
      (s.dev.scu.cfgChunks.length < 2048 → exec (.configChunk data last) s =
        .next { s with dev := modScu s.dev fun c => { c with cfgChunks := c.cfgChunks ++ [data], cfgDone := last } }) ∧
      (2048 ≤ s.dev.scu.cfgChunks.length → ∃ t, exec (.configChunk data last) s = .next t ∧ loadFailed s.dev t.dev 7)) ∧
    (s.dev.scu.load = .config → s.dev.scu.cfgDone = true →
      (∃ t, exec (.configVerdict false) s = .next t ∧ loadFailed s.dev t.dev 1) ∧
      (parseConfig s.dev.scu.cfgChunks = none → ∃ t, exec (.configVerdict true) s = .next t ∧ loadFailed s.dev t.dev 7) ∧
      (∀ c, parseConfig s.dev.scu.cfgChunks = some c →
        ∃ t, exec (.configVerdict true) s = .next t ∧ t.dev.scu.cfg = c ∧ t.dev.scu.cfgVerified = true ∧
          t.dev.scu.load = .image ∧ t.dev.scu.rtOut = s.dev.scu.rtOut ++ [(0, 2)] ∧ flag t.dev fWdogEn = c.wdog ∧
          t.dev.scu.sec = secOf c s.dev.scu.tokens ∧ fld t.dev fLbuCapacity = c.logUnits % 2 ^ 32 ∧
          fld t.dev fMmgArenaVa = c.arenaVa % 2 ^ 57 ∧ mirrorSt t.dev 0 = 0 ∧ mirrorSt t.dev 1 = 0 ∧ t.dev.lbu.place = [0, 1] ∧
          (c.logFormat = false → fld t.dev fFqProd = s.dev.harbour.fqProd % 2 ^ 32)))

/-- IMAGE_CHUNK, IMAGE_VERDICT, IMAGE_RELOAD_DONE (R329, R331, R332): chunks go to the harbour copy up to 16 MiB; a verdict of failure ends the
load with IMAGE_AUTH; a verified image is kept, and the load is checked as soon as the logbook's scan can say so; a reload from the
harbour copy that fails falls back to the root of trust. -/
def Rule.ImageLoad : Prop :=
  ∀ (s : State) (data : BitVec 256) (last : Bool), scuRuns s.dev →
    (s.dev.scu.load ≠ .image → (∀ v, exec (.imageVerdict v) s = .next s) ∧ (∀ v, exec (.imageReloadDone v) s = .next s) ∧
      exec (.imageChunk data last) s = .next s) ∧
    (s.dev.scu.load = .image → s.dev.scu.fromHarbour = false →
      (s.dev.scu.imgDone = false → s.dev.scu.imgCount < 524288 →
        ∃ t, exec (.imageChunk data last) s = .next t ∧ t.dev.scu.imgCount = s.dev.scu.imgCount + 1 ∧ t.dev.scu.imgDone = last ∧
          t.dev.scu.imgHead = (if s.dev.scu.imgCount = 0 then data else s.dev.scu.imgHead) ∧
          (mirrorSt s.dev 0 ≠ 1 → mirrorSt s.dev 1 ≠ 1 → t.dev.memOut.length = s.dev.memOut.length + 2) ∧ t.dev.regs = s.dev.regs) ∧
      (s.dev.scu.imgDone = false → 524288 ≤ s.dev.scu.imgCount →
        ∃ t, exec (.imageChunk data last) s = .next t ∧ loadFailed s.dev t.dev 2) ∧
      (s.dev.scu.imgDone = true → s.dev.scu.imgVerdict = false →
        (∃ t, exec (.imageVerdict false) s = .next t ∧ loadFailed s.dev t.dev 2) ∧
        (∃ t, exec (.imageVerdict true) s = .next t ∧
          (inReset s.dev 10 = true ∨ s.dev.scu.formatDue = true →
            t.dev.scu.load = .image ∧ t.dev.scu.imgVerdict = true ∧ t.dev.scu.imgCopy = some s.dev.scu.imgHead) ∧
          (inReset s.dev 10 = false → s.dev.scu.formatDue = false → anchorOk s.dev = false →
            loadFailed s.dev t.dev 4) ∧
          (inReset s.dev 10 = false → s.dev.scu.formatDue = false → anchorOk s.dev = true → epochsOk s.dev = false →
            loadFailed s.dev t.dev 3) ∧
          (inReset s.dev 10 = false → s.dev.scu.formatDue = false → anchorOk s.dev = true → epochsOk s.dev = true →
            t.dev.scu.load = .checked ∧ t.dev.scu.imgCopy = some s.dev.scu.imgHead)))) ∧
    (s.dev.scu.load = .image → s.dev.scu.fromHarbour = true → s.dev.scu.imgVerdict = false →
      (∃ t, exec (.imageReloadDone false) s = .next t ∧ t.dev.scu.fromHarbour = false ∧ t.dev.scu.load = .image ∧
        t.dev.scu.rtOut = s.dev.scu.rtOut ++ [(0, 2)] ∧ t.dev.regs = s.dev.regs) ∧
      (∀ h, s.dev.scu.imgCopy = some h → inReset s.dev 10 = true →
        ∃ t, exec (.imageReloadDone true) s = .next t ∧ t.dev.scu.imgVerdict = true ∧ t.dev.scu.imgHead = h))

/-- LOG_FORMAT_DONE (R330): a format that the configuration asks for leaves every harbour table at its initial content, a journal of one CKPT
record, an empty fault queue and LOG 2; without one due, nothing. -/
def Rule.LogFormat : Prop :=
  ∀ s : State, scuRuns s.dev →
    (s.dev.scu.formatDue = false ∨ s.dev.scu.load ≠ .image ∨ inReset s.dev 10 = true → exec .logFormatDone s = .next s) ∧
    (s.dev.scu.formatDue = true → s.dev.scu.load = .image → inReset s.dev 10 = false →
      ∃ t, exec .logFormatDone s = .next t ∧ t.dev.harbour = {} ∧ t.dev.cmds = [] ∧
        t.dev.lbu.journal = groupUnits 0 [{ body := .ckpt 0 (s.dev.tide % 2 ^ 64) }] ∧ anchorOk t.dev = true ∧ t.dev.lbu.nextLsn = 1 ∧ t.dev.lbu.durable = 1 ∧
        t.dev.scu.queue = [] ∧ t.dev.scu.slots = [] ∧ fld t.dev fFqProd = 0 ∧ fld t.dev fFqCons = 0 ∧ fld t.dev fLoadLog = 2 ∧
        t.dev.scu.formatDue = false ∧ (s.dev.scu.imgVerdict = true → t.dev.scu.load = .checked))

/-- LOAD_COMPLETE, LOAD_FAIL, NO_VERDICT, RETRY (R331, R332): the load completes into REPLAY once it is checked and every island is out of
reset; a reason from 1 to 8 ends a load in progress; no verdict within 100 ms ends it with NO_VERDICT; a retry acts in UNLOADED only
and requests the configuration again. -/
def Rule.LoadEnd : Prop :=
  ∀ (s : State) (reason : BitVec 8), scuRuns s.dev →
    (s.dev.scu.load = .checked → fld s.dev fInReset = 0 → s.dev.scu.rst = .none →
      ∃ t, exec .loadComplete s = .next t ∧ fld t.dev fLoadState = 2 ∧ t.dev.scu.load = .none ∧ loaded t.dev = true ∧
        t.dev.scu.wdogStart = s.dev.now) ∧
    (s.dev.scu.load ≠ .checked ∨ fld s.dev fInReset ≠ 0 ∨ s.dev.scu.rst ≠ .none → exec .loadComplete s = .next s) ∧
    (fld s.dev fLoadState = 1 → 1 ≤ reason.toNat → reason.toNat ≤ 8 →
      ∃ t, exec (.loadFail reason) s = .next t ∧ loadFailed s.dev t.dev reason.toNat) ∧
    (fld s.dev fLoadState ≠ 1 ∨ reason = 0 ∨ 8 < reason.toNat → exec (.loadFail reason) s = .next s) ∧
    (s.dev.scu.load = .config ∨ (s.dev.scu.load = .image ∧ s.dev.scu.fromHarbour = false ∧ s.dev.scu.imgVerdict = false) →
      (s.dev.scu.loadStart + 100000000 ≤ s.dev.now →
        ∃ t, exec .noVerdict s = .next t ∧ loadFailed s.dev t.dev 8) ∧
      (s.dev.now < s.dev.scu.loadStart + 100000000 → exec .noVerdict s = .next s)) ∧
    (fld s.dev fLoadState ≠ 4 → exec .retry s = .next s) ∧
    (fld s.dev fLoadState = 4 → ∃ t, exec .retry s = .next t ∧ fld t.dev fLoadState = 1 ∧ fld t.dev fLoadReason = 0 ∧
      t.dev.scu.load = .config ∧ t.dev.scu.rst = .release ∧ t.dev.scu.rtOut = s.dev.scu.rtOut ++ [(0, 1)] ∧
      fld t.dev fLoadAttempts = min (fld s.dev fLoadAttempts + 1) 255)

/-! ### Power (19) -/

/-- The block may change its power state at once (R337, R340). -/
def mayChange (d : Dev) : Prop :=
  fld d fPwrState < 3 ∧ d.scu.rst = .none ∧ (fld d fLoadState = 3 ∨ fld d fLoadState = 4)

/-- The rows of TARGET with their values (R341). -/
def targetRows : List (Instr × Nat) := [(.targetRun, 0), (.targetTrim, 1), (.targetRetain, 2), (.targetOff, 3)]

/-- TARGET_RUN, TARGET_TRIM, TARGET_RETAIN, TARGET_OFF (R337 to R340, R349): Run and Trim take hold at once; Retain and Off begin an entry, the
state changing; with a pilot halted an entry is given up, counted and reported; during a reset, a load or a change the TARGET is kept
for later; a TARGET of Run in Retain wakes the block, and in OFF_READY only it acts. -/
def Rule.PowerTargets : Prop :=
  ∀ (s : State), scuRuns s.dev →
    (mayChange s.dev →
      (∃ t, exec .targetRun s = .next t ∧ fld t.dev fPwrState = 0 ∧ fld t.dev fPwrTarget = 0 ∧ onlyRegs s.dev t.dev) ∧
      (∃ t, exec .targetTrim s = .next t ∧ fld t.dev fPwrState = 1 ∧ fld t.dev fPwrTarget = 1 ∧ onlyRegs s.dev t.dev) ∧
      (fld s.dev fDtcHalted = 0 →
        (∃ t, exec .targetRetain s = .next t ∧ fld t.dev fPwrState = 5 ∧ fld t.dev fPwrTarget = 2 ∧ t.dev.scu.retainReq = true ∧
          t.dev.scu.retainStart = s.dev.now ∧ t.dev.scu.rst = .none) ∧
        (∃ t, exec .targetOff s = .next t ∧ fld t.dev fPwrState = 5 ∧ fld t.dev fPwrTarget = 3 ∧ t.dev.scu.goingOff = true ∧
          t.dev.scu.rst = .ask)) ∧
      (fld s.dev fDtcHalted ≠ 0 → ∀ i ∈ [Instr.targetRetain, .targetOff],
        ∃ t, exec i s = .next t ∧ fld t.dev fPwrState = fld s.dev fPwrState ∧ fld t.dev fPwrTarget = 0 ∧
          fld t.dev fPwrAbandoned = min (fld s.dev fPwrAbandoned + 1) (2 ^ 16 - 1) ∧ fbit t.dev (fIrqRaw 0) 6 = true ∧
          onlyRegs s.dev t.dev)) ∧
    (fld s.dev fPwrState = 5 ∨ fld s.dev fPwrState ≠ 4 ∧ s.dev.scu.rst ≠ .none → ∀ x ∈ targetRows,
      exec x.1 s = .next { s with dev := modScu (setFld s.dev fPwrTarget x.2) fun c => { c with targetLater := some x.2 } }) ∧
    (fld s.dev fPwrState = 3 → s.dev.scu.rst = .none → fld s.dev fLoadState = 3 →
      ∃ t, exec .targetRun s = .next t ∧ fld t.dev fPwrState = 0 ∧ fld t.dev fDozing = 0 ∧ fbit t.dev (fIrqRaw 0) 6 = true) ∧
    (fld s.dev fPwrState = 4 →
      (∀ x ∈ targetRows, x.2 ≠ 0 → exec x.1 s = .next { s with dev := setFld s.dev fPwrTarget x.2 }) ∧
      (∃ t, exec .targetRun s = .next t ∧ fld t.dev fPwrState = 0 ∧ fld t.dev fLoadState = 1 ∧ t.dev.scu.rst = .release))

/-- RETAIN_ENTRY, RETAIN_TIMEOUT, RETAIN_WAKE (R338): the block enters Retain once no tile is out, every command is complete or waits, and the crossings of the islands
that it gates are at rest; after
RETAIN_TMO_MS the entry is abandoned, counted and reported; a request towards a gated island wakes the whole block. -/
def Rule.Retain : Prop :=
  ∀ (s : State) (u : BitVec 4), scuRuns s.dev →
    (s.dev.scu.retainReq = true → fld s.dev fPwrState = 5 → s.dev.scu.targetLater = none →
      ((∀ c ∈ s.dev.cmds, c.isComplete = true ∨ (c.phase = .waiting ∧ c.waitsMet = false)) →
        (∀ q ∈ s.dev.quays, q.out = [] ∧ q.offered = none) →
        (∀ u ∈ retainUnits, atRest s.dev u = true) →
        ∃ t, exec .retainEntry s = .next t ∧ fld t.dev fPwrState = 3 ∧ t.dev.scu = { s.dev.scu with retainReq := false } ∧
          t.dev.cmds = s.dev.cmds ∧ t.dev.quays = s.dev.quays) ∧
      (s.dev.scu.retainStart + fld s.dev fRetainTmoMs * 1000000 ≤ s.dev.now →
        ∃ t, exec .retainTimeout s = .next t ∧ fld t.dev fPwrState = 0 ∧ fld t.dev fPwrTarget = 0 ∧
          fld t.dev fPwrAbandoned = min (fld s.dev fPwrAbandoned + 1) (2 ^ 16 - 1) ∧ fbit t.dev (fIrqRaw 0) 6 = true)) ∧
    (s.dev.scu.retainReq = false → exec .retainEntry s = .next s ∧ exec .retainTimeout s = .next s) ∧
    ((∃ q ∈ s.dev.quays, q.out ≠ []) ∨ (∃ u ∈ retainUnits, atRest s.dev u = false) → exec .retainEntry s = .next s) ∧
    (islandOk u = false → exec (.retainWake u) s = .refused .reservedOperand) ∧
    (islandOk u = true → u = 1 ∨ u = 13 ∨ fld s.dev fPwrState ≠ 3 → exec (.retainWake u) s = .next s) ∧
    (islandOk u = true → u ≠ 1 → u ≠ 13 → fld s.dev fPwrState = 3 →
      ∃ t, exec (.retainWake u) s = .next t ∧ fld t.dev fPwrState = 0 ∧ fld t.dev fPwrTarget = 0 ∧ fld t.dev fDozing = 0 ∧
        fbit t.dev (fIrqRaw 0) 6 = true ∧ onlyRegs s.dev t.dev)

/-- DOZE_ENTRY and DOZE_WAKE (R25, R337, R339): an island whose DOZE_EN bit is set and that is idle dozes, in Run and Trim; a wake clears its
bit; an island that is none is refused. -/
def Rule.Doze : Prop :=
  ∀ (s : State) (u : BitVec 4), scuRuns s.dev →
    (islandOk u = false → exec (.dozeEntry u) s = .refused .reservedOperand ∧ exec (.dozeWake u) s = .refused .reservedOperand) ∧
    (islandOk u = true →
      (mayDoze u.toNat = true → fbit s.dev fDozeEn u.toNat = true → fld s.dev fPwrState ≤ 1 → inReset s.dev u.toNat = false →
        unitIdle s.dev u.toNat = true →
        ∃ t, exec (.dozeEntry u) s = .next t ∧ fbit t.dev fDozing u.toNat = true ∧ onlyRegs s.dev t.dev ∧
          ∀ v, v < 16 → v ≠ u.toNat → fbit t.dev fDozing v = fbit s.dev fDozing v) ∧
      (mayDoze u.toNat = false ∨ fbit s.dev fDozeEn u.toNat = false ∨ 1 < fld s.dev fPwrState ∨ unitIdle s.dev u.toNat = false →
        exec (.dozeEntry u) s = .next s) ∧
      (∃ t, exec (.dozeWake u) s = .next t ∧ fbit t.dev fDozing u.toNat = false ∧ onlyRegs s.dev t.dev ∧
        ∀ v, v < 16 → v ≠ u.toNat → fbit t.dev fDozing v = fbit s.dev fDozing v))

/-! ### Security (20) -/

/-- What a change of the tokens leaves (R342, R345, R346): S as the tokens give it, counted when it changed; when it fell to Sealed, no
halt, no breakpoint and nothing staged; below Open, no instruction trace. -/
def secSettled (d e : Dev) : Prop :=
  e.scu.sec = secOf d.scu.cfg e.scu.tokens ∧ e.scu.cfg = d.scu.cfg ∧
    fld e fSecChanges = (if e.scu.sec = d.scu.sec then fld d fSecChanges else (fld d fSecChanges + 1) % 2 ^ 16) ∧
    (e.scu.sec < d.scu.sec →
      (e.scu.sec < 2 → fld e fDtcInstrEn = 0) ∧
      (e.scu.sec = 0 → fld e fDtcHalted = 0 ∧ (∀ n, n < 4 → flag e (fDtcBpEn n) = false) ∧
        (∀ w i, w < 128 → i < 64 → fld e (fWinData w i) = 0) ∧ ∀ i, i < 32 → fld e (fFqData i) = 0))

/-- DEBUG_TOKEN, TOKEN_REVOCATION, TOKEN_EXPIRY, LOCK (R342, R344 to R346, R355): a token whose form, serial or expiry fails is counted and
changes nothing else; a good one takes its slot; a revocation empties it, an expiry once its time has come, a LOCK with its key all
eight; S follows at once. -/
def Rule.SecurityTokens : Prop :=
  ∀ (s : State) (slot : BitVec 3) (data : BitVec 256) (key : BitVec 16), awake s.dev 13 = true → s.dev.scu.tokens.length = 8 →
    (parseToken data = none → exec (.debugToken slot data) s = .next { s with dev := incSat s.dev fTokenRejects }) ∧
    (∀ k serial, parseToken data = some (k, serial) →
      (serial ≠ s.dev.scu.cfg.unitSerial ∨ (k.expiry ≠ 0 ∧ k.expiry ≤ s.dev.tide % 2 ^ 64) →
        exec (.debugToken slot data) s = .next { s with dev := incSat s.dev fTokenRejects }) ∧
      (serial = s.dev.scu.cfg.unitSerial → k.expiry = 0 ∨ s.dev.tide % 2 ^ 64 < k.expiry →
        ∃ t, exec (.debugToken slot data) s = .next t ∧ t.dev.scu.tokens = s.dev.scu.tokens.set slot.toNat (some k) ∧
          secSettled s.dev t.dev)) ∧
    (∃ t, exec (.tokenRevocation slot) s = .next t ∧ t.dev.scu.tokens = s.dev.scu.tokens.set slot.toNat none ∧
      secSettled s.dev t.dev) ∧
    (s.dev.scu.tokens.getD slot.toNat none = none → exec (.tokenExpiry slot) s = .next s) ∧
    (∀ k, s.dev.scu.tokens.getD slot.toNat none = some k →
      (k.expiry = 0 ∨ s.dev.tide % 2 ^ 64 < k.expiry → exec (.tokenExpiry slot) s = .next s) ∧
      (k.expiry ≠ 0 → k.expiry ≤ s.dev.tide % 2 ^ 64 →
        ∃ t, exec (.tokenExpiry slot) s = .next t ∧ t.dev.scu.tokens = s.dev.scu.tokens.set slot.toNat none ∧
          secSettled s.dev t.dev)) ∧
    (key ≠ 0x10C4 → exec (.lock key) s = .next s) ∧
    (∃ t, exec (.lock 0x10C4) s = .next t ∧ (∀ x ∈ t.dev.scu.tokens, x = none) ∧
      t.dev.scu.sec = min s.dev.scu.cfg.secBase s.dev.scu.cfg.secMax ∧ secSettled s.dev t.dev)

/-- R342: S is never above the larger of the base state and the highest grant, never above SEC_MAX, and at least the base state that SEC_MAX
allows. -/
def Rule.SecurityState : Prop :=
  ∀ (c : ChipCfg) (ts : List (Option Token)),
    secOf c ts ≤ c.secMax ∧ min c.secBase c.secMax ≤ secOf c ts ∧
    (∀ k, some k ∈ ts → min k.grant c.secMax ≤ secOf c ts) ∧
    (secOf c ts = min c.secBase c.secMax ∨ ∃ k, some k ∈ ts ∧ secOf c ts = min k.grant c.secMax)

/-- An access of the debug access port is refused: counted, captured in the DTC's page, answered with an error (R348, R350). -/
def dapRefused (d e : Dev) (addr : Nat) : Prop :=
  fld e fSecRefused = min (fld d fSecRefused + 1) (2 ^ 32 - 1) ∧ e.dtc.dapOut = d.dtc.dapOut ++ [(0, true)] ∧
    flag e (fErrValid 10) = true ∧
    (flag d (fErrValid 10) = false → fld e (fErrClass 10) = 1 ∧ fld e (fErrCode 10) = 1 ∧ fld e (fErrAddr 10) = addr) ∧
    { e with regs := d.regs, dtc := { e.dtc with dapOut := d.dtc.dapOut } } = d

/-- DAP_ACCESS (R348, R350): while the DTC is in reset the access waits; one that the security state does not admit is refused; in Sealed the
only write admitted is LOCK; a read that is admitted answers with the register's value. -/
def Rule.DebugAccess : Prop :=
  ∀ (s : State) (wr : Bool) (addr : BitVec 20) (v : BitVec 64) (p off : Nat), p = addr.toNat / 0x1000 → off = addr.toNat % 0x1000 →
    (inReset s.dev 14 = true → exec (.dapAccess wr addr v) s =
      .next { s with dev := modDtc s.dev fun t => { t with dapHeld := t.dapHeld ++ [(wr, addr, v)] } }) ∧
    (awake s.dev 14 = true →
      (dapReadOk s.dev p off = false → ∃ t, exec (.dapAccess false addr v) s = .next t ∧ dapRefused s.dev t.dev addr.toNat) ∧
      (dapWriteOk s.dev p off v = false → ∃ t, exec (.dapAccess true addr v) s = .next t ∧ dapRefused s.dev t.dev addr.toNat) ∧
      (s.dev.scu.sec = 0 → ¬ (p = 0 ∧ off = 0x208 ∧ v.toNat / 2 ^ 48 = 0x10C4 ∧ v.toNat % 16 = 1) →
        ∃ t, exec (.dapAccess true addr v) s = .next t ∧ dapRefused s.dev t.dev addr.toNat) ∧
      (dapReadOk s.dev p off = true → off % 8 = 0 → served s.dev p = true →
        ∃ t, exec (.dapAccess false addr v) s = .next t ∧ t.dev.dtc.dapOut = s.dev.dtc.dapOut ++ [(regRead s.dev p off, false)]) ∧
      (dapWriteOk s.dev p off v = true → off % 8 = 0 → settingsReg p off = true → served s.dev p = true →
        ∃ t, exec (.dapAccess true addr v) s = .next t ∧ t.dev.dtc.dapOut = s.dev.dtc.dapOut ++ [(0, false)] ∧
          ∀ r ∈ regRows p off,
            fieldAfter r (getBits (reg s.dev p off) r.hi r.lo) (getBits v r.hi r.lo) (getBits (reg t.dev p off) r.hi r.lo)))

/-! ### Halt, trace and counters (21) -/

/-- A halt or step that is not admitted (R350, R356). -/
def haltRefused (d e : Dev) : Prop :=
  flag e fDtcRefused = true ∧ fbit e (fIrqRaw 10) 4 = true ∧ fld e fSecRefused = min (fld d fSecRefused + 1) (2 ^ 32 - 1) ∧
    fld e fDtcHalted = fld d fDtcHalted ∧ onlyRegs d e

/-- HALT, RESUME, STEP (R348, R349, R356, R358): a halt stops the pilots of the mask that run; a resume lets go those that are halted; a step
leaves them halted, one instruction further; what the state does not admit is refused. An entry into Retain or Off is given up. -/
def Rule.HaltPilots : Prop :=
  ∀ (s : State) (m : BitVec 8), awake s.dev 14 = true →
    (admits s.dev 0 1 = false →
      (∃ t, exec (.halt m) s = .next t ∧ haltRefused s.dev t.dev) ∧ ∃ t, exec (.stepPilots m) s = .next t ∧ haltRefused s.dev t.dev) ∧
    (admits s.dev 0 1 = true → inReset s.dev 4 = false →
      ∃ t, exec (.halt m) s = .next t ∧
        (∀ p, p < 8 → fbit t.dev fDtcHalted p = (fbit s.dev fDtcHalted p || (m.getLsbD p && pilotRuns s.dev p))) ∧
        ((∃ p, p < 8 ∧ m.getLsbD p = true ∧ pilotRuns s.dev p = true) → fbit t.dev (fIrqRaw 10) 0 = true) ∧
        (fld s.dev fPwrState = 5 → fld t.dev fPwrState = 0 ∧ fld t.dev fPwrTarget = 0 ∧ t.dev.scu.goingOff = false ∧
          fld t.dev fPwrAbandoned = min (fld s.dev fPwrAbandoned + 1) (2 ^ 16 - 1))) ∧
    (admits s.dev 0 1 = true → s.dev.dtc.pilots.length = 8 →
      ∃ t, exec (.stepPilots m) s = .next t ∧ t.dev.regs = s.dev.regs ∧
        ∀ p, p < 8 → at' {} t.dev.dtc.pilots p =
          if m.getLsbD p && fbit s.dev fDtcHalted p then
            { at' {} s.dev.dtc.pilots p with runs := (at' {} s.dev.dtc.pilots p).runs + 1, words := [] }
          else at' {} s.dev.dtc.pilots p) ∧
    (∃ t, exec (.resume m) s = .next t ∧
      (∀ p, p < 8 → fbit t.dev fDtcHalted p = (fbit s.dev fDtcHalted p && !m.getLsbD p)) ∧
      ((∃ p, p < 8 ∧ m.getLsbD p = true ∧ fbit s.dev fDtcHalted p = true) → fbit t.dev (fIrqRaw 10) 7 = true))

/-- BREAKPOINT_HIT (R358): the pilot halts before the instruction, with every pilot of the breakpoint's mask when GROUP is 1, and DTC event 1
is raised; without a breakpoint armed for it there, nothing. -/
def Rule.Breakpoints : Prop :=
  ∀ (s : State) (p : BitVec 3) (addr : BitVec 57), awake s.dev 14 = true →
    (pilotRuns s.dev p.toNat = false ∨ inReset s.dev 4 = true ∨
      (∀ n, n < 4 → ¬ (flag s.dev (fDtcBpEn n) = true ∧ fld s.dev (fDtcBpAddr n) = addr.toNat ∧
        fbit s.dev (fDtcBpMask n) p.toNat = true)) → exec (.breakpointHit p addr) s = .next s) ∧
    (∀ n, pilotRuns s.dev p.toNat = true → inReset s.dev 4 = false → bkptAt s.dev p.toNat addr.toNat = some n →
      ∃ t, exec (.breakpointHit p addr) s = .next t ∧ fbit t.dev fDtcHalted p.toNat = true ∧ fbit t.dev (fIrqRaw 10) 1 = true ∧
        ∀ q, q < 8 → q ≠ p.toNat → fbit t.dev fDtcHalted q = (fbit s.dev fDtcHalted q ||
          (flag s.dev (fDtcBpGroup n) && fbit s.dev (fDtcBpMask n) q && pilotRuns s.dev q)))

/-- PDBG_SEL_WRITE and PDBG_DATA_WRITE (R359): the selection is stored and, when a halted pilot and a word that it has are named, the word is
read; a write of the data stores that word, which the next read of it shows. A state that does not admit it is refused. -/
def Rule.PilotWords : Prop :=
  ∀ (s : State) (v : BitVec 64) (p sp i : Nat), awake s.dev 14 = true → s.dev.dtc.pilots.length = 8 →
    (p = v.toNat / 2 ^ 61 → sp = v.toNat / 2 ^ 60 % 2 → i = v.toNat % 2 ^ 15 →
      ∃ t, exec (.pdbgSelWrite v) s = .next t ∧ fld t.dev fDtcPdPilot = p ∧ fld t.dev fDtcPdSpace = sp ∧ fld t.dev fDtcPdIndex = i ∧
        onlyRegs s.dev t.dev ∧
        (admits s.dev 0 1 = false → fld t.dev fDtcPdResult = 3) ∧
        (admits s.dev 0 1 = true → fbit s.dev fDtcHalted p = false ∨ (sp = 0 ∧ 32 < i) → fld t.dev fDtcPdResult = 2) ∧
        (admits s.dev 0 1 = true → fbit s.dev fDtcHalted p = true → sp = 1 ∨ i ≤ 32 →
          fld t.dev fDtcPdResult = 0 ∧ fld t.dev fDtcPdData = (pilotWordOf s.dev p sp i).toNat)) ∧
    (pdbgCheck s.dev ≠ 0 → ∃ t, exec (.pdbgDataWrite v) s = .next t ∧ fld t.dev fDtcPdResult = pdbgCheck s.dev ∧
      onlyRegs s.dev t.dev) ∧
    (pdbgCheck s.dev = 0 → p = fld s.dev fDtcPdPilot → sp = fld s.dev fDtcPdSpace → i = fld s.dev fDtcPdIndex →
      ∃ t, exec (.pdbgDataWrite v) s = .next t ∧ fld t.dev fDtcPdResult = 0 ∧ fld t.dev fDtcPdData = v.toNat ∧
        pilotWordOf t.dev p sp i = v ∧
        ∀ p' sp' i', (p', sp', i') ≠ (p, sp, i) → pilotWordOf t.dev p' sp' i' = pilotWordOf s.dev p' sp' i')

/-- A record has gone to the trace SRAM: at WR with the lap, WR and LAP moved on (R363). -/
def sramGot (d e : Dev) (r : TraceRec) : Prop :=
  tfind e.dtc.sram (fld d fDtcWr) = some { r with lap := fld d fDtcLap } ∧ fld e fDtcWr = (fld d fDtcWr + 1) % 65536 ∧
    fld e fDtcLap = (if fld d fDtcWr = 65535 then (fld d fDtcLap + 1) % 65536 else fld d fDtcLap) ∧
    ∀ k, k ≠ fld d fDtcWr → tfind e.dtc.sram k = tfind d.dtc.sram k

/-- TRACE_RECORD and TRACE_RD_WRITE (R362, R363, R365): the record at the head of the source's queue goes to the SRAM, round the quays in turn; in
STOP mode the last free entry takes a LOSS record and DTC event 2 is raised, and after it records are dropped and counted; a pilot's
record waits for command records. With the unit quiesced, or nothing queued, nothing changes. -/
def Rule.TraceRecords : Prop :=
  ∀ (s : State) (q : BitVec 6) (p : BitVec 3) (v : BitVec 64),
    (56 ≤ q.toNat → exec (.traceRecord (.quay q)) s = .refused .reservedOperand) ∧
    (awake s.dev 14 = true →
      exec (.traceRdWrite v) s = .next { s with dev := setFld s.dev fDtcRd v.toNat } ∧
      (flag s.dev (fQuiesced 10) = true → q.toNat < 56 → exec (.traceRecord .marker) s = .next s ∧
        exec (.traceRecord (.quay q)) s = .next s ∧ exec (.traceRecord (.pilot p)) s = .next s) ∧
      (s.dev.dtc.markers = [] → exec (.traceRecord .marker) s = .next s) ∧
      (q.toNat < 56 → traceTurn s.dev ≠ some q.toNat → exec (.traceRecord (.quay q)) s = .next s) ∧
      (flag s.dev (fQuiesced 10) = false →
        (∀ r rest, s.dev.dtc.markers = r :: rest →
          ∃ t, exec (.traceRecord .marker) s = .next t ∧ t.dev.dtc.markers = rest ∧
            (flag s.dev fDtcMode = false ∨ (r.rtype ≠ 3 ∧ sramUsed s.dev < 65535) → sramGot s.dev t.dev r) ∧
            (flag s.dev fDtcMode = true → r.rtype ≠ 3 →
              (sramUsed s.dev = 65535 → sramGot s.dev t.dev (lossRec s.dev false 0 1) ∧ fbit t.dev (fIrqRaw 10) 2 = true) ∧
              (65535 < sramUsed s.dev → t.dev.dtc.sram = s.dev.dtc.sram ∧ fld t.dev fDtcWr = fld s.dev fDtcWr ∧
                fld t.dev fCmdLost = min (fld s.dev fCmdLost + 1) (2 ^ 16 - 1)))) ∧
        (∀ r rest, q.toNat < s.dev.quays.length → traceTurn s.dev = some q.toNat → (quayAt s.dev q.toNat).traceQ = r :: rest →
          (quayAt s.dev q.toNat).traceLost = 0 → flag s.dev fDtcMode = false → q.toNat < 56 →
          ∃ t, exec (.traceRecord (.quay q)) s = .next t ∧ sramGot s.dev t.dev r ∧ (quayAt t.dev q.toNat).traceQ = rest ∧
            t.dev.dtc.rrQuay = q.toNat) ∧
        (∀ r rest, (at' {} s.dev.dtc.pilots p.toNat).instrQ = r :: rest → p.toNat < s.dev.dtc.pilots.length → r.rtype ≠ 4 →
          (cmdTraceWaits s.dev = true → exec (.traceRecord (.pilot p)) s = .next s) ∧
          (cmdTraceWaits s.dev = false → (at' {} s.dev.dtc.pilots p.toNat).instrLost = 0 → flag s.dev fDtcMode = false →
            ∃ t, exec (.traceRecord (.pilot p)) s = .next t ∧ sramGot s.dev t.dev r ∧
              (at' {} t.dev.dtc.pilots p.toNat).instrQ = rest))))

/-- A sample of counters was taken (R367). -/
def sampled (d e : Dev) (vs : List Nat) : Prop :=
  fld e fDtcCntResult = 0 ∧ (∀ n, n < 16 → fld e (fDtcCnt n) = vs.getD n 0 % 2 ^ 64) ∧ fld e fDtcCntTime = d.tide % 2 ^ 64 ∧
    fld e fDtcCntSeq = (fld d fDtcCntSeq + 1) % 2 ^ 16 ∧ fbit e (fIrqRaw 10) 5 = true ∧ onlyRegs d e

/-- SAMPLE, PERIODIC_SAMPLE, CLEAR (R348, R367, R368): a sample copies the counters of the selection as of one instant, those of clock cycles being free values; what the state does not admit, or a
handle that names no berth, gives its RESULT only; a quiesced unit holds the sample; a periodic one is made when its period has
passed; CLEAR clears the counters selected and no others. -/
def Rule.Counters : Prop :=
  ∀ (s : State) (cs h b inst : Nat), awake s.dev 14 = true → cs = fld s.dev fDtcCntSet → h = fld s.dev fDtcCntHandle →
    b = berthIdx h → inst = instOf cs (fld s.dev fDtcCntInst) →
    (flag s.dev (fQuiesced 10) = true → exec .sample s = .next { s with dev := modDtc s.dev fun t => { t with sampleDue := true } }) ∧
    (flag s.dev (fQuiesced 10) = false →
      (cs ≠ 3 → admits s.dev 4 0 = true → ∃ t, exec .sample s = .next t ∧
        sampled s.dev t.dev ((List.range 12).map fun n => if countsCycles cs n
          then (Config.clockCycles cs inst n s.dev.now).toNat else tget 0 s.dev.dtc.cnt (cntKey cs inst n))) ∧
      (cs ≠ 3 → admits s.dev 4 0 = false → ∃ t, exec .sample s = .next t ∧ fld t.dev fDtcCntResult = 3 ∧
        fld t.dev fDtcCntSeq = fld s.dev fDtcCntSeq ∧ onlyRegs s.dev t.dev) ∧
      (cs = 3 → berthOk s.dev h = false → ∃ t, exec .sample s = .next t ∧ fld t.dev fDtcCntResult = 1 ∧
        fld t.dev fDtcCntSeq = fld s.dev fDtcCntSeq ∧ onlyRegs s.dev t.dev) ∧
      (cs = 3 → berthOk s.dev h = true → (ctxAt s.dev (berthAt s.dev b).ctxIdx).secrecy = .sealed →
        ∃ t, exec .sample s = .next t ∧ fld t.dev fDtcCntResult = 3) ∧
      (cs = 3 → berthOk s.dev h = true → queryAdmitted s.dev (ctxAt s.dev (berthAt s.dev b).ctxIdx).secrecy = true →
        ∃ t, exec .sample s = .next t ∧ sampled s.dev t.dev (tget [0, 0, 0, 0, 0] s.dev.dtc.cmdCnt b))) ∧
    (fld s.dev fDtcCntPeriod = 0 ∨ s.dev.now < s.dev.dtc.lastPeriodic + 1000 * fld s.dev fDtcCntPeriod →
      exec .periodicSample s = .next s) ∧
    (fld s.dev fDtcCntPeriod ≠ 0 → flag s.dev (fQuiesced 10) = false →
      s.dev.dtc.lastPeriodic + 1000 * fld s.dev fDtcCntPeriod ≤ s.dev.now →
      ∃ t, exec .periodicSample s = .next t ∧ t.dev.dtc.lastPeriodic = s.dev.now ∧
        exec .sample ⟨modDtc s.dev fun t => { t with lastPeriodic := s.dev.now }, s.pending⟩ = .next t) ∧
    (∃ t, exec .clear s = .next t ∧ t.dev.regs = s.dev.regs ∧
      (cs ≠ 3 → (∀ n, n < 16 → tget 0 t.dev.dtc.cnt (cntKey cs inst n) = 0) ∧
        (∀ k, k < cntKey cs inst 0 ∨ cntKey cs inst 15 < k → tget 0 t.dev.dtc.cnt k = tget 0 s.dev.dtc.cnt k) ∧
        t.dev.dtc.cmdCnt = s.dev.dtc.cmdCnt) ∧
      (cs = 3 → tget [0, 0, 0, 0, 0] t.dev.dtc.cmdCnt b = [0, 0, 0, 0, 0] ∧ t.dev.dtc.cnt = s.dev.dtc.cnt ∧
        ∀ k, k ≠ b → tget [0, 0, 0, 0, 0] t.dev.dtc.cmdCnt k = tget [0, 0, 0, 0, 0] s.dev.dtc.cmdCnt k))

/-- How a query of a context ends (R369). -/
def queryEnded (d e : Dev) (res : Nat) : Prop :=
  fld e fDtcQResult = res ∧ fld e fDtcQSeq = (fld d fDtcQSeq + 1) % 2 ^ 32 ∧ flag e fDtcQBusy = false ∧ fbit e (fIrqRaw 10) 6 = true

/-- QUERY (R348, R369, R370): a query names a context and answers its eight words as of one instant; a handle that names none, a class that the state
does not admit and a harbour read that fails have their RESULTs; while one runs another is lost, and a quiesced unit holds it. -/
def Rule.ContextQuery : Prop :=
  ∀ (s : State) (r : MemResp) (h : Nat), awake s.dev 14 = true → h = fld s.dev fDtcQSel →
    (flag s.dev fDtcQBusy = true → exec (.query r) s = .next { s with dev := setFld s.dev fDtcQLost 1 }) ∧
    (flag s.dev fDtcQBusy = false → flag s.dev (fQuiesced 10) = true →
      ∃ t, exec (.query r) s = .next t ∧ flag t.dev fDtcQBusy = true ∧ t.dev.dtc = { s.dev.dtc with ctxqOp := some (h, r) }) ∧
    (flag s.dev fDtcQBusy = false → flag s.dev (fQuiesced 10) = false →
      (ctxOk s.dev h = false → ∃ t, exec (.query r) s = .next t ∧ queryEnded s.dev t.dev 1) ∧
      (ctxOk s.dev h = true → queryAdmitted s.dev (ctxAt s.dev (ctxIdx h)).secrecy = false →
        ∃ t, exec (.query r) s = .next t ∧ queryEnded s.dev t.dev 3 ∧
          fld t.dev fSecRefused = min (fld s.dev fSecRefused + 1) (2 ^ 32 - 1)) ∧
      (ctxOk s.dev h = true → queryAdmitted s.dev (ctxAt s.dev (ctxIdx h)).secrecy = true →
        (onChip s.dev (rCtx (ctxIdx h)) = false → r ≠ .ok → ∃ t, exec (.query r) s = .next t ∧ queryEnded s.dev t.dev 4) ∧
        (onChip s.dev (rCtx (ctxIdx h)) = true ∨ r = .ok → ∃ t, exec (.query r) s = .next t ∧ queryEnded s.dev t.dev 0 ∧
          ∀ n, n < 8 → fld t.dev (fDtcQData n) = (queryWords s.dev h).getD n 0 % 2 ^ 64)))

/-! ### The whole block -/

/-- The model's step: the command at the front of the queue, with the queue's rest; the manual gives no queue, so this is the form of the
model. -/
def Rule.StepTakesFront : Prop :=
  ∀ (s : State) (c : Instr) (r : List Instr), s.pending = c :: r → step s = exec c { s with pending := r }

/-- The model's choice: with no command waiting one nanosecond passes (notes/assumptions/1.md); the tide counter follows ref_clk (R291), a
mooring command that waits is carried out (notes/assumptions/9.md), and the time-driven counters are all that else changes. -/
def Rule.IdleTick : Prop :=
  ∀ s : State, s.pending = [] → ∃ t, step s = .next t ∧ t.pending = [] ∧ t.dev.now = s.dev.now + 1 ∧
    (s.dev.mmg.cmd = none → t.dev.regs = s.dev.regs) ∧
    (∀ op m, s.dev.mmg.cmd = some (op, m) → flag t.dev fMmgBusy = false ∧ t.dev.mmg = { s.dev.mmg with cmd := none } ∧
      ∀ p off, p ≠ 0 → p ≠ 8 → off < 0x1000 → reg t.dev p off = reg s.dev p off) ∧
    t.dev.cmds = s.dev.cmds ∧ t.dev.quays = s.dev.quays ∧
    (s.dev.scu.up = true → s.dev.fsa.slew = 0 → s.dev.fsa.holdUntil ≤ s.dev.now → t.dev.tide = (s.dev.tide + 1) % 2 ^ 64) ∧
    (s.dev.scu.up = false → t.dev.tide = s.dev.tide)

/-- No command changes the queue of those that wait behind it. -/
def Rule.QueueKept : Prop :=
  ∀ (i : Instr) (s t : State), exec i s = .next t → t.pending = s.pending

/-- A command whose operands the manual defines always completes; one with a reserved operand is refused by name. -/
def Rule.Completes : Prop :=
  ∀ (i : Instr) (s : State),
    (i.wellFormed = true → ∃ t, exec i s = .next t) ∧
    (i.wellFormed = false → exec i s = .refused .reservedOperand)

/-- The rows that act while the SCU itself is in reset (R324). -/
def actsInReset : Instr → Bool
  | .powerOnReset | .brownOutReset | .pinReset | .coldResetRelease => true
  | _ => false

/-- R24, R43, R324, R350: in a cold reset a command changes nothing but what is kept at the crossings until the units leave reset: accesses of the
host and the debug access port, samples, session keys and packets, the thermal level, the links' levels and the quays' clocks. -/
def Rule.ColdResetHolds : Prop :=
  ∀ (i : Instr) (s t : State), s.dev.scu.up = false → actsInReset i = false → exec i s = .next t →
    t.dev = { s.dev with
      hpu := { s.dev.hpu with held := t.dev.hpu.held },
      hms := { s.dev.hms with held := t.dev.hms.held, therm := t.dev.hms.therm },
      dtc := { s.dev.dtc with dapHeld := t.dev.dtc.dapHeld },
      fsa := { s.dev.fsa with links := t.dev.fsa.links, held := t.dev.fsa.held },
      quays := t.dev.quays } ∧
    (∀ q, quayAt t.dev q = { quayAt s.dev q with clock := (quayAt t.dev q).clock })

/-- The state right after reset (R321, R324, R341, R342): every register reads its reset value, the SCU is in reset, S is Sealed, no
token is valid, the tide counter is 0, nothing waits, and nothing is held anywhere. -/
def Rule.ResetState : Prop :=
  (∀ p off, reg State.reset.dev p off = regDflt (regKey p off)) ∧ State.reset.dev.scu.up = false ∧ State.reset.dev.scu.sec = 0 ∧
    State.reset.dev.scu.tokens = List.replicate 8 none ∧ State.reset.dev.tide = 0 ∧ State.reset.pending = [] ∧
    State.reset.dev.cmds = [] ∧ State.reset.dev.btc.ctx = [] ∧ State.reset.dev.blu.slots = [] ∧ State.reset.dev.lbu.journal = [] ∧
    State.reset.dev.coh.lines = [] ∧ State.reset.dev.scu.queue = [] ∧ State.reset.dev.quays.length = 56 ∧
    State.reset.dev.seqs.length = 16

/-- Reset values of the Reset columns (R46, R92 to R94, R189, R224, R262, R295, R320, R341), one or more from each page. -/
def Rule.ResetRegisters : Prop :=
  fld State.reset.dev fRstCause = 1 ∧ fld State.reset.dev fIdleTmoUs = 0xC8 ∧ fld State.reset.dev fWdogTmoMs = 10 ∧
    fld State.reset.dev fWdogEn = 0 ∧ fld State.reset.dev fRetainTmoMs = 10 ∧
    (∀ r, r < 2 → fld State.reset.dev (fIrqMask r) = 2 ^ 64 - 1 ∧ fld State.reset.dev (fIrqPend r) = 0) ∧
    (∀ p ∈ [0, 1, 2, 3, 4, 5, 6, 7, 8, 9, 10, 0x10, 0x20, 0x40], fld State.reset.dev (fPageMask p) = 0xFF ∧
      fld State.reset.dev (fIrqRaw p) = 0 ∧ flag State.reset.dev (fErrValid p) = false) ∧
    fld State.reset.dev fInReset = 0x5FFE ∧ fld State.reset.dev fHmsMinSlice = 0x100

/-- The registers keep their canonical form and the units their number at every step: the register table lists rising offsets and no register at
its reset value; there are 16 sequencers, 56 quays, 48 links and 8 pilots. -/
def Rule.StepKeepsForm : Prop :=
  ∀ s t : State, s.dev.wf = true → step s = .next t → t.dev.wf = true

/-- The same at reset. -/
def Rule.ResetWellFormed : Prop :=
  State.reset.dev.wf = true

/-! ### Frames -/

/-- The rows of chapter 15. -/
def cohRow : Instr → Bool
  | .rds .. | .rdx .. | .upg .. | .wb .. | .evc .. | .wrpart .. | .atm .. | .snoopResponse .. | .pushAnswer .. | .done ..
  | .snps .. | .snpx .. | .inv .. | .snpcur .. | .push .. | .dataGrant .. | .cmp .. | .wback .. | .wrcmp .. | .atmrsp ..
  | .protocolError .. => true
  | _ => false

/-- The rows of chapter 15 after which a partial write or an atomic may be made: their grants, and the last answer they wait for. -/
def cohWriter : Instr → Bool
  | .wrpart .. | .atm .. | .snoopResponse .. => true
  | _ => false

/-- Frame of the coherence rows: the lines and messages, registers, requests to the memory ports, records asked for, the SCU, where a
violation of the protocol is reported, and the failures of a mirror that an atomic meets; the records of contexts and berths, and the
harbour region's copies of them, only where a partial write or an atomic is made; nothing else. -/
def Rule.CoherenceFrame : Prop :=
  ∀ (i : Instr) (s t : State), cohRow i = true → exec i s = .next t →
    t.dev = { s.dev with
      regs := t.dev.regs, coh := t.dev.coh, memOut := t.dev.memOut, scu := t.dev.scu,
      btc := { s.dev.btc with fills := t.dev.btc.fills, ctx := t.dev.btc.ctx, berth := t.dev.btc.berth },
      harbour := { s.dev.harbour with ctx := t.dev.harbour.ctx, berth := t.dev.harbour.berth },
      lbu := { s.dev.lbu with history := t.dev.lbu.history, redirected := t.dev.lbu.redirected } } ∧
    (cohWriter i = false → t.dev.btc.ctx = s.dev.btc.ctx ∧ t.dev.btc.berth = s.dev.btc.berth ∧ t.dev.harbour = s.dev.harbour)

/-- The rows of chapter 18. -/
def irqRow : Instr → Bool
  | .irqSourceRise .. | .msixDelivery | .msixSend | .batchEnd .. | .holdoffExpiry .. | .wireJoin .. | .irqPendWrite ..
  | .irqMaskWrite .. => true
  | _ => false

/-- Frame of the interrupt rows: the SCU, its registers, and the vector that leaves at the host port. -/
def Rule.InterruptFrame : Prop :=
  ∀ (i : Instr) (s t : State), irqRow i = true → exec i s = .next t →
    t.dev = { s.dev with regs := t.dev.regs, scu := t.dev.scu, hpu := { s.dev.hpu with out := t.dev.hpu.out } } ∧
    (∀ p off, p ≠ 0 → off < 0x1000 → reg t.dev p off = reg s.dev p off)

/-- The rows of the fault queue (17). -/
def fqRow : Instr → Bool
  | .fqConsWrite .. | .pendingMove | .fqRead .. | .take | .fqSweep .. => true
  | _ => false

/-- Frame of the fault queue's rows: the SCU, its registers, and the write of a record to the harbour region. -/
def Rule.FaultQueueFrame : Prop :=
  ∀ (i : Instr) (s t : State), fqRow i = true → exec i s = .next t →
    t.dev = { s.dev with regs := t.dev.regs, memOut := t.dev.memOut,
                         scu := { s.dev.scu with queue := t.dev.scu.queue, slots := t.dev.scu.slots, pendList := t.dev.scu.pendList } } ∧
    (∀ p off, p ≠ 0 → off < 0x1000 → reg t.dev p off = reg s.dev p off)

/-- The rows of the debug tokens (20). -/
def secRow : Instr → Bool
  | .debugToken .. | .tokenRevocation .. | .tokenExpiry .. | .lock .. => true
  | _ => false

/-- Frame of the token rows: tokens and S, registers, and what the DTC keeps of its pilots and markers. -/
def Rule.SecurityFrame : Prop :=
  ∀ (i : Instr) (s t : State), secRow i = true → exec i s = .next t →
    t.dev = { s.dev with
      regs := t.dev.regs,
      scu := { s.dev.scu with tokens := t.dev.scu.tokens, sec := t.dev.scu.sec },
      dtc := { s.dev.dtc with pilots := t.dev.dtc.pilots, markers := t.dev.dtc.markers } }

/-- The rows of trace and counters (21). -/
def traceRow : Instr → Bool
  | .traceRecord .. | .traceRdWrite .. | .sample | .periodicSample | .clear | .pdbgSelWrite .. | .pdbgDataWrite .. => true
  | _ => false

/-- Frame of the trace and counter rows: registers, the DTC, the trace queues of the quays, and the model's counter of free values. -/
def Rule.TraceFrame : Prop :=
  ∀ (i : Instr) (s t : State), traceRow i = true → exec i s = .next t →
    t.dev = { s.dev with regs := t.dev.regs, dtc := t.dev.dtc, quays := t.dev.quays, freeCtr := t.dev.freeCtr } ∧
    (∀ q, quayAt t.dev q = { quayAt s.dev q with traceQ := (quayAt t.dev q).traceQ, traceLost := (quayAt t.dev q).traceLost })

/-- The rows of power states (19). -/
def powerRow : Instr → Bool
  | .targetRun | .targetTrim | .targetRetain | .targetOff | .retainEntry | .retainTimeout | .retainWake .. | .dozeEntry ..
  | .dozeWake .. => true
  | _ => false

/-- Frame of the power rows: the SCU and its registers. -/
def Rule.PowerFrame : Prop :=
  ∀ (i : Instr) (s t : State), powerRow i = true → exec i s = .next t →
    t.dev = { s.dev with regs := t.dev.regs, scu := t.dev.scu } ∧
    t.dev.scu.cfg = s.dev.scu.cfg ∧ t.dev.scu.tokens = s.dev.scu.tokens ∧ t.dev.scu.sec = s.dev.scu.sec ∧
    (∀ p off, p ≠ 0 → off < 0x1000 → reg t.dev p off = reg s.dev p off)

/-! ### Check codes -/

/-- R87, R244: the check codes see every error confined to one byte, wherever it stands: CRC-32C of ring lines and CRC-64/XZ of records. -/
def Rule.ChecksSeeByteErrors : Prop :=
  ∀ (l r : List Nat) (a b : Nat), (∀ x ∈ l ++ r, x < 256) → a < 256 → b < 256 → a ≠ b →
    crc32c (l ++ a :: r) ≠ crc32c (l ++ b :: r) ∧ crc64 (l ++ a :: r) ≠ crc64 (l ++ b :: r)

/-- The rows of pacing (12). -/
def paceRow : Instr → Bool
  | .currentSample .. | .telemetryLost | .thermalChange .. | .paceLimitWrite .. => true
  | _ => false

/-- Frame of the pacing rows: registers, the HMS, and the limits that it sends to the quays. -/
def Rule.PacingFrame : Prop :=
  ∀ (i : Instr) (s t : State), paceRow i = true → exec i s = .next t →
    t.dev = { s.dev with regs := t.dev.regs, hms := t.dev.hms, quays := t.dev.quays } ∧
    (∀ q, quayAt t.dev q = { quayAt s.dev q with limit := (quayAt t.dev q).limit })

/-- The rows of the tide exchange (16). -/
def tideRow : Instr → Bool
  | .tideSyncSend | .tideSync .. | .departureStamp .. | .tideLost => true
  | _ => false

/-- Frame of the tide rows: registers, the FSA, the tide counter, and the model's counter of free values. -/
def Rule.TideFrame : Prop :=
  ∀ (i : Instr) (s t : State), tideRow i = true → exec i s = .next t →
    t.dev = { s.dev with regs := t.dev.regs, fsa := t.dev.fsa, tide := t.dev.tide, dtc := t.dev.dtc, freeCtr := t.dev.freeCtr } ∧
    t.dev.fsa.partners = s.dev.fsa.partners

/-- R309: the level of a source, over the page events that feed it. -/
def Rule.SourceLevel : Prop :=
  ∀ (d : Dev) (n : Nat), srcLevel d n = true ↔
    ∃ e ∈ srcFeeds n, fbit d (fIrqRaw e.1) e.2 = true ∧ fbit d (fPageMask e.1) e.2 = false

/-- R182: what an arrival for generation V does at a barrier that holds g, ARRIVED_CUR c and ARRIVED_NEXT x, by e = (V − g) mod 2^32. -/
def Rule.ArrivalCases : Prop :=
  ∀ (n g c x v e : Nat), 0 < n → n < 2 ^ 16 → g < 2 ^ 32 → c < n → x < n → v < 2 ^ 32 → e = (v + 2 ^ 32 - g) % 2 ^ 32 →
    (e = 0 → c + 1 < n → arriveOp n (mkBarrier g c x) v = .ok (mkBarrier g (c + 1) x)) ∧
    (e = 0 → c + 1 = n → arriveOp n (mkBarrier g c x) v = .ok (mkBarrier ((g + 1) % 2 ^ 32) x 0)) ∧
    (e = 1 → x + 1 < n → arriveOp n (mkBarrier g c x) v = .ok (mkBarrier g c (x + 1))) ∧
    (e = 1 → x + 1 = n → arriveOp n (mkBarrier g c x) v = .no .barrierOver) ∧
    (2 ≤ e → e < 2 ^ 31 → arriveOp n (mkBarrier g c x) v = .no .barrierOver) ∧
    (2 ^ 31 ≤ e → arriveOp n (mkBarrier g c x) v = .no .barrierLate)

/-- R182: an arrival as a signal acts on VALUE as the arrival does, and it never waits. -/
def Rule.ArriveSignal : Prop :=
  ∀ (r : BolRec) (v : W64), r.kind = .barrier →
    sigOp r 3 v = arriveOp (participantsOf r) r.value (v.toNat % 2 ^ 32)

/-! ### Where the rows of three chapters complete (09, 16, 19) -/

/-- ALLOC_BLOCKS, ALLOC_COMMIT, FREE_BLOCKS, POOL_CREATE, POOL_DESTROY, POOL_READ complete (R160 to R162, R167): under the conditions that the
rules give for normal execution each answers a next state with its own effect. -/
def Rule.PoolRowsComplete : Prop :=
  ∀ (s : State) (k : CmdId) (x : Cmd) (p cnt va slot : Nat) (nowait : Bool), awake s.dev 7 = true →
    (∀ (reads : List FreeRead), atIssueOf s.dev k x → x.spec.op = .alloc p nowait cnt va slot → flag s.dev (fQreq 6) = false →
      ctxLive s.dev x.ctx = true → (poolAt s.dev p).waiters.contains k = false → countOf s.dev x ≠ 0 →
      allocCause s.dev x (countOf s.dev x) = 0 → servable s.dev p (countOf s.dev x) = true →
      ∃ t, exec (.allocBlocks k reads) s = .next t ∧ poolAt t.dev p = (takeIx (poolAt s.dev p) (countOf s.dev x)).2) ∧
    (∀ (slots : SlotRead) (w : List MemResp) (a : AllocOpen), cmdAt s.dev k = some x → hot s.dev (berthRecs s.dev x.berth) → x.status = none → x.completeLsn = none →
      x.spec.sigs = [] → x.spec.op = .alloc p nowait cnt va 0 → s.dev.lev.allocs = [a] → a.cmd = k →
      va + 4 * a.ix.length ≤ 2 ^ 57 → (poolAt s.dev a.pool).waiters = [] → (∀ r ∈ w, r = .ok ∨ r = .poison) →
      (outWrites 0 (outAddrs va 0 a.ix.length [])).length ≤ w.length →
      ∃ t, exec (.allocCommit k slots w) s = .next t ∧ t.dev.lev.allocs = [] ∧
        (cmdAt t.dev k).map (fun x => (x.phase, x.status)) = some (.complete, some stOk)) ∧
    (∀ (ix : List W32), atIssueOf s.dev k x → x.spec.op = .free p cnt va → x.spec.sigs = [] → flag s.dev (fQreq 6) = false →
      ctxLive s.dev x.ctx = true → countOf s.dev x ≠ 0 → freeCause s.dev x (countOf s.dev x) = 0 →
      va + 4 * countOf s.dev x ≤ 2 ^ 57 → ix.length = countOf s.dev x → (poolAt s.dev p).waiters = [] →
      badIndex (poolAt s.dev p) (ix.map (·.toNat)) = none →
      ∃ t, exec (.freeBlocks k { cmd := k, r := .ok, idx := ix }) s = .next t ∧
        (poolAt t.dev p).stack = (poolAt s.dev p).stack ++ ix.map (·.toNat) ∧
        (cmdAt t.dev k).map (fun x => (x.phase, x.status)) = some (.complete, some stOk)) ∧
    (∀ (b : Nat), flag s.dev fLevPoolBusy = false → flag s.dev (fQuiesced 6) = false → p = fld s.dev fLevPoolIndex →
      (poolAt s.dev p).st = .free → 0 < fld s.dev fLevPoolBlocks → fld s.dev fLevPoolBlocks ≤ 2 ^ 24 →
      ctxLive s.dev (fld s.dev fLevPoolOwner) = true →
      firstFit (areaBlocks s.dev) (fld s.dev fLevPoolBlocks) 0 (areaUsed s.dev) = some b →
      ∃ t, exec .poolCreate s = .next t ∧ fld t.dev fLevPoolResult = 0 ∧
        poolAt t.dev p = { st := .live, owner := fld s.dev fLevPoolOwner, blocks := fld s.dev fLevPoolBlocks, base := b }) ∧
    (flag s.dev fLevPoolBusy = false → flag s.dev (fQuiesced 6) = false → p = fld s.dev fLevPoolIndex →
      (poolAt s.dev p).st = .live →
      ((poolAt s.dev p).held = [] → (poolAt s.dev p).waiters = [] →
        ∃ t, exec .poolDestroy s = .next t ∧ fld t.dev fLevPoolResult = 0 ∧ (poolAt t.dev p).st = .free) ∧
      ∃ t, exec .poolRead s = .next t ∧ fld t.dev fLevPoolResult = 0 ∧ fld t.dev fLevInfoState = 1 ∧
        t.dev.lev.pools = s.dev.lev.pools)

/-- ENUM_START, ENUM, ENUM_REPLY, CENSUS, ROUTE, ISOLATE, LINK_DOWN, LINK_UP, LINK_SESSION_KEY complete (R278 to R282, R284): under the
conditions that the rules give for normal execution each answers a next state with its own effect. -/
def Rule.EnumRowsComplete : Prop :=
  ∀ (s : State) (l : BitVec 6) (a : Nat) (p : Packet), awake s.dev 12 = true → s.dev.fsa.links.length = 48 → l.toNat < 48 →
    (isRoot s.dev = true → flag s.dev fFsaEnumBusy = false → s.dev.fsa.censusOn = false → flag s.dev (fQuiesced 9) = false →
      linkUsable s.dev l.toNat = true → (linkAt s.dev l.toNat).st ≠ .foreign → (∀ j, j < l.toNat → linkUsable s.dev j = false) →
      ∃ t, exec .enumStart s = .next t ∧ flag t.dev fFsaEnumBusy = true ∧ t.dev.fsa.tokenAt = some l.toNat ∧
        t.dev.fsa.epoch = some ((s.dev.fsa.lastEpoch + 1) % 2 ^ 16)) ∧
    (nextIn s.dev l.toNat = some (a, p) →
      (∀ (epoch : BitVec 16) (root base next hops : W32), p.body = .enumTok epoch root base next hops → linkUsable s.dev l.toNat = true →
        s.dev.fsa.rootId = 0 ∨ root.toNat = s.dev.fsa.rootId → s.dev.fsa.epoch ≠ some epoch.toNat →
        flag s.dev fFsaPinned = false →
        ∃ t, exec (.enumToken l) s = .next t ∧ t.dev.fsa.epoch = some epoch.toNat ∧ t.dev.fsa.parent = some l.toNat ∧
          fld t.dev fFsaId = if fld s.dev fFsaId = 0 then next.toNat else fld s.dev fFsaId) ∧
      (∀ (ans : EnumAns) (next id : W32), p.body = .enumReply ans next id → isRoot s.dev = false → s.dev.fsa.tokenAt = some l.toNat →
        ∃ t, exec (.enumReply l) s = .next t ∧ (linkAt t.dev l.toNat).st = ansLink ans) ∧
      (∀ (id : W32), p.body = .census (.newId [] id) → isRoot s.dev = false →
        ∃ t, exec (.census l) s = .next t ∧ fld t.dev fFsaId = id.toNat) ∧
      (∀ (dst : W32) (pr al : BitVec 6), p.body = .route [] dst pr al false → dst.toNat ≠ fld s.dev fFsaId → pr.toNat < 48 →
        ∃ t, exec (.route l) s = .next t ∧ (partnerAt t.dev dst.toNat).primary = some pr.toNat) ∧
      (p.body = .isolate [] → ∃ t, exec (.isolate l) s = .next t ∧ fld t.dev fFsaState = 2)) ∧
    ((linkAt s.dev l.toNat).up = false →
      ∃ t, exec (.linkUp l) s = .next t ∧ (linkAt t.dev l.toNat).up = true ∧ fbit t.dev (fIrqRaw 9) 2 = true) ∧
    ((linkAt s.dev l.toNat).up = true → isRoot s.dev = false →
      ∃ t, exec (.linkDown l) s = .next t ∧ (linkAt t.dev l.toNat).up = false ∧ fbit t.dev (fIrqRaw 9) 2 = true) ∧
    (∀ (sel : BitVec 16) (key : BitVec 256), (sel.extractLsb' 0 6) = l → (sel.extractLsb' 6 6).toNat < 48 →
      ∃ t, exec (.linkSessionKey sel key) s = .next t ∧ (linkAt t.dev l.toNat).key = some key ∧
        (linkAt t.dev l.toNat).tx = 0 ∧ (linkAt t.dev l.toNat).rx = 0)

/-- CONFIG_CHUNK, CONFIG_VERDICT, IMAGE_CHUNK, IMAGE_VERDICT, IMAGE_RELOAD_DONE, LOG_FORMAT_DONE, LOAD_COMPLETE, LOAD_FAIL, NO_VERDICT, RETRY
complete (R328 to R332): under the conditions that the rules give for normal execution each answers a next state with its own effect. -/
def Rule.LoadRowsComplete : Prop :=
  ∀ (s : State) (data : BitVec 256) (last : Bool) (reason : BitVec 8), scuRuns s.dev →
    (s.dev.scu.load = .config →
      (s.dev.scu.cfgDone = false → s.dev.scu.cfgChunks.length < 2048 →
        ∃ t, exec (.configChunk data last) s = .next t ∧ t.dev.scu.cfgChunks = s.dev.scu.cfgChunks ++ [data] ∧
          t.dev.scu.cfgDone = last) ∧
      (∀ c, s.dev.scu.cfgDone = true → parseConfig s.dev.scu.cfgChunks = some c →
        ∃ t, exec (.configVerdict true) s = .next t ∧ t.dev.scu.cfg = c ∧ t.dev.scu.cfgVerified = true ∧
          t.dev.scu.load = .image) ∧
      (s.dev.scu.loadStart + 100000000 ≤ s.dev.now →
        ∃ t, exec .noVerdict s = .next t ∧ fld t.dev fLoadState = 4 ∧ fld t.dev fLoadReason = 8)) ∧
    (s.dev.scu.load = .image → s.dev.scu.imgVerdict = false →
      (s.dev.scu.fromHarbour = false → s.dev.scu.imgDone = false → s.dev.scu.imgCount < 524288 →
        ∃ t, exec (.imageChunk data last) s = .next t ∧ t.dev.scu.imgCount = s.dev.scu.imgCount + 1 ∧ t.dev.scu.imgDone = last) ∧
      (inReset s.dev 10 = true →
        (s.dev.scu.fromHarbour = false → s.dev.scu.imgDone = true →
          ∃ t, exec (.imageVerdict true) s = .next t ∧ t.dev.scu.imgVerdict = true ∧
            t.dev.scu.imgCopy = some s.dev.scu.imgHead) ∧
        (∀ h, s.dev.scu.fromHarbour = true → s.dev.scu.imgCopy = some h →
          ∃ t, exec (.imageReloadDone true) s = .next t ∧ t.dev.scu.imgVerdict = true ∧ t.dev.scu.imgHead = h))) ∧
    (s.dev.scu.load = .image → s.dev.scu.formatDue = true → inReset s.dev 10 = false →
      ∃ t, exec .logFormatDone s = .next t ∧ t.dev.lbu.nextLsn = 1 ∧ t.dev.lbu.durable = 1 ∧ t.dev.harbour = {} ∧
        fld t.dev fLoadLog = 2) ∧
    (s.dev.scu.load = .checked → fld s.dev fInReset = 0 → s.dev.scu.rst = .none →
      ∃ t, exec .loadComplete s = .next t ∧ fld t.dev fLoadState = 2 ∧ t.dev.scu.load = .none) ∧
    (fld s.dev fLoadState = 1 → 1 ≤ reason.toNat → reason.toNat ≤ 8 →
      ∃ t, exec (.loadFail reason) s = .next t ∧ fld t.dev fLoadState = 4 ∧ fld t.dev fLoadReason = reason.toNat) ∧
    (fld s.dev fLoadState = 4 →
      ∃ t, exec .retry s = .next t ∧ fld t.dev fLoadState = 1 ∧ t.dev.scu.load = .config ∧ t.dev.scu.rst = .release)

end Sys2Proof.Machine

/-- A step runs the command at the front of the queue (01_block_architecture.md, 02_ports_and_islands.md). -/
def Obligations.StepTakesFront : Prop :=
  Sys2Proof.Machine.Rule.StepTakesFront

/-- With no command waiting one nanosecond passes (R291). -/
def Obligations.IdleTick : Prop :=
  Sys2Proof.Machine.Rule.IdleTick

/-- Every command with operands the manual defines completes (R38, R10, R264). -/
def Obligations.CommandsComplete : Prop :=
  Sys2Proof.Machine.Rule.Completes ∧ Sys2Proof.Machine.Rule.QueueKept

/-- In a cold reset nothing acts but the resets and what is kept at the crossings (R24, R43, R324, R350). -/
def Obligations.ColdResetHolds : Prop :=
  Sys2Proof.Machine.Rule.ColdResetHolds

/-- What power-on reset leaves (R46, R321, R324, R326, R341, R342, R320, R224). -/
def Obligations.ResetState : Prop :=
  Sys2Proof.Machine.Rule.ResetState ∧ Sys2Proof.Machine.Rule.ResetRegisters ∧ Sys2Proof.Machine.Rule.ResetWellFormed

/-- Every step keeps the registers in canonical form and the units in their number (R10, R38, R41, R122, R279). -/
def Obligations.StepKeepsForm : Prop :=
  Sys2Proof.Machine.Rule.StepKeepsForm

/-- A register write acts on each field by its type and on nothing else (R41, R6). -/
def Obligations.RegisterFields : Prop :=
  Sys2Proof.Machine.Rule.RegisterWriteFields

/-- Reads, refused writes and quiesce requests (R39, R40, R41, R43, R53). -/
def Obligations.RegisterAccess : Prop :=
  Sys2Proof.Machine.Rule.RegisterWriteDiscarded ∧ Sys2Proof.Machine.Rule.RegisterRead ∧
    Sys2Proof.Machine.Rule.QuiesceProtocol

/-- The doorbell aperture (R44). -/
def Obligations.DoorbellAperture : Prop :=
  Sys2Proof.Machine.Rule.ApertureRead ∧ Sys2Proof.Machine.Rule.DoorbellWrite

/-- Window commands (R50, R57, R59, R61). -/
def Obligations.WindowCommands : Prop :=
  Sys2Proof.Machine.Rule.WindowBusyDiscards ∧ Sys2Proof.Machine.Rule.WindowRead ∧ Sys2Proof.Machine.Rule.WindowWriteBerth ∧
    Sys2Proof.Machine.Rule.WindowClear ∧ Sys2Proof.Machine.Rule.WindowDone

/-- Doorbells at the home agent (R76, R77, R80, R82, R84, R274). -/
def Obligations.Doorbells : Prop :=
  Sys2Proof.Machine.Rule.DoorbellCheck ∧ Sys2Proof.Machine.Rule.BerthWake ∧ Sys2Proof.Machine.Rule.StashWrite

/-- Fetching a manifest ring (R80, R81, R82, R83, R87, R88, R94, R381). -/
def Obligations.RingFetch : Prop :=
  Sys2Proof.Machine.Rule.FetchWindow ∧ Sys2Proof.Machine.Rule.LineResponse ∧ Sys2Proof.Machine.Rule.IdleCheck ∧
    Sys2Proof.Machine.Rule.FetchReply

/-- Translation and its cache (R117, R118, R119, R120, R121, R124, R131). -/
def Obligations.Translation : Prop :=
  Sys2Proof.Machine.Rule.XcLookup ∧ Sys2Proof.Machine.Rule.XcHarbourAnswer ∧ Sys2Proof.Machine.Rule.TranslationDone ∧
    Sys2Proof.Machine.Rule.TranslationRestart ∧ Sys2Proof.Machine.Rule.XcFlush ∧ Sys2Proof.Machine.Rule.ControlStoreError

/-- Acceptance of a manifest (R246, R248, R249, R252). -/
def Obligations.Acceptance : Prop :=
  Sys2Proof.Machine.Rule.AcceptRequest ∧ Sys2Proof.Machine.Rule.ManifestAccepted

/-- The logbook (R68, R112, R243, R250, R252, R260, R261, R306). -/
def Obligations.Logbook : Prop :=
  Sys2Proof.Machine.Rule.LogUnitDurable ∧ Sys2Proof.Machine.Rule.CompleteDurable ∧
    Sys2Proof.Machine.Rule.CompletionRecordLost ∧ Sys2Proof.Machine.Rule.Checkpoint ∧ Sys2Proof.Machine.Rule.Mirrors ∧
    Sys2Proof.Machine.Rule.HarbourPoison

/-- Replay after a reset (R254, R255, R256, R331). -/
def Obligations.Replay : Prop :=
  Sys2Proof.Machine.Rule.Replay ∧ Sys2Proof.Machine.Rule.CommandInterrupted

/-- SIGNAL_HOST and a host write that fails (R105, R296, R385). -/
def Obligations.HostSignals : Prop :=
  Sys2Proof.Machine.Rule.SignalHost ∧ Sys2Proof.Machine.Rule.HostWriteFail

/-- The harbourmaster grants commands (R184, R204, R206, R224, R357). -/
def Obligations.Granting : Prop :=
  Sys2Proof.Machine.Rule.HmsPick ∧ Sys2Proof.Machine.Rule.HmsHeld ∧ Sys2Proof.Machine.Rule.SpinAndWake

/-- Preemption and reclaim (R209, R210, R211, R213). -/
def Obligations.Preemption : Prop :=
  Sys2Proof.Machine.Rule.PreemptDecision ∧ Sys2Proof.Machine.Rule.PreemptComplete ∧ Sys2Proof.Machine.Rule.Reclaim

/-- Pacing and stall reports (R217, R218, R219, R220, R222, R223, R225). -/
def Obligations.Pacing : Prop :=
  Sys2Proof.Machine.Rule.CurrentSample ∧ Sys2Proof.Machine.Rule.TelemetryLost ∧ Sys2Proof.Machine.Rule.ThermalChange ∧
    Sys2Proof.Machine.Rule.PaceLimitWrite ∧ Sys2Proof.Machine.Rule.StallReport

/-- Forming and launching tiles (R108, R133, R134, R135, R136, R138, R139, R141, R143, R147). -/
def Obligations.TileLaunch : Prop :=
  Sys2Proof.Machine.Rule.LaunchTiles ∧ Sys2Proof.Machine.Rule.DmaCommands ∧ Sys2Proof.Machine.Rule.TileForm ∧
    Sys2Proof.Machine.Rule.OperandAddress ∧ Sys2Proof.Machine.Rule.IndexLine

/-- Slices and grid points partition a command's tiles (R133, R138). -/
def Obligations.TilePartition : Prop :=
  Sys2Proof.Machine.Rule.SlicesPartition ∧ Sys2Proof.Machine.Rule.PointsDistinct

/-- Collectives run ring steps (R293). -/
def Obligations.Collectives : Prop :=
  Sys2Proof.Machine.Rule.Collectives

/-- Descriptors and completion packets (R31, R139, R140, R145, R146). -/
def Obligations.Descriptors : Prop :=
  Sys2Proof.Machine.Rule.DescriptorCrossing ∧ Sys2Proof.Machine.Rule.DescriptorLaunch ∧
    Sys2Proof.Machine.Rule.CompletionPacket

/-- How a command ends (R147, R176, R296, R299). -/
def Obligations.CommandEnds : Prop :=
  Sys2Proof.Machine.Rule.CommandTilesDone ∧ Sys2Proof.Machine.Rule.CommandFault

/-- Drains and quay states (R26, R148, R149, R150, R151). -/
def Obligations.QuayDrains : Prop :=
  Sys2Proof.Machine.Rule.DrainRequest ∧ Sys2Proof.Machine.Rule.DrainEnd ∧ Sys2Proof.Machine.Rule.QuayStates

/-- Wait entries (R57, R104, R105, R172, R173, R174, R175, R286). -/
def Obligations.Waits : Prop :=
  Sys2Proof.Machine.Rule.WaitChecks ∧ Sys2Proof.Machine.Rule.WaitLevel ∧ Sys2Proof.Machine.Rule.CounterTake ∧
    Sys2Proof.Machine.Rule.RemoteWait

/-- Arrivals at a barrier (R182). -/
def Obligations.BarrierArrivals : Prop :=
  Sys2Proof.Machine.Rule.ArrivalCases ∧ Sys2Proof.Machine.Rule.ArriveSignal ∧ Sys2Proof.Machine.Rule.BarrierPass ∧
    Sys2Proof.Machine.Rule.BarrierTurns

/-- Signals (R105, R176, R178, R179, R180). -/
def Obligations.Signals : Prop :=
  Sys2Proof.Machine.Rule.SignalApplied ∧ Sys2Proof.Machine.Rule.SignalOperations

/-- Host commands on bollards (R185, R186, R188, R189, R306, R348). -/
def Obligations.HostBollards : Prop :=
  Sys2Proof.Machine.Rule.HostCommands ∧ Sys2Proof.Machine.Rule.WatchWriteFail

/-- Teardown and slots (R56, R59, R63, R65, R66, R67, R71, R303, R306). -/
def Obligations.Teardown : Prop :=
  Sys2Proof.Machine.Rule.TeardownStop ∧ Sys2Proof.Machine.Rule.TeardownDone ∧ Sys2Proof.Machine.Rule.AbandonHoldEnd ∧
    Sys2Proof.Machine.Rule.BerthDrained ∧ Sys2Proof.Machine.Rule.RecordFill

/-- EVAL programs and join commands (R100, R106, R154, R155, R156, R157, R159, R167, R306, R374). -/
def Obligations.EvalPrograms : Prop :=
  Sys2Proof.Machine.Rule.EvalStart ∧ Sys2Proof.Machine.Rule.EvalProgramRead ∧ Sys2Proof.Machine.Rule.EvalInstruction ∧
    Sys2Proof.Machine.Rule.EvalLoadData ∧ Sys2Proof.Machine.Rule.EvalStoreFault ∧ Sys2Proof.Machine.Rule.EvalComplete ∧
    Sys2Proof.Machine.Rule.JoinCommands

/-- The arithmetic of EVAL (R155, R156, R157). -/
def Obligations.EvalArithmetic : Prop :=
  Sys2Proof.Machine.Rule.EvalAlu ∧ Sys2Proof.Machine.Rule.EvalScalars ∧ Sys2Proof.Machine.Rule.EvalArrays

/-- Pools (R109, R160, R161, R162, R165, R167). -/
def Obligations.Pools : Prop :=
  Sys2Proof.Machine.Rule.AllocBlocks ∧ Sys2Proof.Machine.Rule.FreeBlocks ∧ Sys2Proof.Machine.Rule.AllocCommit ∧
    Sys2Proof.Machine.Rule.PoolCommands

/-- Indices, pool areas and granules are handed out without overlap (R160, R161, R234). -/
def Obligations.FirstFit : Prop :=
  Sys2Proof.Machine.Rule.TakeIndices ∧ Sys2Proof.Machine.Rule.FirstFit ∧ Sys2Proof.Machine.Rule.GranulesFit

/-- Wait-cycle detection (R190, R194, R196, R197, R198, R201). -/
def Obligations.CycleSearch : Prop :=
  Sys2Proof.Machine.Rule.SearchStart ∧ Sys2Proof.Machine.Rule.SelfDeadlock ∧ Sys2Proof.Machine.Rule.CycleQueries ∧
    Sys2Proof.Machine.Rule.CycleReply

/-- Moorings (R230, R231, R232, R241, R348). -/
def Obligations.Moorings : Prop :=
  Sys2Proof.Machine.Rule.Moor ∧ Sys2Proof.Machine.Rule.Unmoor ∧ Sys2Proof.Machine.Rule.MmgRead

/-- Loads and repairs of moorings (R234, R235, R236, R237, R238). -/
def Obligations.MooringLoads : Prop :=
  Sys2Proof.Machine.Rule.LoadStart ∧ Sys2Proof.Machine.Rule.LoadLines ∧ Sys2Proof.Machine.Rule.LoadRestart ∧
    Sys2Proof.Machine.Rule.MooringPoison ∧ Sys2Proof.Machine.Rule.GranuleRepaired

/-- Enumeration, census and routes (R278, R279, R280, R281, R282, R284). -/
def Obligations.Enumeration : Prop :=
  Sys2Proof.Machine.Rule.EnumStart ∧ Sys2Proof.Machine.Rule.EnumToken ∧ Sys2Proof.Machine.Rule.EnumReply ∧
    Sys2Proof.Machine.Rule.Census ∧ Sys2Proof.Machine.Rule.Route ∧ Sys2Proof.Machine.Rule.Isolate ∧
    Sys2Proof.Machine.Rule.LinkLevels ∧ Sys2Proof.Machine.Rule.LinkSessionKey

/-- Packets (R283, R284, R285, R286, R294). -/
def Obligations.Packets : Prop :=
  Sys2Proof.Machine.Rule.PacketReceive ∧ Sys2Proof.Machine.Rule.PacketResend ∧ Sys2Proof.Machine.Rule.AckOnly

/-- Signals and waits between nodes (R175, R178, R287, R288, R289, R290). -/
def Obligations.RemoteSync : Prop :=
  Sys2Proof.Machine.Rule.RemoteSignal ∧ Sys2Proof.Machine.Rule.PartnerNotices ∧ Sys2Proof.Machine.Rule.RemoteRegister

/-- The TIDE_SYNC exchange, stamps and the loss of alignment (R291, R292). -/
def Obligations.Tide : Prop :=
  Sys2Proof.Machine.Rule.TideExchange ∧ Sys2Proof.Machine.Rule.StampExtends ∧ Sys2Proof.Machine.Rule.TideLost ∧
    Sys2Proof.Machine.Rule.TideFrame

/-- Partner and capability commands (R290, R294, R295). -/
def Obligations.PartnersAndExports : Prop :=
  Sys2Proof.Machine.Rule.PartnerCommands ∧ Sys2Proof.Machine.Rule.ExportCommands

/-- The fault queue (R296, R299, R300, R301, R307, R386). -/
def Obligations.FaultQueue : Prop :=
  Sys2Proof.Machine.Rule.FaultRecordWrite ∧ Sys2Proof.Machine.Rule.FqConsWrite ∧ Sys2Proof.Machine.Rule.PendingMove ∧
    Sys2Proof.Machine.Rule.FaultCommands ∧ Sys2Proof.Machine.Rule.FaultQueueFrame

/-- Machine checks (R303, R304, R305). -/
def Obligations.MachineChecks : Prop :=
  Sys2Proof.Machine.Rule.MachineCheck

/-- Requests at agents and at the home (R267, R268, R269, R271, R272, R273). -/
def Obligations.CoherenceHome : Prop :=
  Sys2Proof.Machine.Rule.CoherenceSend ∧ Sys2Proof.Machine.Rule.CoherenceGrant ∧ Sys2Proof.Machine.Rule.HomeAnswers

/-- Messages at agents (R264, R268, R270, R272, R304). -/
def Obligations.CoherenceAgents : Prop :=
  Sys2Proof.Machine.Rule.AgentTable ∧ Sys2Proof.Machine.Rule.AgentMessages ∧ Sys2Proof.Machine.Rule.PilotAnswers ∧
    Sys2Proof.Machine.Rule.ProtocolError

/-- Atomics, partial writes and check codes (R30, R87, R244, R268, R272). -/
def Obligations.LineData : Prop :=
  Sys2Proof.Machine.Rule.AtomicOperations ∧ Sys2Proof.Machine.Rule.PartialWrite ∧ Sys2Proof.Machine.Rule.ChecksSeeByteErrors

/-- What the rows of six chapters leave unchanged (15_internal_coherence.md, 18_interrupts.md, 20_security_debug_power.md, 21_trace_and_counters.md, 19_reset_power_startup.md, 12_harbourmaster.md). -/
def Obligations.Frames : Prop :=
  Sys2Proof.Machine.Rule.CoherenceFrame ∧ Sys2Proof.Machine.Rule.InterruptFrame ∧ Sys2Proof.Machine.Rule.SecurityFrame ∧
    Sys2Proof.Machine.Rule.TraceFrame ∧ Sys2Proof.Machine.Rule.PowerFrame ∧ Sys2Proof.Machine.Rule.PacingFrame

/-- A source's level and its PEND bit (R309). -/
def Obligations.InterruptLevels : Prop :=
  Sys2Proof.Machine.Rule.SourceLevel ∧ Sys2Proof.Machine.Rule.SourceRise

/-- Delivery of interrupts (R310, R311, R312, R313, R314, R315, R316, R320, R331). -/
def Obligations.InterruptDelivery : Prop :=
  Sys2Proof.Machine.Rule.MsixDelivery ∧ Sys2Proof.Machine.Rule.MsixSend ∧ Sys2Proof.Machine.Rule.Batches ∧
    Sys2Proof.Machine.Rule.WireJoin ∧ Sys2Proof.Machine.Rule.PendMaskWrite

/-- Resets and their causes (R321, R322, R323, R324, R326, R328, R335, R336, R341, R348). -/
def Obligations.ResetSources : Prop :=
  Sys2Proof.Machine.Rule.ColdResets ∧ Sys2Proof.Machine.Rule.ColdResetRelease ∧ Sys2Proof.Machine.Rule.BlockResets ∧
    Sys2Proof.Machine.Rule.Watchdog

/-- The way into reset (R275, R322, R323, R334, R340). -/
def Obligations.ResetEntry : Prop :=
  Sys2Proof.Machine.Rule.IdleRequest ∧ Sys2Proof.Machine.Rule.IdleComplete ∧ Sys2Proof.Machine.Rule.MemoryDrainDone ∧
    Sys2Proof.Machine.Rule.PilotLockup

/-- The order of release (R36, R326). -/
def Obligations.IslandRelease : Prop :=
  Sys2Proof.Machine.Rule.IslandRelease ∧ Sys2Proof.Machine.Rule.ReleaseOrder

/-- Loading (R328, R329, R330, R331, R332, R343). -/
def Obligations.Loading : Prop :=
  Sys2Proof.Machine.Rule.Configuration ∧ Sys2Proof.Machine.Rule.ImageLoad ∧ Sys2Proof.Machine.Rule.LogFormat ∧
    Sys2Proof.Machine.Rule.LoadEnd

/-- Power states (R25, R337, R338, R339, R340, R349). -/
def Obligations.PowerStates : Prop :=
  Sys2Proof.Machine.Rule.PowerTargets ∧ Sys2Proof.Machine.Rule.Retain ∧ Sys2Proof.Machine.Rule.Doze

/-- The security state (R342). -/
def Obligations.SecurityState : Prop :=
  Sys2Proof.Machine.Rule.SecurityState ∧ Sys2Proof.Machine.Rule.SecurityTokens

/-- Debug access, halts and pilot words (R348, R349, R350, R356, R358, R359). -/
def Obligations.DebugUnit : Prop :=
  Sys2Proof.Machine.Rule.DebugAccess ∧ Sys2Proof.Machine.Rule.HaltPilots ∧ Sys2Proof.Machine.Rule.Breakpoints ∧
    Sys2Proof.Machine.Rule.PilotWords

/-- Trace, counters and queries (R348, R362, R363, R365, R367, R368, R369, R370). -/
def Obligations.TraceAndCounters : Prop :=
  Sys2Proof.Machine.Rule.TraceRecords ∧ Sys2Proof.Machine.Rule.Counters ∧ Sys2Proof.Machine.Rule.ContextQuery

/-- Where the rows of pools, enumeration and loading complete (R160, R161, R162, R167, R278, R279, R280, R281, R282, R284, R328, R331). -/
def Obligations.RowsComplete : Prop :=
  Sys2Proof.Machine.Rule.PoolRowsComplete ∧ Sys2Proof.Machine.Rule.EnumRowsComplete ∧ Sys2Proof.Machine.Rule.LoadRowsComplete
end

