-- ==== Sys2Proof/Laws/Dispatch.lean ====
section
/-!
SUPPORT. The meaning each command calls, one lemma per arm of the dispatch.
-/

namespace Sys2Proof.Machine

@[simp] theorem exec_registerWrite (addr : BitVec 57) (be : BitVec 64) (data : BitVec 64) (s : State) :
    exec (.registerWrite addr be data) s = execRegisterWrite addr be data s := rfl
@[simp] theorem exec_apertureRead (addr : BitVec 57) (rid : BitVec 16) (tag : BitVec 10) (s : State) :
    exec (.apertureRead addr rid tag) s = execApertureRead addr rid tag s := rfl
@[simp] theorem exec_doorbellWrite (addr : BitVec 57) (be : BitVec 64) (data : BitVec 128) (s : State) :
    exec (.doorbellWrite addr be data) s = execDoorbellWrite addr be data s := rfl
@[simp] theorem exec_doorbellCheck (s : State) :
    exec (.doorbellCheck) s = execDoorbellCheck s := rfl
@[simp] theorem exec_stashWrite (target : BitVec 2) (asid : BitVec 20) (addr : BitVec 57) (line : Line) (s : State) :
    exec (.stashWrite target asid addr line) s = execStashWrite target asid addr line s := rfl
@[simp] theorem exec_quiesceRequest (page : BitVec 8) (s : State) :
    exec (.quiesceRequest page) s = execQuiesceRequest page s := rfl
@[simp] theorem exec_quiesceRelease (page : BitVec 8) (s : State) :
    exec (.quiesceRelease page) s = execQuiesceRelease page s := rfl
@[simp] theorem exec_unitQuiesced (page : BitVec 8) (s : State) :
    exec (.unitQuiesced page) s = execUnitQuiesced page s := rfl
@[simp] theorem exec_winRead (w : BitVec 7) (s : State) :
    exec (.winRead w) s = execWinRead w s := rfl
@[simp] theorem exec_winWrite (w : BitVec 7) (s : State) :
    exec (.winWrite w) s = execWinWrite w s := rfl
@[simp] theorem exec_winClear (w : BitVec 7) (s : State) :
    exec (.winClear w) s = execWinClear w s := rfl
@[simp] theorem exec_windowCommandDone (w : BitVec 7) (s : State) :
    exec (.windowCommandDone w) s = execWindowCommandDone w s := rfl
@[simp] theorem exec_teardownStop (ctx : BitVec 20) (s : State) :
    exec (.teardownStop ctx) s = execTeardownStop ctx s := rfl
@[simp] theorem exec_teardownDone (ctx : BitVec 20) (s : State) :
    exec (.teardownDone ctx) s = execTeardownDone ctx s := rfl
@[simp] theorem exec_abandonHoldEnd (bol : BitVec 24) (s : State) :
    exec (.abandonHoldEnd bol) s = execAbandonHoldEnd bol s := rfl
@[simp] theorem exec_berthDrained (berth : BitVec 22) (s : State) :
    exec (.berthDrained berth) s = execBerthDrained berth s := rfl
@[simp] theorem exec_recordFill (rec : RecId) (a b : MemResp) (s : State) :
    exec (.recordFill rec a b) s = execRecordFill rec a b s := rfl
@[simp] theorem exec_berthWake (s : State) :
    exec (.berthWake) s = execBerthWake s := rfl
@[simp] theorem exec_fetchWindow (berth : BitVec 22) (s : State) :
    exec (.fetchWindow berth) s = execFetchWindow berth s := rfl
@[simp] theorem exec_lineResponse (berth : BitVec 22) (idx : BitVec 32) (r : MemResp) (line : Line) (s : State) :
    exec (.lineResponse berth idx r line) s = execLineResponse berth idx r line s := rfl
@[simp] theorem exec_idleCheck (berth : BitVec 22) (s : State) :
    exec (.idleCheck berth) s = execIdleCheck berth s := rfl
@[simp] theorem exec_fetchReply (s : State) :
    exec (.fetchReply) s = execFetchReply s := rfl
@[simp] theorem exec_xcLookup (s : State) :
    exec (.xcLookup) s = execXcLookup s := rfl
@[simp] theorem exec_xcHarbourAnswer (berth : BitVec 22) (s : State) :
    exec (.xcHarbourAnswer berth) s = execXcHarbourAnswer berth s := rfl
@[simp] theorem exec_translationDone (pilot : BitVec 3) (s : State) :
    exec (.translationDone pilot) s = execTranslationDone pilot s := rfl
@[simp] theorem exec_translationRestart (pilot : BitVec 3) (s : State) :
    exec (.translationRestart pilot) s = execTranslationRestart pilot s := rfl
@[simp] theorem exec_xcFlush (s : State) :
    exec (.xcFlush) s = execXcFlush s := rfl
@[simp] theorem exec_flushDone (s : State) :
    exec (.flushDone) s = execFlushDone s := rfl
@[simp] theorem exec_csParityError (seq : BitVec 4) (kind : CsError) (addr : BitVec 12) (s : State) :
    exec (.csParityError seq kind addr) s = execCsParityError seq kind addr s := rfl
@[simp] theorem exec_csReloadDone (seq : BitVec 4) (s : State) :
    exec (.csReloadDone seq) s = execCsReloadDone seq s := rfl
@[simp] theorem exec_acceptRequest (s : State) :
    exec (.acceptRequest) s = execAcceptRequest s := rfl
@[simp] theorem exec_manifestAccepted (berth : AcceptEnd) (s : State) :
    exec (.manifestAccepted berth) s = execManifestAccepted berth s := rfl
@[simp] theorem exec_logUnitDurable (lsn : BitVec 64) (s : State) :
    exec (.logUnitDurable lsn) s = execLogUnitDurable lsn s := rfl
@[simp] theorem exec_completeDurable (c : CmdId) (s : State) :
    exec (.completeDurable c) s = execCompleteDurable c s := rfl
@[simp] theorem exec_completionRecordLost (ctx : BitVec 32) (addr : BitVec 57) (r : MemResp) (s : State) :
    exec (.completionRecordLost ctx addr r) s = execCompletionRecordLost ctx addr r s := rfl
@[simp] theorem exec_checkpoint (s : State) :
    exec (.checkpoint) s = execCheckpoint s := rfl
@[simp] theorem exec_mirrorLost (mirror : Bool) (s : State) :
    exec (.mirrorLost mirror) s = execMirrorLost mirror s := rfl
@[simp] theorem exec_resilverDone (s : State) :
    exec (.resilverDone) s = execResilverDone s := rfl
@[simp] theorem exec_harbourPoisonRead (mirror : Bool) (page : HarbourAt) (other : MemResp) (s : State) :
    exec (.harbourPoisonRead mirror page other) s = execHarbourPoisonRead mirror page other s := rfl
@[simp] theorem exec_replay (s : State) :
    exec (.replay) s = execReplay s := rfl
@[simp] theorem exec_commandInterrupted (c : CmdId) (s : State) :
    exec (.commandInterrupted c) s = execCommandInterrupted c s := rfl
@[simp] theorem exec_hmsPick (s : State) :
    exec (.hmsPick) s = execHmsPick s := rfl
@[simp] theorem exec_preemptDecision (c : CmdId) (s : State) :
    exec (.preemptDecision c) s = execPreemptDecision c s := rfl
@[simp] theorem exec_preemptComplete (c : CmdId) (s : State) :
    exec (.preemptComplete c) s = execPreemptComplete c s := rfl
@[simp] theorem exec_reclaim (quay : BitVec 6) (s : State) :
    exec (.reclaim quay) s = execReclaim quay s := rfl
@[simp] theorem exec_stallReport (w : StallWho) (s : State) :
    exec (.stallReport w) s = execStallReport w s := rfl
@[simp] theorem exec_currentSample (cur : BitVec 16) (s : State) :
    exec (.currentSample cur) s = execCurrentSample cur s := rfl
@[simp] theorem exec_telemetryLost (s : State) :
    exec (.telemetryLost) s = execTelemetryLost s := rfl
@[simp] theorem exec_thermalChange (level : BitVec 2) (s : State) :
    exec (.thermalChange level) s = execThermalChange level s := rfl
@[simp] theorem exec_paceLimitWrite (v : BitVec 64) (s : State) :
    exec (.paceLimitWrite v) s = execPaceLimitWrite v s := rfl
@[simp] theorem exec_spinWindowEnd (c : CmdId) (s : State) :
    exec (.spinWindowEnd c) s = execSpinWindowEnd c s := rfl
@[simp] theorem exec_waiterWake (c : CmdId) (s : State) :
    exec (.waiterWake c) s = execWaiterWake c s := rfl
@[simp] theorem exec_launchTiles (c : CmdId) (s : State) :
    exec (.launchTiles c) s = execLaunchTiles c s := rfl
@[simp] theorem exec_copy (c : CmdId) (s : State) :
    exec (.copy c) s = execCopy c s := rfl
@[simp] theorem exec_fill (c : CmdId) (s : State) :
    exec (.fill c) s = execFill c s := rfl
@[simp] theorem exec_allReduce (c : CmdId) (g : GroupTable) (s : State) :
    exec (.allReduce c g) s = execAllReduce c g s := rfl
@[simp] theorem exec_allGather (c : CmdId) (g : GroupTable) (s : State) :
    exec (.allGather c g) s = execAllGather c g s := rfl
@[simp] theorem exec_reduceScatter (c : CmdId) (g : GroupTable) (s : State) :
    exec (.reduceScatter c g) s = execReduceScatter c g s := rfl
@[simp] theorem exec_broadcast (c : CmdId) (g : GroupTable) (s : State) :
    exec (.broadcast c g) s = execBroadcast c g s := rfl
@[simp] theorem exec_gatherRows (c : CmdId) (s : State) :
    exec (.gatherRows c) s = execGatherRows c s := rfl
@[simp] theorem exec_eval (c : CmdId) (s : State) :
    exec (.eval c) s = execEval c s := rfl
@[simp] theorem exec_evalProgramRead (c : CmdId) (r : MemResp) (words : List (BitVec 64)) (s : State) :
    exec (.evalProgramRead c r words) s = execEvalProgramRead c r words s := rfl
@[simp] theorem exec_ldi (e : BitVec 2) (s : State) :
    exec (.ldi e) s = execLdi e s := rfl
@[simp] theorem exec_addi (e : BitVec 2) (s : State) :
    exec (.addi e) s = execAddi e s := rfl
@[simp] theorem exec_alu (e : BitVec 2) (s : State) :
    exec (.alu e) s = execAlu e s := rfl
@[simp] theorem exec_ld32 (e : BitVec 2) (s : State) :
    exec (.ld32 e) s = execLd32 e s := rfl
@[simp] theorem exec_ld64 (e : BitVec 2) (s : State) :
    exec (.ld64 e) s = execLd64 e s := rfl
@[simp] theorem exec_evalLoadData (e : BitVec 2) (r : MemResp) (words : List (BitVec 32)) (s : State) :
    exec (.evalLoadData e r words) s = execEvalLoadData e r words s := rfl
@[simp] theorem exec_setp (e : BitVec 2) (s : State) :
    exec (.setp e) s = execSetp e s := rfl
@[simp] theorem exec_aload (e : BitVec 2) (s : State) :
    exec (.aload e) s = execAload e s := rfl
@[simp] theorem exec_astore (e : BitVec 2) (s : State) :
    exec (.astore e) s = execAstore e s := rfl
@[simp] theorem exec_aget (e : BitVec 2) (s : State) :
    exec (.aget e) s = execAget e s := rfl
@[simp] theorem exec_aset (e : BitVec 2) (s : State) :
    exec (.aset e) s = execAset e s := rfl
@[simp] theorem exec_amap (e : BitVec 2) (s : State) :
    exec (.amap e) s = execAmap e s := rfl
@[simp] theorem exec_aidx (e : BitVec 2) (s : State) :
    exec (.aidx e) s = execAidx e s := rfl
@[simp] theorem exec_ascan (e : BitVec 2) (s : State) :
    exec (.ascan e) s = execAscan e s := rfl
@[simp] theorem exec_areduce (e : BitVec 2) (s : State) :
    exec (.areduce e) s = execAreduce e s := rfl
@[simp] theorem exec_acompact (e : BitVec 2) (s : State) :
    exec (.acompact e) s = execAcompact e s := rfl
@[simp] theorem exec_aexpand (e : BitVec 2) (s : State) :
    exec (.aexpand e) s = execAexpand e s := rfl
@[simp] theorem exec_evalComplete (e : BitVec 2) (s : State) :
    exec (.evalComplete e) s = execEvalComplete e s := rfl
@[simp] theorem exec_allocBlocks (c : CmdId) (reads : List FreeRead) (s : State) :
    exec (.allocBlocks c reads) s = execAllocBlocks c reads s := rfl
@[simp] theorem exec_allocCommit (c : CmdId) (slots : SlotRead) (w : List MemResp) (s : State) :
    exec (.allocCommit c slots w) s = execAllocCommit c slots w s := rfl
@[simp] theorem exec_freeBlocks (c : CmdId) (read : FreeRead) (s : State) :
    exec (.freeBlocks c read) s = execFreeBlocks c read s := rfl
@[simp] theorem exec_poolCreate (s : State) :
    exec (.poolCreate) s = execPoolCreate s := rfl
@[simp] theorem exec_poolDestroy (s : State) :
    exec (.poolDestroy) s = execPoolDestroy s := rfl
@[simp] theorem exec_poolRead (s : State) :
    exec (.poolRead) s = execPoolRead s := rfl
@[simp] theorem exec_barrier (c : CmdId) (s : State) :
    exec (.barrier c) s = execBarrier c s := rfl
@[simp] theorem exec_nop (c : CmdId) (s : State) :
    exec (.nop c) s = execNop c s := rfl
@[simp] theorem exec_endCmd (c : CmdId) (s : State) :
    exec (.endCmd c) s = execEndCmd c s := rfl
@[simp] theorem exec_signalHost (c : CmdId) (s : State) :
    exec (.signalHost c) s = execSignalHost c s := rfl
@[simp] theorem exec_hostWriteFail (c : CmdId) (r : MemResp) (s : State) :
    exec (.hostWriteFail c r) s = execHostWriteFail c r s := rfl
@[simp] theorem exec_moor (c : CmdId) (s : State) :
    exec (.moor c) s = execMoor c s := rfl
@[simp] theorem exec_unmoor (c : CmdId) (s : State) :
    exec (.unmoor c) s = execUnmoor c s := rfl
@[simp] theorem exec_mooringLoadStart (m : BitVec 12) (s : State) :
    exec (.mooringLoadStart m) s = execMooringLoadStart m s := rfl
@[simp] theorem exec_mooringLoadLine (m : BitVec 12) (line : Line) (s : State) :
    exec (.mooringLoadLine m line) s = execMooringLoadLine m line s := rfl
@[simp] theorem exec_mooringLoaded (m : BitVec 12) (s : State) :
    exec (.mooringLoaded m) s = execMooringLoaded m s := rfl
@[simp] theorem exec_loadRestart (m : BitVec 12) (r : MemResp) (s : State) :
    exec (.loadRestart m r) s = execLoadRestart m r s := rfl
@[simp] theorem exec_mooringPoison (s : State) :
    exec (.mooringPoison) s = execMooringPoison s := rfl
@[simp] theorem exec_granuleRepaired (m : BitVec 12) (s : State) :
    exec (.granuleRepaired m) s = execGranuleRepaired m s := rfl
@[simp] theorem exec_mmgRead (s : State) :
    exec (.mmgRead) s = execMmgRead s := rfl
@[simp] theorem exec_tileForm (seq : BitVec 4) (s : State) :
    exec (.tileForm seq) s = execTileForm seq s := rfl
@[simp] theorem exec_indexLineResponse (seq : BitVec 4) (addr : BitVec 57) (r : MemResp) (line : Line) (s : State) :
    exec (.indexLineResponse seq addr r line) s = execIndexLineResponse seq addr r line s := rfl
@[simp] theorem exec_descriptorCrossing (seq : BitVec 4) (s : State) :
    exec (.descriptorCrossing seq) s = execDescriptorCrossing seq s := rfl
@[simp] theorem exec_descriptorLaunch (quay : BitVec 6) (s : State) :
    exec (.descriptorLaunch quay) s = execDescriptorLaunch quay s := rfl
@[simp] theorem exec_completionPacket (quay : BitVec 6) (p : CplPacket) (s : State) :
    exec (.completionPacket quay p) s = execCompletionPacket quay p s := rfl
@[simp] theorem exec_commandTilesDone (c : CmdId) (s : State) :
    exec (.commandTilesDone c) s = execCommandTilesDone c s := rfl
@[simp] theorem exec_commandFault (c : CmdId) (s : State) :
    exec (.commandFault c) s = execCommandFault c s := rfl
@[simp] theorem exec_drainRequest (quay : BitVec 6) (scope : DrainScope) (s : State) :
    exec (.drainRequest quay scope) s = execDrainRequest quay scope s := rfl
@[simp] theorem exec_drainDone (quay : BitVec 6) (s : State) :
    exec (.drainDone quay) s = execDrainDone quay s := rfl
@[simp] theorem exec_drainTimeout (quay : BitVec 6) (s : State) :
    exec (.drainTimeout quay) s = execDrainTimeout quay s := rfl
@[simp] theorem exec_quayClockStopped (quay : BitVec 6) (s : State) :
    exec (.quayClockStopped quay) s = execQuayClockStopped quay s := rfl
@[simp] theorem exec_quayClockReturn (quay : BitVec 6) (s : State) :
    exec (.quayClockReturn quay) s = execQuayClockReturn quay s := rfl
@[simp] theorem exec_revive (quay : BitVec 6) (s : State) :
    exec (.revive quay) s = execRevive quay s := rfl
@[simp] theorem exec_fenceGe (c : CmdId) (s : State) :
    exec (.fenceGe c) s = execFenceGe c s := rfl
@[simp] theorem exec_counterTake (c : CmdId) (s : State) :
    exec (.counterTake c) s = execCounterTake c s := rfl
@[simp] theorem exec_barrierPass (c : CmdId) (s : State) :
    exec (.barrierPass c) s = execBarrierPass c s := rfl
@[simp] theorem exec_flagIsSet (c : CmdId) (s : State) :
    exec (.flagIsSet c) s = execFlagIsSet c s := rfl
@[simp] theorem exec_flagIsClear (c : CmdId) (s : State) :
    exec (.flagIsClear c) s = execFlagIsClear c s := rfl
@[simp] theorem exec_fenceSet (c : CmdId) (entry : BitVec 1) (s : State) :
    exec (.fenceSet c entry) s = execFenceSet c entry s := rfl
@[simp] theorem exec_counterPut (c : CmdId) (entry : BitVec 1) (s : State) :
    exec (.counterPut c entry) s = execCounterPut c entry s := rfl
@[simp] theorem exec_barrierArrive (c : CmdId) (entry : BitVec 1) (s : State) :
    exec (.barrierArrive c entry) s = execBarrierArrive c entry s := rfl
@[simp] theorem exec_flagSet (c : CmdId) (entry : BitVec 1) (s : State) :
    exec (.flagSet c entry) s = execFlagSet c entry s := rfl
@[simp] theorem exec_flagClear (c : CmdId) (entry : BitVec 1) (s : State) :
    exec (.flagClear c entry) s = execFlagClear c entry s := rfl
@[simp] theorem exec_hcmdFenceSet (s : State) :
    exec (.hcmdFenceSet) s = execHcmdFenceSet s := rfl
@[simp] theorem exec_hcmdCounterPut (s : State) :
    exec (.hcmdCounterPut) s = execHcmdCounterPut s := rfl
@[simp] theorem exec_hcmdBarrierArrive (s : State) :
    exec (.hcmdBarrierArrive) s = execHcmdBarrierArrive s := rfl
@[simp] theorem exec_hcmdFlagSet (s : State) :
    exec (.hcmdFlagSet) s = execHcmdFlagSet s := rfl
@[simp] theorem exec_hcmdFlagClear (s : State) :
    exec (.hcmdFlagClear) s = execHcmdFlagClear s := rfl
@[simp] theorem exec_force (s : State) :
    exec (.force) s = execForce s := rfl
@[simp] theorem exec_forceBarrier (s : State) :
    exec (.forceBarrier) s = execForceBarrier s := rfl
@[simp] theorem exec_searchStart (berth : BitVec 22) (s : State) :
    exec (.searchStart berth) s = execSearchStart berth s := rfl
@[simp] theorem exec_waitQuery (src : BitVec 32) (s : State) :
    exec (.waitQuery src) s = execWaitQuery src s := rfl
@[simp] theorem exec_declQuery (src : BitVec 32) (s : State) :
    exec (.declQuery src) s = execDeclQuery src s := rfl
@[simp] theorem exec_reply (src : BitVec 32) (s : State) :
    exec (.reply src) s = execReply src s := rfl
@[simp] theorem exec_verdict (key : SearchKey) (s : State) :
    exec (.verdict key) s = execVerdict key s := rfl
@[simp] theorem exec_enumStart (s : State) :
    exec (.enumStart) s = execEnumStart s := rfl
@[simp] theorem exec_enumToken (link : BitVec 6) (s : State) :
    exec (.enumToken link) s = execEnumToken link s := rfl
@[simp] theorem exec_enumReply (link : BitVec 6) (s : State) :
    exec (.enumReply link) s = execEnumReply link s := rfl
@[simp] theorem exec_census (link : BitVec 6) (s : State) :
    exec (.census link) s = execCensus link s := rfl
@[simp] theorem exec_route (link : BitVec 6) (s : State) :
    exec (.route link) s = execRoute link s := rfl
@[simp] theorem exec_isolate (link : BitVec 6) (s : State) :
    exec (.isolate link) s = execIsolate link s := rfl
@[simp] theorem exec_linkDown (link : BitVec 6) (s : State) :
    exec (.linkDown link) s = execLinkDown link s := rfl
@[simp] theorem exec_linkUp (link : BitVec 6) (s : State) :
    exec (.linkUp link) s = execLinkUp link s := rfl
@[simp] theorem exec_linkSessionKey (sel : BitVec 16) (key : BitVec 256) (s : State) :
    exec (.linkSessionKey sel key) s = execLinkSessionKey sel key s := rfl
@[simp] theorem exec_fabricPacketReceive (link : BitVec 6) (arrive : BitVec 16) (p : SealedPacket) (s : State) :
    exec (.fabricPacketReceive link arrive p) s = execFabricPacketReceive link arrive p s := rfl
@[simp] theorem exec_packetResend (node : BitVec 32) (s : State) :
    exec (.packetResend node) s = execPacketResend node s := rfl
@[simp] theorem exec_signal (src : BitVec 32) (s : State) :
    exec (.signal src) s = execSignal src s := rfl
@[simp] theorem exec_sigNotice (src : BitVec 32) (s : State) :
    exec (.sigNotice src) s = execSigNotice src s := rfl
@[simp] theorem exec_waitReg (src : BitVec 32) (s : State) :
    exec (.waitReg src) s = execWaitReg src s := rfl
@[simp] theorem exec_waitMet (src : BitVec 32) (s : State) :
    exec (.waitMet src) s = execWaitMet src s := rfl
@[simp] theorem exec_waitEnd (src : BitVec 32) (s : State) :
    exec (.waitEnd src) s = execWaitEnd src s := rfl
@[simp] theorem exec_capNote (src : BitVec 32) (s : State) :
    exec (.capNote src) s = execCapNote src s := rfl
@[simp] theorem exec_ackOnly (src : BitVec 32) (s : State) :
    exec (.ackOnly src) s = execAckOnly src s := rfl
@[simp] theorem exec_tideSyncSend (s : State) :
    exec (.tideSyncSend) s = execTideSyncSend s := rfl
@[simp] theorem exec_tideSync (link : BitVec 6) (s : State) :
    exec (.tideSync link) s = execTideSync link s := rfl
@[simp] theorem exec_departureStamp (link : BitVec 6) (time : BitVec 16) (s : State) :
    exec (.departureStamp link time) s = execDepartureStamp link time s := rfl
@[simp] theorem exec_tideLost (s : State) :
    exec (.tideLost) s = execTideLost s := rfl
@[simp] theorem exec_partnerRead (s : State) :
    exec (.partnerRead) s = execPartnerRead s := rfl
@[simp] theorem exec_release (s : State) :
    exec (.release) s = execRelease s := rfl
@[simp] theorem exec_quarantine (s : State) :
    exec (.quarantine) s = execQuarantine s := rfl
@[simp] theorem exec_add (s : State) :
    exec (.add) s = execAdd s := rfl
@[simp] theorem exec_remove (s : State) :
    exec (.remove) s = execRemove s := rfl
@[simp] theorem exec_removeAll (s : State) :
    exec (.removeAll) s = execRemoveAll s := rfl
@[simp] theorem exec_faultRecordWrite (seqNo : BitVec 32) (s : State) :
    exec (.faultRecordWrite seqNo) s = execFaultRecordWrite seqNo s := rfl
@[simp] theorem exec_fqConsWrite (v : BitVec 64) (s : State) :
    exec (.fqConsWrite v) s = execFqConsWrite v s := rfl
@[simp] theorem exec_pendingMove (s : State) :
    exec (.pendingMove) s = execPendingMove s := rfl
@[simp] theorem exec_fqRead (a b : MemResp) (s : State) :
    exec (.fqRead a b) s = execFqRead a b s := rfl
@[simp] theorem exec_take (s : State) :
    exec (.take) s = execTake s := rfl
@[simp] theorem exec_fqSweep (v : BitVec 64) (s : State) :
    exec (.fqSweep v) s = execFqSweep v s := rfl
@[simp] theorem exec_machineCheck (page : BitVec 8) (code : ErrCode) (addr : BitVec 64) (s : State) :
    exec (.machineCheck page code addr) s = execMachineCheck page code addr s := rfl
@[simp] theorem exec_protocolError (m : CohMsg) (s : State) :
    exec (.protocolError m) s = execProtocolError m s := rfl
@[simp] theorem exec_rds (x : BitVec 4) (l : BitVec 48) (p : ReqPhase) (s : State) :
    exec (.rds x l p) s = execRds x l p s := rfl
@[simp] theorem exec_rdx (x : BitVec 4) (l : BitVec 48) (p : ReqPhase) (s : State) :
    exec (.rdx x l p) s = execRdx x l p s := rfl
@[simp] theorem exec_upg (x : BitVec 4) (l : BitVec 48) (p : ReqPhase) (s : State) :
    exec (.upg x l p) s = execUpg x l p s := rfl
@[simp] theorem exec_wb (x : BitVec 4) (l : BitVec 48) (p : ReqPhase) (s : State) :
    exec (.wb x l p) s = execWb x l p s := rfl
@[simp] theorem exec_evc (x : BitVec 4) (l : BitVec 48) (p : ReqPhase) (s : State) :
    exec (.evc x l p) s = execEvc x l p s := rfl
@[simp] theorem exec_wrpart (x : BitVec 4) (l : BitVec 48) (be : BitVec 64) (data : Line) (p : ReqPhase) (s : State) :
    exec (.wrpart x l be data p) s = execWrpart x l be data p s := rfl
@[simp] theorem exec_atm (x : BitVec 4) (l : BitVec 48) (op : AtmOp) (p : ReqPhase) (s : State) :
    exec (.atm x l op p) s = execAtm x l op p s := rfl
@[simp] theorem exec_snoopResponse (x : BitVec 4) (l : BitVec 48) (s : State) :
    exec (.snoopResponse x l) s = execSnoopResponse x l s := rfl
@[simp] theorem exec_pushAnswer (x : BitVec 4) (l : BitVec 48) (s : State) :
    exec (.pushAnswer x l) s = execPushAnswer x l s := rfl
@[simp] theorem exec_done (x : BitVec 4) (l : BitVec 48) (s : State) :
    exec (.done x l) s = execDone x l s := rfl
@[simp] theorem exec_snps (x : BitVec 4) (l : BitVec 48) (s : State) :
    exec (.snps x l) s = execSnps x l s := rfl
@[simp] theorem exec_snpx (x : BitVec 4) (l : BitVec 48) (s : State) :
    exec (.snpx x l) s = execSnpx x l s := rfl
@[simp] theorem exec_inv (x : BitVec 4) (l : BitVec 48) (s : State) :
    exec (.inv x l) s = execInv x l s := rfl
@[simp] theorem exec_snpcur (x : BitVec 4) (l : BitVec 48) (s : State) :
    exec (.snpcur x l) s = execSnpcur x l s := rfl
@[simp] theorem exec_push (x : BitVec 4) (l : BitVec 48) (s : State) :
    exec (.push x l) s = execPush x l s := rfl
@[simp] theorem exec_dataGrant (x : BitVec 4) (l : BitVec 48) (s : State) :
    exec (.dataGrant x l) s = execDataGrant x l s := rfl
@[simp] theorem exec_cmp (x : BitVec 4) (l : BitVec 48) (s : State) :
    exec (.cmp x l) s = execCmp x l s := rfl
@[simp] theorem exec_wrcmp (x : BitVec 4) (l : BitVec 48) (s : State) :
    exec (.wrcmp x l) s = execWrcmp x l s := rfl
@[simp] theorem exec_wback (x : BitVec 4) (l : BitVec 48) (s : State) :
    exec (.wback x l) s = execWback x l s := rfl
@[simp] theorem exec_atmrsp (x : BitVec 4) (l : LineAns) (s : State) :
    exec (.atmrsp x l) s = execAtmrsp x l s := rfl
@[simp] theorem exec_irqSourceRise (src : BitVec 7) (s : State) :
    exec (.irqSourceRise src) s = execIrqSourceRise src s := rfl
@[simp] theorem exec_msixDelivery (s : State) :
    exec (.msixDelivery) s = execMsixDelivery s := rfl
@[simp] theorem exec_msixSend (s : State) :
    exec (.msixSend) s = execMsixSend s := rfl
@[simp] theorem exec_batchEnd (g : BitVec 4) (s : State) :
    exec (.batchEnd g) s = execBatchEnd g s := rfl
@[simp] theorem exec_holdoffExpiry (g : BitVec 4) (s : State) :
    exec (.holdoffExpiry g) s = execHoldoffExpiry g s := rfl
@[simp] theorem exec_wireJoin (src : BitVec 7) (s : State) :
    exec (.wireJoin src) s = execWireJoin src s := rfl
@[simp] theorem exec_irqPendWrite (r : BitVec 1) (v : BitVec 64) (hw : BitVec 64) (s : State) :
    exec (.irqPendWrite r v hw) s = execIrqPendWrite r v hw s := rfl
@[simp] theorem exec_irqMaskWrite (r : BitVec 1) (v : BitVec 64) (s : State) :
    exec (.irqMaskWrite r v) s = execIrqMaskWrite r v s := rfl
@[simp] theorem exec_powerOnReset (s : State) :
    exec (.powerOnReset) s = execPowerOnReset s := rfl
@[simp] theorem exec_brownOutReset (s : State) :
    exec (.brownOutReset) s = execBrownOutReset s := rfl
@[simp] theorem exec_pinReset (s : State) :
    exec (.pinReset) s = execPinReset s := rfl
@[simp] theorem exec_block (key : BitVec 16) (s : State) :
    exec (.block key) s = execBlock key s := rfl
@[simp] theorem exec_blockReload (key : BitVec 16) (s : State) :
    exec (.blockReload key) s = execBlockReload key s := rfl
@[simp] theorem exec_debugReset (s : State) :
    exec (.debugReset) s = execDebugReset s := rfl
@[simp] theorem exec_watchdogExpiry (s : State) :
    exec (.watchdogExpiry) s = execWatchdogExpiry s := rfl
@[simp] theorem exec_wdogWarn (s : State) :
    exec (.wdogWarn) s = execWdogWarn s := rfl
@[simp] theorem exec_watchdogRestart (pilot : BitVec 3) (s : State) :
    exec (.watchdogRestart pilot) s = execWatchdogRestart pilot s := rfl
@[simp] theorem exec_clockFailure (island : BitVec 4) (s : State) :
    exec (.clockFailure island) s = execClockFailure island s := rfl
@[simp] theorem exec_pilotLockup (pilot : BitVec 3) (s : State) :
    exec (.pilotLockup pilot) s = execPilotLockup pilot s := rfl
@[simp] theorem exec_pilotReloadDone (pilot : BitVec 3) (s : State) :
    exec (.pilotReloadDone pilot) s = execPilotReloadDone pilot s := rfl
@[simp] theorem exec_idleRequest (s : State) :
    exec (.idleRequest) s = execIdleRequest s := rfl
@[simp] theorem exec_idleComplete (s : State) :
    exec (.idleComplete) s = execIdleComplete s := rfl
@[simp] theorem exec_parkEscalation (island : BitVec 4) (s : State) :
    exec (.parkEscalation island) s = execParkEscalation island s := rfl
@[simp] theorem exec_memoryDrainDone (s : State) :
    exec (.memoryDrainDone) s = execMemoryDrainDone s := rfl
@[simp] theorem exec_islandRelease (island : BitVec 4) (s : State) :
    exec (.islandRelease island) s = execIslandRelease island s := rfl
@[simp] theorem exec_configChunk (data : BitVec 256) (last : Bool) (s : State) :
    exec (.configChunk data last) s = execConfigChunk data last s := rfl
@[simp] theorem exec_configVerdict (v : Bool) (s : State) :
    exec (.configVerdict v) s = execConfigVerdict v s := rfl
@[simp] theorem exec_imageChunk (data : BitVec 256) (last : Bool) (s : State) :
    exec (.imageChunk data last) s = execImageChunk data last s := rfl
@[simp] theorem exec_imageVerdict (v : Bool) (s : State) :
    exec (.imageVerdict v) s = execImageVerdict v s := rfl
@[simp] theorem exec_imageReloadDone (ok : Bool) (s : State) :
    exec (.imageReloadDone ok) s = execImageReloadDone ok s := rfl
@[simp] theorem exec_logFormatDone (s : State) :
    exec (.logFormatDone) s = execLogFormatDone s := rfl
@[simp] theorem exec_loadComplete (s : State) :
    exec (.loadComplete) s = execLoadComplete s := rfl
@[simp] theorem exec_loadFail (reason : BitVec 8) (s : State) :
    exec (.loadFail reason) s = execLoadFail reason s := rfl
@[simp] theorem exec_noVerdict (s : State) :
    exec (.noVerdict) s = execNoVerdict s := rfl
@[simp] theorem exec_retry (s : State) :
    exec (.retry) s = execRetry s := rfl
@[simp] theorem exec_targetRun (s : State) :
    exec (.targetRun) s = execTargetRun s := rfl
@[simp] theorem exec_targetTrim (s : State) :
    exec (.targetTrim) s = execTargetTrim s := rfl
@[simp] theorem exec_targetRetain (s : State) :
    exec (.targetRetain) s = execTargetRetain s := rfl
@[simp] theorem exec_targetOff (s : State) :
    exec (.targetOff) s = execTargetOff s := rfl
@[simp] theorem exec_retainEntry (s : State) :
    exec (.retainEntry) s = execRetainEntry s := rfl
@[simp] theorem exec_retainTimeout (s : State) :
    exec (.retainTimeout) s = execRetainTimeout s := rfl
@[simp] theorem exec_retainWake (island : BitVec 4) (s : State) :
    exec (.retainWake island) s = execRetainWake island s := rfl
@[simp] theorem exec_dozeEntry (island : BitVec 4) (s : State) :
    exec (.dozeEntry island) s = execDozeEntry island s := rfl
@[simp] theorem exec_dozeWake (island : BitVec 4) (s : State) :
    exec (.dozeWake island) s = execDozeWake island s := rfl
@[simp] theorem exec_debugToken (slot : BitVec 3) (data : BitVec 256) (s : State) :
    exec (.debugToken slot data) s = execDebugToken slot data s := rfl
@[simp] theorem exec_tokenRevocation (slot : BitVec 3) (s : State) :
    exec (.tokenRevocation slot) s = execTokenRevocation slot s := rfl
@[simp] theorem exec_tokenExpiry (slot : BitVec 3) (s : State) :
    exec (.tokenExpiry slot) s = execTokenExpiry slot s := rfl
@[simp] theorem exec_lock (key : BitVec 16) (s : State) :
    exec (.lock key) s = execLock key s := rfl
@[simp] theorem exec_dapAccess (write : Bool) (addr : BitVec 20) (data : BitVec 64) (s : State) :
    exec (.dapAccess write addr data) s = execDapAccess write addr data s := rfl
@[simp] theorem exec_halt (pilots : BitVec 8) (s : State) :
    exec (.halt pilots) s = execHalt pilots s := rfl
@[simp] theorem exec_resume (pilots : BitVec 8) (s : State) :
    exec (.resume pilots) s = execResume pilots s := rfl
@[simp] theorem exec_stepPilots (pilots : BitVec 8) (s : State) :
    exec (.stepPilots pilots) s = execStepPilots pilots s := rfl
@[simp] theorem exec_breakpointHit (pilot : BitVec 3) (addr : BitVec 57) (s : State) :
    exec (.breakpointHit pilot addr) s = execBreakpointHit pilot addr s := rfl
@[simp] theorem exec_pdbgSelWrite (v : BitVec 64) (s : State) :
    exec (.pdbgSelWrite v) s = execPdbgSelWrite v s := rfl
@[simp] theorem exec_pdbgDataWrite (v : BitVec 64) (s : State) :
    exec (.pdbgDataWrite v) s = execPdbgDataWrite v s := rfl
@[simp] theorem exec_traceRecord (src : TraceSrc) (s : State) :
    exec (.traceRecord src) s = execTraceRecord src s := rfl
@[simp] theorem exec_traceRdWrite (v : BitVec 64) (s : State) :
    exec (.traceRdWrite v) s = execTraceRdWrite v s := rfl
@[simp] theorem exec_sample (s : State) :
    exec (.sample) s = execSample s := rfl
@[simp] theorem exec_periodicSample (s : State) :
    exec (.periodicSample) s = execPeriodicSample s := rfl
@[simp] theorem exec_clear (s : State) :
    exec (.clear) s = execClear s := rfl
@[simp] theorem exec_query (r : MemResp) (s : State) :
    exec (.query r) s = execQuery r s := rfl
@[simp] theorem exec_rcRead (addr : BitVec 57) (be : BitVec 64) (rid : BitVec 16) (tag : BitVec 10) (s : State) :
    exec (.rcRead addr be rid tag) s = execRcRead addr be rid tag s := rfl
@[simp] theorem exec_watchWriteFail (bol : BitVec 24) (r : MemResp) (s : State) :
    exec (.watchWriteFail bol r) s = execWatchWriteFail bol r s := rfl
@[simp] theorem exec_evalStoreFault (e : BitVec 2) (addr : BitVec 57) (r : MemResp) (s : State) :
    exec (.evalStoreFault e addr r) s = execEvalStoreFault e addr r s := rfl
@[simp] theorem exec_coldResetRelease (s : State) :
    exec (.coldResetRelease) s = execColdResetRelease s := rfl

end Sys2Proof.Machine
end

