-- ==== Sys2Proof/Laws/Tbl.lean ====
section
/-!
SUPPORT. What a sparse table holds after a write: the key written reads back, every other key reads as before, and the
canonical form stays.
-/

namespace Sys2Proof.Machine

theorem tfind_tput_same {α : Type} (t : Tbl α) (k : Nat) (v : α) : tfind (tput t k v) k = some v := by
  induction t with
  | nil => simp [tput, tfind]
  | cons p r ih =>
    obtain ⟨j, w⟩ := p
    simp only [tput]
    split
    · simp [tfind]
    · split
      · simp [tfind]
      · simp_all [tfind]

theorem tfind_tput_ne {α : Type} (t : Tbl α) {k m : Nat} (v : α) (h : m ≠ k) : tfind (tput t k v) m = tfind t m := by
  induction t with
  | nil => simp [tput, tfind, Ne.symm h]
  | cons p r ih =>
    obtain ⟨j, w⟩ := p
    simp only [tput]
    split
    · simp [tfind, Ne.symm h]
    · split
      · rename_i hj
        subst hj
        simp [tfind, Ne.symm h]
      · simp [tfind, ih]

theorem tfind_tdel_same {α : Type} (t : Tbl α) (k : Nat) : tfind (tdel t k) k = none := by
  induction t with
  | nil => simp [tdel, tfind]
  | cons p r ih =>
    obtain ⟨j, w⟩ := p
    simp only [tdel]
    split
    · exact ih
    · simp_all [tfind]

theorem tfind_tdel_ne {α : Type} (t : Tbl α) {k m : Nat} (h : m ≠ k) : tfind (tdel t k) m = tfind t m := by
  induction t with
  | nil => simp [tdel, tfind]
  | cons p r ih =>
    obtain ⟨j, w⟩ := p
    simp only [tdel]
    split
    · rename_i hj
      subst hj
      simp [tfind, ih, Ne.symm h]
    · simp [tfind, ih]

@[simp] theorem tget_tset_same {α : Type} [DecidableEq α] (dflt : α) (t : Tbl α) (k : Nat) (v : α) :
    tget dflt (tset dflt t k v) k = v := by
  simp only [tset]
  split
  · rename_i h; simp [tget, tfind_tdel_same, h]
  · simp [tget, tfind_tput_same]

theorem tget_tset_ne {α : Type} [DecidableEq α] (dflt dflt' : α) (t : Tbl α) {k m : Nat} (v : α) (h : m ≠ k) :
    tget dflt' (tset dflt t k v) m = tget dflt' t m := by
  simp only [tset]
  split
  · simp [tget, tfind_tdel_ne t h]
  · simp [tget, tfind_tput_ne t v h]

/-! ### The canonical form -/

theorem tabove_mono {α : Type} {j k : Nat} (h : j ≤ k) {t : Tbl α} (ht : tabove k t = true) : tabove j t = true := by
  induction t with
  | nil => rfl
  | cons p r ih =>
    simp only [tabove, Bool.and_eq_true, decide_eq_true_eq] at ht ⊢
    exact ⟨Nat.lt_of_le_of_lt h ht.1, ih ht.2⟩

theorem tabove_tput {α : Type} {j k : Nat} {v : α} (h : j < k) {t : Tbl α} (ht : tabove j t = true) :
    tabove j (tput t k v) = true := by
  induction t with
  | nil => simp [tput, tabove, h]
  | cons p r ih =>
    obtain ⟨i, w⟩ := p
    simp only [tabove, Bool.and_eq_true, decide_eq_true_eq] at ht
    simp only [tput]
    split
    · simp [tabove, h, ht.1, ht.2]
    · split
      · simp [tabove, h, ht.2]
      · simp [tabove, ht.1, ih ht.2]

theorem tabove_tdel {α : Type} {j k : Nat} {t : Tbl α} (ht : tabove j t = true) : tabove j (tdel t k) = true := by
  induction t with
  | nil => rfl
  | cons p r ih =>
    obtain ⟨i, w⟩ := p
    simp only [tabove, Bool.and_eq_true, decide_eq_true_eq] at ht
    simp only [tdel]
    split
    · exact ih ht.2
    · simp [tabove, ht.1, ih ht.2]

theorem tsorted_tput {α : Type} {k : Nat} {v : α} {t : Tbl α} (ht : tsorted t = true) : tsorted (tput t k v) = true := by
  induction t with
  | nil => rfl
  | cons p r ih =>
    obtain ⟨i, w⟩ := p
    simp only [tsorted, Bool.and_eq_true] at ht
    simp only [tput]
    split
    · rename_i h
      simp [tsorted, tabove, h, ht.1, ht.2, tabove_mono (Nat.le_of_lt h) ht.1]
    · split
      · rename_i h
        subst h
        simp [tsorted, ht.1, ht.2]
      · simp [tsorted, ih ht.2, tabove_tput (v := v) (by omega : i < k) ht.1]

theorem tsorted_tdel {α : Type} {k : Nat} {t : Tbl α} (ht : tsorted t = true) : tsorted (tdel t k) = true := by
  induction t with
  | nil => rfl
  | cons p r ih =>
    obtain ⟨i, w⟩ := p
    simp only [tsorted, Bool.and_eq_true] at ht
    simp only [tdel]
    split
    · exact ih ht.2
    · simp [tsorted, ih ht.2, tabove_tdel ht.1]

theorem mem_tput {α : Type} {k : Nat} {v : α} {t : Tbl α} {e : Nat × α} (h : e ∈ tput t k v) : e = (k, v) ∨ e ∈ t := by
  induction t with
  | nil => simpa [tput] using h
  | cons p r ih =>
    obtain ⟨i, w⟩ := p
    simp only [tput] at h
    split at h
    · simpa using h
    · split at h
      · rcases List.mem_cons.1 h with h | h
        · exact .inl h
        · exact .inr (List.mem_cons_of_mem _ h)
      · rcases List.mem_cons.1 h with h | h
        · exact .inr (h ▸ List.mem_cons_self)
        · exact (ih h).imp_right (List.mem_cons_of_mem _)

theorem mem_tdel {α : Type} {k : Nat} {t : Tbl α} {e : Nat × α} (h : e ∈ tdel t k) : e ∈ t := by
  induction t with
  | nil => exact h
  | cons p r ih =>
    obtain ⟨i, w⟩ := p
    simp only [tdel] at h
    split at h
    · exact List.mem_cons_of_mem _ (ih h)
    · rcases List.mem_cons.1 h with h | h
      · exact h ▸ List.mem_cons_self
      · exact List.mem_cons_of_mem _ (ih h)

/-- A write keeps the canonical form. -/
theorem twf_tset {α : Type} [DecidableEq α] (dflt : Nat → α) {t : Tbl α} (k : Nat) (v : α) (ht : twf dflt t = true) :
    twf dflt (tset (dflt k) t k v) = true := by
  simp only [twf, Bool.and_eq_true, List.all_eq_true, Bool.not_eq_true', decide_eq_false_iff_not] at ht ⊢
  simp only [tset]
  split
  · exact ⟨tsorted_tdel ht.1, fun e he => ht.2 e (mem_tdel he)⟩
  · rename_i hv
    refine ⟨tsorted_tput ht.1, fun e he => ?_⟩
    rcases mem_tput he with rfl | he
    · exact hv
    · exact ht.2 e he

theorem tabove_filter {α : Type} {j : Nat} (p : Nat × α → Bool) {t : Tbl α} (ht : tabove j t = true) :
    tabove j (t.filter p) = true := by
  induction t with
  | nil => rfl
  | cons e r ih =>
    simp only [tabove, Bool.and_eq_true, decide_eq_true_eq] at ht
    simp only [List.filter_cons]
    split
    · simp [tabove, ht.1, ih ht.2]
    · exact ih ht.2

/-- Dropping entries keeps the canonical form. -/
theorem twf_filter {α : Type} [DecidableEq α] (dflt : Nat → α) {t : Tbl α} (p : Nat × α → Bool) (ht : twf dflt t = true) :
    twf dflt (t.filter p) = true := by
  simp only [twf, Bool.and_eq_true, List.all_eq_true] at ht ⊢
  refine ⟨?_, fun e he => ht.2 e (List.mem_filter.1 he).1⟩
  have hs := ht.1
  clear ht
  induction t with
  | nil => rfl
  | cons e r ih =>
    simp only [tsorted, Bool.and_eq_true] at hs
    simp only [List.filter_cons]
    split
    · simp [tsorted, tabove_filter p hs.1, ih hs.2]
    · exact ih hs.2

end Sys2Proof.Machine
end

