-- ==== Sys2Proof/Laws/Regs.lean ====
section
/-!
SUPPORT. Registers and their fields: what a field reads as after a write of it, of another field of its register, and of
another register.
-/

namespace Sys2Proof.Machine

/-! ### Bits of a word -/

theorem fldSize_pos (hi lo : Nat) : 0 < fldSize hi lo := Nat.two_pow_pos _

theorem getBits_lt (w : W64) (hi lo : Nat) : getBits w hi lo < fldSize hi lo := Nat.mod_lt _ (fldSize_pos hi lo)

theorem getBits_mul_le (w : W64) (hi lo : Nat) : getBits w hi lo * 2 ^ lo ≤ w.toNat := by
  have h1 : getBits w hi lo ≤ w.toNat / 2 ^ lo := Nat.mod_le _ _
  exact Nat.le_trans (Nat.mul_le_mul_right _ h1) (Nat.div_mul_le_self _ _)

/-- A word is what lies above a field, the field, and what lies below it. -/
theorem word_parts (w : W64) {hi lo : Nat} (h : lo ≤ hi) :
    w.toNat = w.toNat / 2 ^ (hi + 1) * 2 ^ (hi + 1) + getBits w hi lo * 2 ^ lo + w.toNat % 2 ^ lo := by
  have e : (2 : Nat) ^ (hi + 1) = 2 ^ lo * fldSize hi lo := by
    rw [fldSize, ← Nat.pow_add]; congr 1; omega
  have h1 := Nat.div_add_mod w.toNat (2 ^ lo)
  have h2 := Nat.div_add_mod (w.toNat / 2 ^ lo) (fldSize hi lo)
  have h3 : w.toNat / 2 ^ (hi + 1) = w.toNat / 2 ^ lo / fldSize hi lo := by rw [e, Nat.div_div_eq_div_mul]
  rw [h3, e]
  simp only [getBits]
  generalize w.toNat / 2 ^ lo = q at *
  generalize w.toNat % 2 ^ lo = c at *
  generalize q / fldSize hi lo = a at *
  generalize q % fldSize hi lo = m at *
  rw [← h1, ← h2]
  simp only [Nat.mul_add]
  have : 2 ^ lo * (fldSize hi lo * a) = a * (2 ^ lo * fldSize hi lo) := by
    rw [← Nat.mul_assoc, Nat.mul_comm]
  rw [this, Nat.mul_comm (2 ^ lo) m]

/-- The number of the word whose field was replaced. -/
theorem setBits_toNat (w : W64) {hi lo : Nat} (v : Nat) (h : lo ≤ hi) (h64 : hi < 64) :
    (setBits w hi lo v).toNat =
      w.toNat / 2 ^ (hi + 1) * 2 ^ (hi + 1) + v % fldSize hi lo * 2 ^ lo + w.toNat % 2 ^ lo := by
  have hp := word_parts w h
  have hv := Nat.mod_lt v (fldSize_pos hi lo)
  have e : (2 : Nat) ^ (hi + 1) = 2 ^ lo * fldSize hi lo := by
    rw [fldSize, ← Nat.pow_add]; congr 1; omega
  have e64 : (2 : Nat) ^ 64 = 2 ^ (63 - hi) * 2 ^ (hi + 1) := by
    rw [← Nat.pow_add]; congr 1; omega
  have hw : w.toNat / 2 ^ (hi + 1) < 2 ^ (63 - hi) := by
    apply Nat.div_lt_of_lt_mul
    rw [Nat.mul_comm, ← e64]; exact w.isLt
  have hc : w.toNat % 2 ^ lo < 2 ^ lo := Nat.mod_lt _ (Nat.two_pow_pos _)
  simp only [setBits, BitVec.toNat_ofNat]
  rw [Nat.mod_eq_of_lt]
  · omega
  · have h1 : v % fldSize hi lo * 2 ^ lo + 2 ^ lo ≤ 2 ^ (hi + 1) := by
      rw [e, Nat.mul_comm (2 ^ lo)]
      have := Nat.mul_le_mul_right (2 ^ lo) (Nat.succ_le_of_lt hv)
      rwa [Nat.succ_mul] at this
    have h2 : w.toNat / 2 ^ (hi + 1) * 2 ^ (hi + 1) + 2 ^ (hi + 1) ≤ 2 ^ 64 := by
      rw [e64]
      have := Nat.mul_le_mul_right (2 ^ (hi + 1)) (Nat.succ_le_of_lt hw)
      rwa [Nat.succ_mul] at this
    omega

/-- A field just written reads back, modulo its width. -/
theorem getBits_setBits_same (w : W64) {hi lo : Nat} (v : Nat) (h : lo ≤ hi) (h64 : hi < 64) :
    getBits (setBits w hi lo v) hi lo = v % fldSize hi lo := by
  have hc : w.toNat % 2 ^ lo < 2 ^ lo := Nat.mod_lt _ (Nat.two_pow_pos _)
  have e : (2 : Nat) ^ (hi + 1) = fldSize hi lo * 2 ^ lo := by
    rw [fldSize, ← Nat.pow_add]; congr 1; omega
  rw [getBits, setBits_toNat w v h h64, e]
  rw [← Nat.mul_assoc, ← Nat.add_mul, Nat.mul_comm _ (2 ^ lo), Nat.mul_add_div (Nat.two_pow_pos _),
    Nat.div_eq_of_lt hc, Nat.add_zero, Nat.add_comm, Nat.add_mul_mod_self_right, Nat.mod_mod]

/-- A field below the one written reads as before. -/
theorem getBits_setBits_below (w : W64) {hi lo h' l' : Nat} (v : Nat) (h : lo ≤ hi) (h64 : hi < 64) (hb : h' < lo) :
    getBits (setBits w hi lo v) h' l' = getBits w h' l' := by
  have key : ∀ n : Nat, n / 2 ^ l' % fldSize h' l' = n % 2 ^ lo / 2 ^ l' % fldSize h' l' ∨ h' < l' := by
    intro n
    by_cases hl : h' < l'
    · exact .inr hl
    · left
      have e : (2 : Nat) ^ lo = 2 ^ l' * 2 ^ (lo - l') := by rw [← Nat.pow_add]; congr 1; omega
      rw [e, Nat.mod_mul_right_div_self]
      have e2 : (2 : Nat) ^ (lo - l') = fldSize h' l' * 2 ^ (lo - (h' + 1)) := by
        rw [fldSize, ← Nat.pow_add]; congr 1; omega
      rw [e2, Nat.mod_mul_right_mod]
  have hlo : (setBits w hi lo v).toNat % 2 ^ lo = w.toNat % 2 ^ lo := by
    have e : (2 : Nat) ^ (hi + 1) = fldSize hi lo * 2 ^ lo := by
      rw [fldSize, ← Nat.pow_add]; congr 1; omega
    rw [setBits_toNat w v h h64, e, ← Nat.mul_assoc, ← Nat.add_mul, Nat.add_comm, Nat.add_mul_mod_self_right, Nat.mod_mod]
  simp only [getBits]
  by_cases hl : h' < l'
  · have h0 : h' + 1 - l' = 0 := by omega
    have h1 : fldSize h' l' = 1 := by rw [fldSize, h0, Nat.pow_zero]
    rw [h1, Nat.mod_one, Nat.mod_one]
  · have h1 := (key (setBits w hi lo v).toNat).resolve_right hl
    have h2 := (key w.toNat).resolve_right hl
    rw [h1, h2, hlo]

/-- A field above the one written reads as before. -/
theorem getBits_setBits_above (w : W64) {hi lo h' l' : Nat} (v : Nat) (h : lo ≤ hi) (h64 : hi < 64) (hb : hi < l') :
    getBits (setBits w hi lo v) h' l' = getBits w h' l' := by
  have e : (2 : Nat) ^ l' = 2 ^ (hi + 1) * 2 ^ (l' - (hi + 1)) := by rw [← Nat.pow_add]; congr 1; omega
  have hv := Nat.mod_lt v (fldSize_pos hi lo)
  have hc : w.toNat % 2 ^ lo < 2 ^ lo := Nat.mod_lt _ (Nat.two_pow_pos _)
  have e2 : (2 : Nat) ^ (hi + 1) = fldSize hi lo * 2 ^ lo := by
    rw [fldSize, ← Nat.pow_add]; congr 1; omega
  have hlow : v % fldSize hi lo * 2 ^ lo + w.toNat % 2 ^ lo < 2 ^ (hi + 1) := by
    have := Nat.mul_le_mul_right (2 ^ lo) (Nat.succ_le_of_lt hv)
    rw [Nat.succ_mul] at this
    omega
  have hh : (setBits w hi lo v).toNat / 2 ^ (hi + 1) = w.toNat / 2 ^ (hi + 1) := by
    rw [setBits_toNat w v h h64, Nat.add_assoc, Nat.mul_comm, Nat.mul_add_div (Nat.two_pow_pos _),
      Nat.div_eq_of_lt hlow, Nat.add_zero]
  simp only [getBits]
  rw [e, ← Nat.div_div_eq_div_mul, ← Nat.div_div_eq_div_mul, hh]

/-! ### Registers -/

@[simp] theorem reg_setReg_same (d : Dev) (p off : Nat) (w : W64) : reg (setReg d p off w) p off = w := by
  simp [reg, setReg]

theorem reg_setReg_ne (d : Dev) {p off p' off' : Nat} (w : W64) (h : regKey p' off' ≠ regKey p off) :
    reg (setReg d p off w) p' off' = reg d p' off' := by
  simp [reg, setReg, tget_tset_ne _ _ _ _ h]

/-! ### Fields -/

/-- A field lies within its register. -/
def Fld.ok (f : Fld) : Bool := decide (f.lo ≤ f.hi) && decide (f.hi < 64)

/-- Two fields share no bit. -/
def Fld.apart (f g : Fld) : Bool :=
  decide (regKey f.page f.off ≠ regKey g.page g.off) || decide (f.hi < g.lo) || decide (g.hi < f.lo)

theorem fld_lt (d : Dev) (f : Fld) : fld d f < fldSize f.hi f.lo := getBits_lt _ _ _

theorem fld_setFld_same (d : Dev) {f : Fld} (v : Nat) (h : f.ok = true) :
    fld (setFld d f v) f = v % fldSize f.hi f.lo := by
  simp only [Fld.ok, Bool.and_eq_true, decide_eq_true_eq] at h
  simp only [fld, setFld, reg_setReg_same]
  exact getBits_setBits_same _ _ h.1 h.2

theorem fld_setFld_apart (d : Dev) {f g : Fld} (v : Nat) (h : g.ok = true) (ha : f.apart g = true) :
    fld (setFld d g v) f = fld d f := by
  simp only [Fld.ok, Bool.and_eq_true, decide_eq_true_eq] at h
  simp only [Fld.apart, Bool.or_eq_true, decide_eq_true_eq] at ha
  simp only [fld, setFld]
  by_cases hk : regKey f.page f.off = regKey g.page g.off
  · have e : ∀ w, reg (setReg d g.page g.off w) f.page f.off = w := by
      intro w; simp [reg, setReg, hk]
    have e' : reg d f.page f.off = reg d g.page g.off := by simp [reg, hk]
    rw [e, e']
    rcases ha with (ha | ha) | ha
    · exact absurd hk ha
    · exact getBits_setBits_below _ _ h.1 h.2 ha
    · exact getBits_setBits_above _ _ h.1 h.2 ha
  · rw [reg_setReg_ne _ _ hk]

/-- A write of a field leaves every other register as it is. -/
theorem reg_setFld_ne (d : Dev) {g : Fld} {p off : Nat} (v : Nat) (h : regKey p off ≠ regKey g.page g.off) :
    reg (setFld d g v) p off = reg d p off := reg_setReg_ne _ _ h

end Sys2Proof.Machine
end

