-- ==== Sys2Proof/Laws/State.lean ====
section
/-!
SUPPORT. One lemma per field of the block and per update: what the named updates of Machine/Ops.lean leave in each field.
The proofs are Eq.symm rfl and not rfl, so that simp rewrites with them instead of asking the kernel to unfold two blocks.
-/

namespace Sys2Proof.Machine

/-! ### Outcomes -/

theorem onDev_next (f : Dev → Dev) (s : State) : onDev f s = .next { s with dev := f s.dev } := rfl

/-- A command of a unit whose island is held in reset leaves everything as it is. -/
theorem onUnit_inReset {u : Nat} (f : Dev → Dev) {s : State} (h : inReset s.dev u = true) : onUnit u f s = .next s := by
  simp [onUnit, onDev, h]

/-- A command of a unit whose island runs: the unit wakes, then acts. -/
theorem onUnit_running {u : Nat} (f : Dev → Dev) {s : State} (h : inReset s.dev u = false) :
    onUnit u f s = .next { s with dev := f (wakeUnit s.dev u) } := by
  simp [onUnit, onDev, h]

/-- A unit whose island neither dozes nor is retained is awake already. -/
theorem wakeUnit_awake {d : Dev} {u : Nat} (h1 : fld d fPwrState ≠ 3) (h2 : fbit d fDozing u = false) : wakeUnit d u = d := by
  simp [wakeUnit, retainWakeOp, h1, h2]

/-! ### Registers and fields of changed units -/

@[simp] theorem reg_modScu (d : Dev) (f : Scu → Scu) (p off : Nat) : reg (modScu d f) p off = reg d p off := Eq.symm rfl
@[simp] theorem fld_modScu (d : Dev) (f : Scu → Scu) (g : Fld) : fld (modScu d f) g = fld d g := Eq.symm rfl
@[simp] theorem flag_modScu (d : Dev) (f : Scu → Scu) (g : Fld) : flag (modScu d f) g = flag d g := Eq.symm rfl
@[simp] theorem fbit_modScu (d : Dev) (f : Scu → Scu) (g : Fld) (i : Nat) : fbit (modScu d f) g i = fbit d g i := Eq.symm rfl
@[simp] theorem modScu_now (d : Dev) (f : Scu → Scu) : (modScu d f).now = d.now := Eq.symm rfl
@[simp] theorem modScu_tide (d : Dev) (f : Scu → Scu) : (modScu d f).tide = d.tide := Eq.symm rfl
@[simp] theorem modScu_regs (d : Dev) (f : Scu → Scu) : (modScu d f).regs = d.regs := Eq.symm rfl
@[simp] theorem modScu_scu (d : Dev) (f : Scu → Scu) : (modScu d f).scu = f d.scu := Eq.symm rfl
@[simp] theorem modScu_hpu (d : Dev) (f : Scu → Scu) : (modScu d f).hpu = d.hpu := Eq.symm rfl
@[simp] theorem modScu_btc (d : Dev) (f : Scu → Scu) : (modScu d f).btc = d.btc := Eq.symm rfl
@[simp] theorem modScu_mfu (d : Dev) (f : Scu → Scu) : (modScu d f).mfu = d.mfu := Eq.symm rfl
@[simp] theorem modScu_plx (d : Dev) (f : Scu → Scu) : (modScu d f).plx = d.plx := Eq.symm rfl
@[simp] theorem modScu_cmds (d : Dev) (f : Scu → Scu) : (modScu d f).cmds = d.cmds := Eq.symm rfl
@[simp] theorem modScu_seqs (d : Dev) (f : Scu → Scu) : (modScu d f).seqs = d.seqs := Eq.symm rfl
@[simp] theorem modScu_quays (d : Dev) (f : Scu → Scu) : (modScu d f).quays = d.quays := Eq.symm rfl
@[simp] theorem modScu_lev (d : Dev) (f : Scu → Scu) : (modScu d f).lev = d.lev := Eq.symm rfl
@[simp] theorem modScu_blu (d : Dev) (f : Scu → Scu) : (modScu d f).blu = d.blu := Eq.symm rfl
@[simp] theorem modScu_hms (d : Dev) (f : Scu → Scu) : (modScu d f).hms = d.hms := Eq.symm rfl
@[simp] theorem modScu_lbu (d : Dev) (f : Scu → Scu) : (modScu d f).lbu = d.lbu := Eq.symm rfl
@[simp] theorem modScu_harbour (d : Dev) (f : Scu → Scu) : (modScu d f).harbour = d.harbour := Eq.symm rfl
@[simp] theorem modScu_mmg (d : Dev) (f : Scu → Scu) : (modScu d f).mmg = d.mmg := Eq.symm rfl
@[simp] theorem modScu_fsa (d : Dev) (f : Scu → Scu) : (modScu d f).fsa = d.fsa := Eq.symm rfl
@[simp] theorem modScu_dtc (d : Dev) (f : Scu → Scu) : (modScu d f).dtc = d.dtc := Eq.symm rfl
@[simp] theorem modScu_coh (d : Dev) (f : Scu → Scu) : (modScu d f).coh = d.coh := Eq.symm rfl
@[simp] theorem modScu_memOut (d : Dev) (f : Scu → Scu) : (modScu d f).memOut = d.memOut := Eq.symm rfl
@[simp] theorem modScu_launches (d : Dev) (f : Scu → Scu) : (modScu d f).launches = d.launches := Eq.symm rfl
@[simp] theorem modScu_freeCtr (d : Dev) (f : Scu → Scu) : (modScu d f).freeCtr = d.freeCtr := Eq.symm rfl

@[simp] theorem reg_modHpu (d : Dev) (f : Hpu → Hpu) (p off : Nat) : reg (modHpu d f) p off = reg d p off := Eq.symm rfl
@[simp] theorem fld_modHpu (d : Dev) (f : Hpu → Hpu) (g : Fld) : fld (modHpu d f) g = fld d g := Eq.symm rfl
@[simp] theorem flag_modHpu (d : Dev) (f : Hpu → Hpu) (g : Fld) : flag (modHpu d f) g = flag d g := Eq.symm rfl
@[simp] theorem fbit_modHpu (d : Dev) (f : Hpu → Hpu) (g : Fld) (i : Nat) : fbit (modHpu d f) g i = fbit d g i := Eq.symm rfl
@[simp] theorem modHpu_now (d : Dev) (f : Hpu → Hpu) : (modHpu d f).now = d.now := Eq.symm rfl
@[simp] theorem modHpu_tide (d : Dev) (f : Hpu → Hpu) : (modHpu d f).tide = d.tide := Eq.symm rfl
@[simp] theorem modHpu_regs (d : Dev) (f : Hpu → Hpu) : (modHpu d f).regs = d.regs := Eq.symm rfl
@[simp] theorem modHpu_scu (d : Dev) (f : Hpu → Hpu) : (modHpu d f).scu = d.scu := Eq.symm rfl
@[simp] theorem modHpu_hpu (d : Dev) (f : Hpu → Hpu) : (modHpu d f).hpu = f d.hpu := Eq.symm rfl
@[simp] theorem modHpu_btc (d : Dev) (f : Hpu → Hpu) : (modHpu d f).btc = d.btc := Eq.symm rfl
@[simp] theorem modHpu_mfu (d : Dev) (f : Hpu → Hpu) : (modHpu d f).mfu = d.mfu := Eq.symm rfl
@[simp] theorem modHpu_plx (d : Dev) (f : Hpu → Hpu) : (modHpu d f).plx = d.plx := Eq.symm rfl
@[simp] theorem modHpu_cmds (d : Dev) (f : Hpu → Hpu) : (modHpu d f).cmds = d.cmds := Eq.symm rfl
@[simp] theorem modHpu_seqs (d : Dev) (f : Hpu → Hpu) : (modHpu d f).seqs = d.seqs := Eq.symm rfl
@[simp] theorem modHpu_quays (d : Dev) (f : Hpu → Hpu) : (modHpu d f).quays = d.quays := Eq.symm rfl
@[simp] theorem modHpu_lev (d : Dev) (f : Hpu → Hpu) : (modHpu d f).lev = d.lev := Eq.symm rfl
@[simp] theorem modHpu_blu (d : Dev) (f : Hpu → Hpu) : (modHpu d f).blu = d.blu := Eq.symm rfl
@[simp] theorem modHpu_hms (d : Dev) (f : Hpu → Hpu) : (modHpu d f).hms = d.hms := Eq.symm rfl
@[simp] theorem modHpu_lbu (d : Dev) (f : Hpu → Hpu) : (modHpu d f).lbu = d.lbu := Eq.symm rfl
@[simp] theorem modHpu_harbour (d : Dev) (f : Hpu → Hpu) : (modHpu d f).harbour = d.harbour := Eq.symm rfl
@[simp] theorem modHpu_mmg (d : Dev) (f : Hpu → Hpu) : (modHpu d f).mmg = d.mmg := Eq.symm rfl
@[simp] theorem modHpu_fsa (d : Dev) (f : Hpu → Hpu) : (modHpu d f).fsa = d.fsa := Eq.symm rfl
@[simp] theorem modHpu_dtc (d : Dev) (f : Hpu → Hpu) : (modHpu d f).dtc = d.dtc := Eq.symm rfl
@[simp] theorem modHpu_coh (d : Dev) (f : Hpu → Hpu) : (modHpu d f).coh = d.coh := Eq.symm rfl
@[simp] theorem modHpu_memOut (d : Dev) (f : Hpu → Hpu) : (modHpu d f).memOut = d.memOut := Eq.symm rfl
@[simp] theorem modHpu_launches (d : Dev) (f : Hpu → Hpu) : (modHpu d f).launches = d.launches := Eq.symm rfl
@[simp] theorem modHpu_freeCtr (d : Dev) (f : Hpu → Hpu) : (modHpu d f).freeCtr = d.freeCtr := Eq.symm rfl

@[simp] theorem reg_modBtc (d : Dev) (f : Btc → Btc) (p off : Nat) : reg (modBtc d f) p off = reg d p off := Eq.symm rfl
@[simp] theorem fld_modBtc (d : Dev) (f : Btc → Btc) (g : Fld) : fld (modBtc d f) g = fld d g := Eq.symm rfl
@[simp] theorem flag_modBtc (d : Dev) (f : Btc → Btc) (g : Fld) : flag (modBtc d f) g = flag d g := Eq.symm rfl
@[simp] theorem fbit_modBtc (d : Dev) (f : Btc → Btc) (g : Fld) (i : Nat) : fbit (modBtc d f) g i = fbit d g i := Eq.symm rfl
@[simp] theorem modBtc_now (d : Dev) (f : Btc → Btc) : (modBtc d f).now = d.now := Eq.symm rfl
@[simp] theorem modBtc_tide (d : Dev) (f : Btc → Btc) : (modBtc d f).tide = d.tide := Eq.symm rfl
@[simp] theorem modBtc_regs (d : Dev) (f : Btc → Btc) : (modBtc d f).regs = d.regs := Eq.symm rfl
@[simp] theorem modBtc_scu (d : Dev) (f : Btc → Btc) : (modBtc d f).scu = d.scu := Eq.symm rfl
@[simp] theorem modBtc_hpu (d : Dev) (f : Btc → Btc) : (modBtc d f).hpu = d.hpu := Eq.symm rfl
@[simp] theorem modBtc_btc (d : Dev) (f : Btc → Btc) : (modBtc d f).btc = f d.btc := Eq.symm rfl
@[simp] theorem modBtc_mfu (d : Dev) (f : Btc → Btc) : (modBtc d f).mfu = d.mfu := Eq.symm rfl
@[simp] theorem modBtc_plx (d : Dev) (f : Btc → Btc) : (modBtc d f).plx = d.plx := Eq.symm rfl
@[simp] theorem modBtc_cmds (d : Dev) (f : Btc → Btc) : (modBtc d f).cmds = d.cmds := Eq.symm rfl
@[simp] theorem modBtc_seqs (d : Dev) (f : Btc → Btc) : (modBtc d f).seqs = d.seqs := Eq.symm rfl
@[simp] theorem modBtc_quays (d : Dev) (f : Btc → Btc) : (modBtc d f).quays = d.quays := Eq.symm rfl
@[simp] theorem modBtc_lev (d : Dev) (f : Btc → Btc) : (modBtc d f).lev = d.lev := Eq.symm rfl
@[simp] theorem modBtc_blu (d : Dev) (f : Btc → Btc) : (modBtc d f).blu = d.blu := Eq.symm rfl
@[simp] theorem modBtc_hms (d : Dev) (f : Btc → Btc) : (modBtc d f).hms = d.hms := Eq.symm rfl
@[simp] theorem modBtc_lbu (d : Dev) (f : Btc → Btc) : (modBtc d f).lbu = d.lbu := Eq.symm rfl
@[simp] theorem modBtc_harbour (d : Dev) (f : Btc → Btc) : (modBtc d f).harbour = d.harbour := Eq.symm rfl
@[simp] theorem modBtc_mmg (d : Dev) (f : Btc → Btc) : (modBtc d f).mmg = d.mmg := Eq.symm rfl
@[simp] theorem modBtc_fsa (d : Dev) (f : Btc → Btc) : (modBtc d f).fsa = d.fsa := Eq.symm rfl
@[simp] theorem modBtc_dtc (d : Dev) (f : Btc → Btc) : (modBtc d f).dtc = d.dtc := Eq.symm rfl
@[simp] theorem modBtc_coh (d : Dev) (f : Btc → Btc) : (modBtc d f).coh = d.coh := Eq.symm rfl
@[simp] theorem modBtc_memOut (d : Dev) (f : Btc → Btc) : (modBtc d f).memOut = d.memOut := Eq.symm rfl
@[simp] theorem modBtc_launches (d : Dev) (f : Btc → Btc) : (modBtc d f).launches = d.launches := Eq.symm rfl
@[simp] theorem modBtc_freeCtr (d : Dev) (f : Btc → Btc) : (modBtc d f).freeCtr = d.freeCtr := Eq.symm rfl

@[simp] theorem reg_modMfu (d : Dev) (f : Mfu → Mfu) (p off : Nat) : reg (modMfu d f) p off = reg d p off := Eq.symm rfl
@[simp] theorem fld_modMfu (d : Dev) (f : Mfu → Mfu) (g : Fld) : fld (modMfu d f) g = fld d g := Eq.symm rfl
@[simp] theorem flag_modMfu (d : Dev) (f : Mfu → Mfu) (g : Fld) : flag (modMfu d f) g = flag d g := Eq.symm rfl
@[simp] theorem fbit_modMfu (d : Dev) (f : Mfu → Mfu) (g : Fld) (i : Nat) : fbit (modMfu d f) g i = fbit d g i := Eq.symm rfl
@[simp] theorem modMfu_now (d : Dev) (f : Mfu → Mfu) : (modMfu d f).now = d.now := Eq.symm rfl
@[simp] theorem modMfu_tide (d : Dev) (f : Mfu → Mfu) : (modMfu d f).tide = d.tide := Eq.symm rfl
@[simp] theorem modMfu_regs (d : Dev) (f : Mfu → Mfu) : (modMfu d f).regs = d.regs := Eq.symm rfl
@[simp] theorem modMfu_scu (d : Dev) (f : Mfu → Mfu) : (modMfu d f).scu = d.scu := Eq.symm rfl
@[simp] theorem modMfu_hpu (d : Dev) (f : Mfu → Mfu) : (modMfu d f).hpu = d.hpu := Eq.symm rfl
@[simp] theorem modMfu_btc (d : Dev) (f : Mfu → Mfu) : (modMfu d f).btc = d.btc := Eq.symm rfl
@[simp] theorem modMfu_mfu (d : Dev) (f : Mfu → Mfu) : (modMfu d f).mfu = f d.mfu := Eq.symm rfl
@[simp] theorem modMfu_plx (d : Dev) (f : Mfu → Mfu) : (modMfu d f).plx = d.plx := Eq.symm rfl
@[simp] theorem modMfu_cmds (d : Dev) (f : Mfu → Mfu) : (modMfu d f).cmds = d.cmds := Eq.symm rfl
@[simp] theorem modMfu_seqs (d : Dev) (f : Mfu → Mfu) : (modMfu d f).seqs = d.seqs := Eq.symm rfl
@[simp] theorem modMfu_quays (d : Dev) (f : Mfu → Mfu) : (modMfu d f).quays = d.quays := Eq.symm rfl
@[simp] theorem modMfu_lev (d : Dev) (f : Mfu → Mfu) : (modMfu d f).lev = d.lev := Eq.symm rfl
@[simp] theorem modMfu_blu (d : Dev) (f : Mfu → Mfu) : (modMfu d f).blu = d.blu := Eq.symm rfl
@[simp] theorem modMfu_hms (d : Dev) (f : Mfu → Mfu) : (modMfu d f).hms = d.hms := Eq.symm rfl
@[simp] theorem modMfu_lbu (d : Dev) (f : Mfu → Mfu) : (modMfu d f).lbu = d.lbu := Eq.symm rfl
@[simp] theorem modMfu_harbour (d : Dev) (f : Mfu → Mfu) : (modMfu d f).harbour = d.harbour := Eq.symm rfl
@[simp] theorem modMfu_mmg (d : Dev) (f : Mfu → Mfu) : (modMfu d f).mmg = d.mmg := Eq.symm rfl
@[simp] theorem modMfu_fsa (d : Dev) (f : Mfu → Mfu) : (modMfu d f).fsa = d.fsa := Eq.symm rfl
@[simp] theorem modMfu_dtc (d : Dev) (f : Mfu → Mfu) : (modMfu d f).dtc = d.dtc := Eq.symm rfl
@[simp] theorem modMfu_coh (d : Dev) (f : Mfu → Mfu) : (modMfu d f).coh = d.coh := Eq.symm rfl
@[simp] theorem modMfu_memOut (d : Dev) (f : Mfu → Mfu) : (modMfu d f).memOut = d.memOut := Eq.symm rfl
@[simp] theorem modMfu_launches (d : Dev) (f : Mfu → Mfu) : (modMfu d f).launches = d.launches := Eq.symm rfl
@[simp] theorem modMfu_freeCtr (d : Dev) (f : Mfu → Mfu) : (modMfu d f).freeCtr = d.freeCtr := Eq.symm rfl

@[simp] theorem reg_modPlx (d : Dev) (f : Plx → Plx) (p off : Nat) : reg (modPlx d f) p off = reg d p off := Eq.symm rfl
@[simp] theorem fld_modPlx (d : Dev) (f : Plx → Plx) (g : Fld) : fld (modPlx d f) g = fld d g := Eq.symm rfl
@[simp] theorem flag_modPlx (d : Dev) (f : Plx → Plx) (g : Fld) : flag (modPlx d f) g = flag d g := Eq.symm rfl
@[simp] theorem fbit_modPlx (d : Dev) (f : Plx → Plx) (g : Fld) (i : Nat) : fbit (modPlx d f) g i = fbit d g i := Eq.symm rfl
@[simp] theorem modPlx_now (d : Dev) (f : Plx → Plx) : (modPlx d f).now = d.now := Eq.symm rfl
@[simp] theorem modPlx_tide (d : Dev) (f : Plx → Plx) : (modPlx d f).tide = d.tide := Eq.symm rfl
@[simp] theorem modPlx_regs (d : Dev) (f : Plx → Plx) : (modPlx d f).regs = d.regs := Eq.symm rfl
@[simp] theorem modPlx_scu (d : Dev) (f : Plx → Plx) : (modPlx d f).scu = d.scu := Eq.symm rfl
@[simp] theorem modPlx_hpu (d : Dev) (f : Plx → Plx) : (modPlx d f).hpu = d.hpu := Eq.symm rfl
@[simp] theorem modPlx_btc (d : Dev) (f : Plx → Plx) : (modPlx d f).btc = d.btc := Eq.symm rfl
@[simp] theorem modPlx_mfu (d : Dev) (f : Plx → Plx) : (modPlx d f).mfu = d.mfu := Eq.symm rfl
@[simp] theorem modPlx_plx (d : Dev) (f : Plx → Plx) : (modPlx d f).plx = f d.plx := Eq.symm rfl
@[simp] theorem modPlx_cmds (d : Dev) (f : Plx → Plx) : (modPlx d f).cmds = d.cmds := Eq.symm rfl
@[simp] theorem modPlx_seqs (d : Dev) (f : Plx → Plx) : (modPlx d f).seqs = d.seqs := Eq.symm rfl
@[simp] theorem modPlx_quays (d : Dev) (f : Plx → Plx) : (modPlx d f).quays = d.quays := Eq.symm rfl
@[simp] theorem modPlx_lev (d : Dev) (f : Plx → Plx) : (modPlx d f).lev = d.lev := Eq.symm rfl
@[simp] theorem modPlx_blu (d : Dev) (f : Plx → Plx) : (modPlx d f).blu = d.blu := Eq.symm rfl
@[simp] theorem modPlx_hms (d : Dev) (f : Plx → Plx) : (modPlx d f).hms = d.hms := Eq.symm rfl
@[simp] theorem modPlx_lbu (d : Dev) (f : Plx → Plx) : (modPlx d f).lbu = d.lbu := Eq.symm rfl
@[simp] theorem modPlx_harbour (d : Dev) (f : Plx → Plx) : (modPlx d f).harbour = d.harbour := Eq.symm rfl
@[simp] theorem modPlx_mmg (d : Dev) (f : Plx → Plx) : (modPlx d f).mmg = d.mmg := Eq.symm rfl
@[simp] theorem modPlx_fsa (d : Dev) (f : Plx → Plx) : (modPlx d f).fsa = d.fsa := Eq.symm rfl
@[simp] theorem modPlx_dtc (d : Dev) (f : Plx → Plx) : (modPlx d f).dtc = d.dtc := Eq.symm rfl
@[simp] theorem modPlx_coh (d : Dev) (f : Plx → Plx) : (modPlx d f).coh = d.coh := Eq.symm rfl
@[simp] theorem modPlx_memOut (d : Dev) (f : Plx → Plx) : (modPlx d f).memOut = d.memOut := Eq.symm rfl
@[simp] theorem modPlx_launches (d : Dev) (f : Plx → Plx) : (modPlx d f).launches = d.launches := Eq.symm rfl
@[simp] theorem modPlx_freeCtr (d : Dev) (f : Plx → Plx) : (modPlx d f).freeCtr = d.freeCtr := Eq.symm rfl

@[simp] theorem reg_modLev (d : Dev) (f : Lev → Lev) (p off : Nat) : reg (modLev d f) p off = reg d p off := Eq.symm rfl
@[simp] theorem fld_modLev (d : Dev) (f : Lev → Lev) (g : Fld) : fld (modLev d f) g = fld d g := Eq.symm rfl
@[simp] theorem flag_modLev (d : Dev) (f : Lev → Lev) (g : Fld) : flag (modLev d f) g = flag d g := Eq.symm rfl
@[simp] theorem fbit_modLev (d : Dev) (f : Lev → Lev) (g : Fld) (i : Nat) : fbit (modLev d f) g i = fbit d g i := Eq.symm rfl
@[simp] theorem modLev_now (d : Dev) (f : Lev → Lev) : (modLev d f).now = d.now := Eq.symm rfl
@[simp] theorem modLev_tide (d : Dev) (f : Lev → Lev) : (modLev d f).tide = d.tide := Eq.symm rfl
@[simp] theorem modLev_regs (d : Dev) (f : Lev → Lev) : (modLev d f).regs = d.regs := Eq.symm rfl
@[simp] theorem modLev_scu (d : Dev) (f : Lev → Lev) : (modLev d f).scu = d.scu := Eq.symm rfl
@[simp] theorem modLev_hpu (d : Dev) (f : Lev → Lev) : (modLev d f).hpu = d.hpu := Eq.symm rfl
@[simp] theorem modLev_btc (d : Dev) (f : Lev → Lev) : (modLev d f).btc = d.btc := Eq.symm rfl
@[simp] theorem modLev_mfu (d : Dev) (f : Lev → Lev) : (modLev d f).mfu = d.mfu := Eq.symm rfl
@[simp] theorem modLev_plx (d : Dev) (f : Lev → Lev) : (modLev d f).plx = d.plx := Eq.symm rfl
@[simp] theorem modLev_cmds (d : Dev) (f : Lev → Lev) : (modLev d f).cmds = d.cmds := Eq.symm rfl
@[simp] theorem modLev_seqs (d : Dev) (f : Lev → Lev) : (modLev d f).seqs = d.seqs := Eq.symm rfl
@[simp] theorem modLev_quays (d : Dev) (f : Lev → Lev) : (modLev d f).quays = d.quays := Eq.symm rfl
@[simp] theorem modLev_lev (d : Dev) (f : Lev → Lev) : (modLev d f).lev = f d.lev := Eq.symm rfl
@[simp] theorem modLev_blu (d : Dev) (f : Lev → Lev) : (modLev d f).blu = d.blu := Eq.symm rfl
@[simp] theorem modLev_hms (d : Dev) (f : Lev → Lev) : (modLev d f).hms = d.hms := Eq.symm rfl
@[simp] theorem modLev_lbu (d : Dev) (f : Lev → Lev) : (modLev d f).lbu = d.lbu := Eq.symm rfl
@[simp] theorem modLev_harbour (d : Dev) (f : Lev → Lev) : (modLev d f).harbour = d.harbour := Eq.symm rfl
@[simp] theorem modLev_mmg (d : Dev) (f : Lev → Lev) : (modLev d f).mmg = d.mmg := Eq.symm rfl
@[simp] theorem modLev_fsa (d : Dev) (f : Lev → Lev) : (modLev d f).fsa = d.fsa := Eq.symm rfl
@[simp] theorem modLev_dtc (d : Dev) (f : Lev → Lev) : (modLev d f).dtc = d.dtc := Eq.symm rfl
@[simp] theorem modLev_coh (d : Dev) (f : Lev → Lev) : (modLev d f).coh = d.coh := Eq.symm rfl
@[simp] theorem modLev_memOut (d : Dev) (f : Lev → Lev) : (modLev d f).memOut = d.memOut := Eq.symm rfl
@[simp] theorem modLev_launches (d : Dev) (f : Lev → Lev) : (modLev d f).launches = d.launches := Eq.symm rfl
@[simp] theorem modLev_freeCtr (d : Dev) (f : Lev → Lev) : (modLev d f).freeCtr = d.freeCtr := Eq.symm rfl

@[simp] theorem reg_modBlu (d : Dev) (f : Blu → Blu) (p off : Nat) : reg (modBlu d f) p off = reg d p off := Eq.symm rfl
@[simp] theorem fld_modBlu (d : Dev) (f : Blu → Blu) (g : Fld) : fld (modBlu d f) g = fld d g := Eq.symm rfl
@[simp] theorem flag_modBlu (d : Dev) (f : Blu → Blu) (g : Fld) : flag (modBlu d f) g = flag d g := Eq.symm rfl
@[simp] theorem fbit_modBlu (d : Dev) (f : Blu → Blu) (g : Fld) (i : Nat) : fbit (modBlu d f) g i = fbit d g i := Eq.symm rfl
@[simp] theorem modBlu_now (d : Dev) (f : Blu → Blu) : (modBlu d f).now = d.now := Eq.symm rfl
@[simp] theorem modBlu_tide (d : Dev) (f : Blu → Blu) : (modBlu d f).tide = d.tide := Eq.symm rfl
@[simp] theorem modBlu_regs (d : Dev) (f : Blu → Blu) : (modBlu d f).regs = d.regs := Eq.symm rfl
@[simp] theorem modBlu_scu (d : Dev) (f : Blu → Blu) : (modBlu d f).scu = d.scu := Eq.symm rfl
@[simp] theorem modBlu_hpu (d : Dev) (f : Blu → Blu) : (modBlu d f).hpu = d.hpu := Eq.symm rfl
@[simp] theorem modBlu_btc (d : Dev) (f : Blu → Blu) : (modBlu d f).btc = d.btc := Eq.symm rfl
@[simp] theorem modBlu_mfu (d : Dev) (f : Blu → Blu) : (modBlu d f).mfu = d.mfu := Eq.symm rfl
@[simp] theorem modBlu_plx (d : Dev) (f : Blu → Blu) : (modBlu d f).plx = d.plx := Eq.symm rfl
@[simp] theorem modBlu_cmds (d : Dev) (f : Blu → Blu) : (modBlu d f).cmds = d.cmds := Eq.symm rfl
@[simp] theorem modBlu_seqs (d : Dev) (f : Blu → Blu) : (modBlu d f).seqs = d.seqs := Eq.symm rfl
@[simp] theorem modBlu_quays (d : Dev) (f : Blu → Blu) : (modBlu d f).quays = d.quays := Eq.symm rfl
@[simp] theorem modBlu_lev (d : Dev) (f : Blu → Blu) : (modBlu d f).lev = d.lev := Eq.symm rfl
@[simp] theorem modBlu_blu (d : Dev) (f : Blu → Blu) : (modBlu d f).blu = f d.blu := Eq.symm rfl
@[simp] theorem modBlu_hms (d : Dev) (f : Blu → Blu) : (modBlu d f).hms = d.hms := Eq.symm rfl
@[simp] theorem modBlu_lbu (d : Dev) (f : Blu → Blu) : (modBlu d f).lbu = d.lbu := Eq.symm rfl
@[simp] theorem modBlu_harbour (d : Dev) (f : Blu → Blu) : (modBlu d f).harbour = d.harbour := Eq.symm rfl
@[simp] theorem modBlu_mmg (d : Dev) (f : Blu → Blu) : (modBlu d f).mmg = d.mmg := Eq.symm rfl
@[simp] theorem modBlu_fsa (d : Dev) (f : Blu → Blu) : (modBlu d f).fsa = d.fsa := Eq.symm rfl
@[simp] theorem modBlu_dtc (d : Dev) (f : Blu → Blu) : (modBlu d f).dtc = d.dtc := Eq.symm rfl
@[simp] theorem modBlu_coh (d : Dev) (f : Blu → Blu) : (modBlu d f).coh = d.coh := Eq.symm rfl
@[simp] theorem modBlu_memOut (d : Dev) (f : Blu → Blu) : (modBlu d f).memOut = d.memOut := Eq.symm rfl
@[simp] theorem modBlu_launches (d : Dev) (f : Blu → Blu) : (modBlu d f).launches = d.launches := Eq.symm rfl
@[simp] theorem modBlu_freeCtr (d : Dev) (f : Blu → Blu) : (modBlu d f).freeCtr = d.freeCtr := Eq.symm rfl

@[simp] theorem reg_modHms (d : Dev) (f : Hms → Hms) (p off : Nat) : reg (modHms d f) p off = reg d p off := Eq.symm rfl
@[simp] theorem fld_modHms (d : Dev) (f : Hms → Hms) (g : Fld) : fld (modHms d f) g = fld d g := Eq.symm rfl
@[simp] theorem flag_modHms (d : Dev) (f : Hms → Hms) (g : Fld) : flag (modHms d f) g = flag d g := Eq.symm rfl
@[simp] theorem fbit_modHms (d : Dev) (f : Hms → Hms) (g : Fld) (i : Nat) : fbit (modHms d f) g i = fbit d g i := Eq.symm rfl
@[simp] theorem modHms_now (d : Dev) (f : Hms → Hms) : (modHms d f).now = d.now := Eq.symm rfl
@[simp] theorem modHms_tide (d : Dev) (f : Hms → Hms) : (modHms d f).tide = d.tide := Eq.symm rfl
@[simp] theorem modHms_regs (d : Dev) (f : Hms → Hms) : (modHms d f).regs = d.regs := Eq.symm rfl
@[simp] theorem modHms_scu (d : Dev) (f : Hms → Hms) : (modHms d f).scu = d.scu := Eq.symm rfl
@[simp] theorem modHms_hpu (d : Dev) (f : Hms → Hms) : (modHms d f).hpu = d.hpu := Eq.symm rfl
@[simp] theorem modHms_btc (d : Dev) (f : Hms → Hms) : (modHms d f).btc = d.btc := Eq.symm rfl
@[simp] theorem modHms_mfu (d : Dev) (f : Hms → Hms) : (modHms d f).mfu = d.mfu := Eq.symm rfl
@[simp] theorem modHms_plx (d : Dev) (f : Hms → Hms) : (modHms d f).plx = d.plx := Eq.symm rfl
@[simp] theorem modHms_cmds (d : Dev) (f : Hms → Hms) : (modHms d f).cmds = d.cmds := Eq.symm rfl
@[simp] theorem modHms_seqs (d : Dev) (f : Hms → Hms) : (modHms d f).seqs = d.seqs := Eq.symm rfl
@[simp] theorem modHms_quays (d : Dev) (f : Hms → Hms) : (modHms d f).quays = d.quays := Eq.symm rfl
@[simp] theorem modHms_lev (d : Dev) (f : Hms → Hms) : (modHms d f).lev = d.lev := Eq.symm rfl
@[simp] theorem modHms_blu (d : Dev) (f : Hms → Hms) : (modHms d f).blu = d.blu := Eq.symm rfl
@[simp] theorem modHms_hms (d : Dev) (f : Hms → Hms) : (modHms d f).hms = f d.hms := Eq.symm rfl
@[simp] theorem modHms_lbu (d : Dev) (f : Hms → Hms) : (modHms d f).lbu = d.lbu := Eq.symm rfl
@[simp] theorem modHms_harbour (d : Dev) (f : Hms → Hms) : (modHms d f).harbour = d.harbour := Eq.symm rfl
@[simp] theorem modHms_mmg (d : Dev) (f : Hms → Hms) : (modHms d f).mmg = d.mmg := Eq.symm rfl
@[simp] theorem modHms_fsa (d : Dev) (f : Hms → Hms) : (modHms d f).fsa = d.fsa := Eq.symm rfl
@[simp] theorem modHms_dtc (d : Dev) (f : Hms → Hms) : (modHms d f).dtc = d.dtc := Eq.symm rfl
@[simp] theorem modHms_coh (d : Dev) (f : Hms → Hms) : (modHms d f).coh = d.coh := Eq.symm rfl
@[simp] theorem modHms_memOut (d : Dev) (f : Hms → Hms) : (modHms d f).memOut = d.memOut := Eq.symm rfl
@[simp] theorem modHms_launches (d : Dev) (f : Hms → Hms) : (modHms d f).launches = d.launches := Eq.symm rfl
@[simp] theorem modHms_freeCtr (d : Dev) (f : Hms → Hms) : (modHms d f).freeCtr = d.freeCtr := Eq.symm rfl

@[simp] theorem reg_modLbu (d : Dev) (f : Lbu → Lbu) (p off : Nat) : reg (modLbu d f) p off = reg d p off := Eq.symm rfl
@[simp] theorem fld_modLbu (d : Dev) (f : Lbu → Lbu) (g : Fld) : fld (modLbu d f) g = fld d g := Eq.symm rfl
@[simp] theorem flag_modLbu (d : Dev) (f : Lbu → Lbu) (g : Fld) : flag (modLbu d f) g = flag d g := Eq.symm rfl
@[simp] theorem fbit_modLbu (d : Dev) (f : Lbu → Lbu) (g : Fld) (i : Nat) : fbit (modLbu d f) g i = fbit d g i := Eq.symm rfl
@[simp] theorem modLbu_now (d : Dev) (f : Lbu → Lbu) : (modLbu d f).now = d.now := Eq.symm rfl
@[simp] theorem modLbu_tide (d : Dev) (f : Lbu → Lbu) : (modLbu d f).tide = d.tide := Eq.symm rfl
@[simp] theorem modLbu_regs (d : Dev) (f : Lbu → Lbu) : (modLbu d f).regs = d.regs := Eq.symm rfl
@[simp] theorem modLbu_scu (d : Dev) (f : Lbu → Lbu) : (modLbu d f).scu = d.scu := Eq.symm rfl
@[simp] theorem modLbu_hpu (d : Dev) (f : Lbu → Lbu) : (modLbu d f).hpu = d.hpu := Eq.symm rfl
@[simp] theorem modLbu_btc (d : Dev) (f : Lbu → Lbu) : (modLbu d f).btc = d.btc := Eq.symm rfl
@[simp] theorem modLbu_mfu (d : Dev) (f : Lbu → Lbu) : (modLbu d f).mfu = d.mfu := Eq.symm rfl
@[simp] theorem modLbu_plx (d : Dev) (f : Lbu → Lbu) : (modLbu d f).plx = d.plx := Eq.symm rfl
@[simp] theorem modLbu_cmds (d : Dev) (f : Lbu → Lbu) : (modLbu d f).cmds = d.cmds := Eq.symm rfl
@[simp] theorem modLbu_seqs (d : Dev) (f : Lbu → Lbu) : (modLbu d f).seqs = d.seqs := Eq.symm rfl
@[simp] theorem modLbu_quays (d : Dev) (f : Lbu → Lbu) : (modLbu d f).quays = d.quays := Eq.symm rfl
@[simp] theorem modLbu_lev (d : Dev) (f : Lbu → Lbu) : (modLbu d f).lev = d.lev := Eq.symm rfl
@[simp] theorem modLbu_blu (d : Dev) (f : Lbu → Lbu) : (modLbu d f).blu = d.blu := Eq.symm rfl
@[simp] theorem modLbu_hms (d : Dev) (f : Lbu → Lbu) : (modLbu d f).hms = d.hms := Eq.symm rfl
@[simp] theorem modLbu_lbu (d : Dev) (f : Lbu → Lbu) : (modLbu d f).lbu = f d.lbu := Eq.symm rfl
@[simp] theorem modLbu_harbour (d : Dev) (f : Lbu → Lbu) : (modLbu d f).harbour = d.harbour := Eq.symm rfl
@[simp] theorem modLbu_mmg (d : Dev) (f : Lbu → Lbu) : (modLbu d f).mmg = d.mmg := Eq.symm rfl
@[simp] theorem modLbu_fsa (d : Dev) (f : Lbu → Lbu) : (modLbu d f).fsa = d.fsa := Eq.symm rfl
@[simp] theorem modLbu_dtc (d : Dev) (f : Lbu → Lbu) : (modLbu d f).dtc = d.dtc := Eq.symm rfl
@[simp] theorem modLbu_coh (d : Dev) (f : Lbu → Lbu) : (modLbu d f).coh = d.coh := Eq.symm rfl
@[simp] theorem modLbu_memOut (d : Dev) (f : Lbu → Lbu) : (modLbu d f).memOut = d.memOut := Eq.symm rfl
@[simp] theorem modLbu_launches (d : Dev) (f : Lbu → Lbu) : (modLbu d f).launches = d.launches := Eq.symm rfl
@[simp] theorem modLbu_freeCtr (d : Dev) (f : Lbu → Lbu) : (modLbu d f).freeCtr = d.freeCtr := Eq.symm rfl

@[simp] theorem reg_modMmg (d : Dev) (f : Mmg → Mmg) (p off : Nat) : reg (modMmg d f) p off = reg d p off := Eq.symm rfl
@[simp] theorem fld_modMmg (d : Dev) (f : Mmg → Mmg) (g : Fld) : fld (modMmg d f) g = fld d g := Eq.symm rfl
@[simp] theorem flag_modMmg (d : Dev) (f : Mmg → Mmg) (g : Fld) : flag (modMmg d f) g = flag d g := Eq.symm rfl
@[simp] theorem fbit_modMmg (d : Dev) (f : Mmg → Mmg) (g : Fld) (i : Nat) : fbit (modMmg d f) g i = fbit d g i := Eq.symm rfl
@[simp] theorem modMmg_now (d : Dev) (f : Mmg → Mmg) : (modMmg d f).now = d.now := Eq.symm rfl
@[simp] theorem modMmg_tide (d : Dev) (f : Mmg → Mmg) : (modMmg d f).tide = d.tide := Eq.symm rfl
@[simp] theorem modMmg_regs (d : Dev) (f : Mmg → Mmg) : (modMmg d f).regs = d.regs := Eq.symm rfl
@[simp] theorem modMmg_scu (d : Dev) (f : Mmg → Mmg) : (modMmg d f).scu = d.scu := Eq.symm rfl
@[simp] theorem modMmg_hpu (d : Dev) (f : Mmg → Mmg) : (modMmg d f).hpu = d.hpu := Eq.symm rfl
@[simp] theorem modMmg_btc (d : Dev) (f : Mmg → Mmg) : (modMmg d f).btc = d.btc := Eq.symm rfl
@[simp] theorem modMmg_mfu (d : Dev) (f : Mmg → Mmg) : (modMmg d f).mfu = d.mfu := Eq.symm rfl
@[simp] theorem modMmg_plx (d : Dev) (f : Mmg → Mmg) : (modMmg d f).plx = d.plx := Eq.symm rfl
@[simp] theorem modMmg_cmds (d : Dev) (f : Mmg → Mmg) : (modMmg d f).cmds = d.cmds := Eq.symm rfl
@[simp] theorem modMmg_seqs (d : Dev) (f : Mmg → Mmg) : (modMmg d f).seqs = d.seqs := Eq.symm rfl
@[simp] theorem modMmg_quays (d : Dev) (f : Mmg → Mmg) : (modMmg d f).quays = d.quays := Eq.symm rfl
@[simp] theorem modMmg_lev (d : Dev) (f : Mmg → Mmg) : (modMmg d f).lev = d.lev := Eq.symm rfl
@[simp] theorem modMmg_blu (d : Dev) (f : Mmg → Mmg) : (modMmg d f).blu = d.blu := Eq.symm rfl
@[simp] theorem modMmg_hms (d : Dev) (f : Mmg → Mmg) : (modMmg d f).hms = d.hms := Eq.symm rfl
@[simp] theorem modMmg_lbu (d : Dev) (f : Mmg → Mmg) : (modMmg d f).lbu = d.lbu := Eq.symm rfl
@[simp] theorem modMmg_harbour (d : Dev) (f : Mmg → Mmg) : (modMmg d f).harbour = d.harbour := Eq.symm rfl
@[simp] theorem modMmg_mmg (d : Dev) (f : Mmg → Mmg) : (modMmg d f).mmg = f d.mmg := Eq.symm rfl
@[simp] theorem modMmg_fsa (d : Dev) (f : Mmg → Mmg) : (modMmg d f).fsa = d.fsa := Eq.symm rfl
@[simp] theorem modMmg_dtc (d : Dev) (f : Mmg → Mmg) : (modMmg d f).dtc = d.dtc := Eq.symm rfl
@[simp] theorem modMmg_coh (d : Dev) (f : Mmg → Mmg) : (modMmg d f).coh = d.coh := Eq.symm rfl
@[simp] theorem modMmg_memOut (d : Dev) (f : Mmg → Mmg) : (modMmg d f).memOut = d.memOut := Eq.symm rfl
@[simp] theorem modMmg_launches (d : Dev) (f : Mmg → Mmg) : (modMmg d f).launches = d.launches := Eq.symm rfl
@[simp] theorem modMmg_freeCtr (d : Dev) (f : Mmg → Mmg) : (modMmg d f).freeCtr = d.freeCtr := Eq.symm rfl

@[simp] theorem reg_modFsa (d : Dev) (f : Fsa → Fsa) (p off : Nat) : reg (modFsa d f) p off = reg d p off := Eq.symm rfl
@[simp] theorem fld_modFsa (d : Dev) (f : Fsa → Fsa) (g : Fld) : fld (modFsa d f) g = fld d g := Eq.symm rfl
@[simp] theorem flag_modFsa (d : Dev) (f : Fsa → Fsa) (g : Fld) : flag (modFsa d f) g = flag d g := Eq.symm rfl
@[simp] theorem fbit_modFsa (d : Dev) (f : Fsa → Fsa) (g : Fld) (i : Nat) : fbit (modFsa d f) g i = fbit d g i := Eq.symm rfl
@[simp] theorem modFsa_now (d : Dev) (f : Fsa → Fsa) : (modFsa d f).now = d.now := Eq.symm rfl
@[simp] theorem modFsa_tide (d : Dev) (f : Fsa → Fsa) : (modFsa d f).tide = d.tide := Eq.symm rfl
@[simp] theorem modFsa_regs (d : Dev) (f : Fsa → Fsa) : (modFsa d f).regs = d.regs := Eq.symm rfl
@[simp] theorem modFsa_scu (d : Dev) (f : Fsa → Fsa) : (modFsa d f).scu = d.scu := Eq.symm rfl
@[simp] theorem modFsa_hpu (d : Dev) (f : Fsa → Fsa) : (modFsa d f).hpu = d.hpu := Eq.symm rfl
@[simp] theorem modFsa_btc (d : Dev) (f : Fsa → Fsa) : (modFsa d f).btc = d.btc := Eq.symm rfl
@[simp] theorem modFsa_mfu (d : Dev) (f : Fsa → Fsa) : (modFsa d f).mfu = d.mfu := Eq.symm rfl
@[simp] theorem modFsa_plx (d : Dev) (f : Fsa → Fsa) : (modFsa d f).plx = d.plx := Eq.symm rfl
@[simp] theorem modFsa_cmds (d : Dev) (f : Fsa → Fsa) : (modFsa d f).cmds = d.cmds := Eq.symm rfl
@[simp] theorem modFsa_seqs (d : Dev) (f : Fsa → Fsa) : (modFsa d f).seqs = d.seqs := Eq.symm rfl
@[simp] theorem modFsa_quays (d : Dev) (f : Fsa → Fsa) : (modFsa d f).quays = d.quays := Eq.symm rfl
@[simp] theorem modFsa_lev (d : Dev) (f : Fsa → Fsa) : (modFsa d f).lev = d.lev := Eq.symm rfl
@[simp] theorem modFsa_blu (d : Dev) (f : Fsa → Fsa) : (modFsa d f).blu = d.blu := Eq.symm rfl
@[simp] theorem modFsa_hms (d : Dev) (f : Fsa → Fsa) : (modFsa d f).hms = d.hms := Eq.symm rfl
@[simp] theorem modFsa_lbu (d : Dev) (f : Fsa → Fsa) : (modFsa d f).lbu = d.lbu := Eq.symm rfl
@[simp] theorem modFsa_harbour (d : Dev) (f : Fsa → Fsa) : (modFsa d f).harbour = d.harbour := Eq.symm rfl
@[simp] theorem modFsa_mmg (d : Dev) (f : Fsa → Fsa) : (modFsa d f).mmg = d.mmg := Eq.symm rfl
@[simp] theorem modFsa_fsa (d : Dev) (f : Fsa → Fsa) : (modFsa d f).fsa = f d.fsa := Eq.symm rfl
@[simp] theorem modFsa_dtc (d : Dev) (f : Fsa → Fsa) : (modFsa d f).dtc = d.dtc := Eq.symm rfl
@[simp] theorem modFsa_coh (d : Dev) (f : Fsa → Fsa) : (modFsa d f).coh = d.coh := Eq.symm rfl
@[simp] theorem modFsa_memOut (d : Dev) (f : Fsa → Fsa) : (modFsa d f).memOut = d.memOut := Eq.symm rfl
@[simp] theorem modFsa_launches (d : Dev) (f : Fsa → Fsa) : (modFsa d f).launches = d.launches := Eq.symm rfl
@[simp] theorem modFsa_freeCtr (d : Dev) (f : Fsa → Fsa) : (modFsa d f).freeCtr = d.freeCtr := Eq.symm rfl

@[simp] theorem reg_modDtc (d : Dev) (f : Dtc → Dtc) (p off : Nat) : reg (modDtc d f) p off = reg d p off := Eq.symm rfl
@[simp] theorem fld_modDtc (d : Dev) (f : Dtc → Dtc) (g : Fld) : fld (modDtc d f) g = fld d g := Eq.symm rfl
@[simp] theorem flag_modDtc (d : Dev) (f : Dtc → Dtc) (g : Fld) : flag (modDtc d f) g = flag d g := Eq.symm rfl
@[simp] theorem fbit_modDtc (d : Dev) (f : Dtc → Dtc) (g : Fld) (i : Nat) : fbit (modDtc d f) g i = fbit d g i := Eq.symm rfl
@[simp] theorem modDtc_now (d : Dev) (f : Dtc → Dtc) : (modDtc d f).now = d.now := Eq.symm rfl
@[simp] theorem modDtc_tide (d : Dev) (f : Dtc → Dtc) : (modDtc d f).tide = d.tide := Eq.symm rfl
@[simp] theorem modDtc_regs (d : Dev) (f : Dtc → Dtc) : (modDtc d f).regs = d.regs := Eq.symm rfl
@[simp] theorem modDtc_scu (d : Dev) (f : Dtc → Dtc) : (modDtc d f).scu = d.scu := Eq.symm rfl
@[simp] theorem modDtc_hpu (d : Dev) (f : Dtc → Dtc) : (modDtc d f).hpu = d.hpu := Eq.symm rfl
@[simp] theorem modDtc_btc (d : Dev) (f : Dtc → Dtc) : (modDtc d f).btc = d.btc := Eq.symm rfl
@[simp] theorem modDtc_mfu (d : Dev) (f : Dtc → Dtc) : (modDtc d f).mfu = d.mfu := Eq.symm rfl
@[simp] theorem modDtc_plx (d : Dev) (f : Dtc → Dtc) : (modDtc d f).plx = d.plx := Eq.symm rfl
@[simp] theorem modDtc_cmds (d : Dev) (f : Dtc → Dtc) : (modDtc d f).cmds = d.cmds := Eq.symm rfl
@[simp] theorem modDtc_seqs (d : Dev) (f : Dtc → Dtc) : (modDtc d f).seqs = d.seqs := Eq.symm rfl
@[simp] theorem modDtc_quays (d : Dev) (f : Dtc → Dtc) : (modDtc d f).quays = d.quays := Eq.symm rfl
@[simp] theorem modDtc_lev (d : Dev) (f : Dtc → Dtc) : (modDtc d f).lev = d.lev := Eq.symm rfl
@[simp] theorem modDtc_blu (d : Dev) (f : Dtc → Dtc) : (modDtc d f).blu = d.blu := Eq.symm rfl
@[simp] theorem modDtc_hms (d : Dev) (f : Dtc → Dtc) : (modDtc d f).hms = d.hms := Eq.symm rfl
@[simp] theorem modDtc_lbu (d : Dev) (f : Dtc → Dtc) : (modDtc d f).lbu = d.lbu := Eq.symm rfl
@[simp] theorem modDtc_harbour (d : Dev) (f : Dtc → Dtc) : (modDtc d f).harbour = d.harbour := Eq.symm rfl
@[simp] theorem modDtc_mmg (d : Dev) (f : Dtc → Dtc) : (modDtc d f).mmg = d.mmg := Eq.symm rfl
@[simp] theorem modDtc_fsa (d : Dev) (f : Dtc → Dtc) : (modDtc d f).fsa = d.fsa := Eq.symm rfl
@[simp] theorem modDtc_dtc (d : Dev) (f : Dtc → Dtc) : (modDtc d f).dtc = f d.dtc := Eq.symm rfl
@[simp] theorem modDtc_coh (d : Dev) (f : Dtc → Dtc) : (modDtc d f).coh = d.coh := Eq.symm rfl
@[simp] theorem modDtc_memOut (d : Dev) (f : Dtc → Dtc) : (modDtc d f).memOut = d.memOut := Eq.symm rfl
@[simp] theorem modDtc_launches (d : Dev) (f : Dtc → Dtc) : (modDtc d f).launches = d.launches := Eq.symm rfl
@[simp] theorem modDtc_freeCtr (d : Dev) (f : Dtc → Dtc) : (modDtc d f).freeCtr = d.freeCtr := Eq.symm rfl

@[simp] theorem reg_modCoh (d : Dev) (f : Coh → Coh) (p off : Nat) : reg (modCoh d f) p off = reg d p off := Eq.symm rfl
@[simp] theorem fld_modCoh (d : Dev) (f : Coh → Coh) (g : Fld) : fld (modCoh d f) g = fld d g := Eq.symm rfl
@[simp] theorem flag_modCoh (d : Dev) (f : Coh → Coh) (g : Fld) : flag (modCoh d f) g = flag d g := Eq.symm rfl
@[simp] theorem fbit_modCoh (d : Dev) (f : Coh → Coh) (g : Fld) (i : Nat) : fbit (modCoh d f) g i = fbit d g i := Eq.symm rfl
@[simp] theorem modCoh_now (d : Dev) (f : Coh → Coh) : (modCoh d f).now = d.now := Eq.symm rfl
@[simp] theorem modCoh_tide (d : Dev) (f : Coh → Coh) : (modCoh d f).tide = d.tide := Eq.symm rfl
@[simp] theorem modCoh_regs (d : Dev) (f : Coh → Coh) : (modCoh d f).regs = d.regs := Eq.symm rfl
@[simp] theorem modCoh_scu (d : Dev) (f : Coh → Coh) : (modCoh d f).scu = d.scu := Eq.symm rfl
@[simp] theorem modCoh_hpu (d : Dev) (f : Coh → Coh) : (modCoh d f).hpu = d.hpu := Eq.symm rfl
@[simp] theorem modCoh_btc (d : Dev) (f : Coh → Coh) : (modCoh d f).btc = d.btc := Eq.symm rfl
@[simp] theorem modCoh_mfu (d : Dev) (f : Coh → Coh) : (modCoh d f).mfu = d.mfu := Eq.symm rfl
@[simp] theorem modCoh_plx (d : Dev) (f : Coh → Coh) : (modCoh d f).plx = d.plx := Eq.symm rfl
@[simp] theorem modCoh_cmds (d : Dev) (f : Coh → Coh) : (modCoh d f).cmds = d.cmds := Eq.symm rfl
@[simp] theorem modCoh_seqs (d : Dev) (f : Coh → Coh) : (modCoh d f).seqs = d.seqs := Eq.symm rfl
@[simp] theorem modCoh_quays (d : Dev) (f : Coh → Coh) : (modCoh d f).quays = d.quays := Eq.symm rfl
@[simp] theorem modCoh_lev (d : Dev) (f : Coh → Coh) : (modCoh d f).lev = d.lev := Eq.symm rfl
@[simp] theorem modCoh_blu (d : Dev) (f : Coh → Coh) : (modCoh d f).blu = d.blu := Eq.symm rfl
@[simp] theorem modCoh_hms (d : Dev) (f : Coh → Coh) : (modCoh d f).hms = d.hms := Eq.symm rfl
@[simp] theorem modCoh_lbu (d : Dev) (f : Coh → Coh) : (modCoh d f).lbu = d.lbu := Eq.symm rfl
@[simp] theorem modCoh_harbour (d : Dev) (f : Coh → Coh) : (modCoh d f).harbour = d.harbour := Eq.symm rfl
@[simp] theorem modCoh_mmg (d : Dev) (f : Coh → Coh) : (modCoh d f).mmg = d.mmg := Eq.symm rfl
@[simp] theorem modCoh_fsa (d : Dev) (f : Coh → Coh) : (modCoh d f).fsa = d.fsa := Eq.symm rfl
@[simp] theorem modCoh_dtc (d : Dev) (f : Coh → Coh) : (modCoh d f).dtc = d.dtc := Eq.symm rfl
@[simp] theorem modCoh_coh (d : Dev) (f : Coh → Coh) : (modCoh d f).coh = f d.coh := Eq.symm rfl
@[simp] theorem modCoh_memOut (d : Dev) (f : Coh → Coh) : (modCoh d f).memOut = d.memOut := Eq.symm rfl
@[simp] theorem modCoh_launches (d : Dev) (f : Coh → Coh) : (modCoh d f).launches = d.launches := Eq.symm rfl
@[simp] theorem modCoh_freeCtr (d : Dev) (f : Coh → Coh) : (modCoh d f).freeCtr = d.freeCtr := Eq.symm rfl

/-! ### Units of a fixed number, commands, requests -/

@[simp] theorem reg_modQuay (d : Dev) (q : Nat) (f : Quay → Quay) (p off : Nat) : reg (modQuay d q f) p off = reg d p off := Eq.symm rfl
@[simp] theorem fld_modQuay (d : Dev) (q : Nat) (f : Quay → Quay) (g : Fld) : fld (modQuay d q f) g = fld d g := Eq.symm rfl
@[simp] theorem flag_modQuay (d : Dev) (q : Nat) (f : Quay → Quay) (g : Fld) : flag (modQuay d q f) g = flag d g := Eq.symm rfl
@[simp] theorem fbit_modQuay (d : Dev) (q : Nat) (f : Quay → Quay) (g : Fld) (i : Nat) : fbit (modQuay d q f) g i = fbit d g i := Eq.symm rfl
@[simp] theorem modQuay_now (d : Dev) (q : Nat) (f : Quay → Quay) : (modQuay d q f).now = d.now := Eq.symm rfl
@[simp] theorem modQuay_tide (d : Dev) (q : Nat) (f : Quay → Quay) : (modQuay d q f).tide = d.tide := Eq.symm rfl
@[simp] theorem modQuay_regs (d : Dev) (q : Nat) (f : Quay → Quay) : (modQuay d q f).regs = d.regs := Eq.symm rfl
@[simp] theorem modQuay_scu (d : Dev) (q : Nat) (f : Quay → Quay) : (modQuay d q f).scu = d.scu := Eq.symm rfl
@[simp] theorem modQuay_hpu (d : Dev) (q : Nat) (f : Quay → Quay) : (modQuay d q f).hpu = d.hpu := Eq.symm rfl
@[simp] theorem modQuay_btc (d : Dev) (q : Nat) (f : Quay → Quay) : (modQuay d q f).btc = d.btc := Eq.symm rfl
@[simp] theorem modQuay_mfu (d : Dev) (q : Nat) (f : Quay → Quay) : (modQuay d q f).mfu = d.mfu := Eq.symm rfl
@[simp] theorem modQuay_plx (d : Dev) (q : Nat) (f : Quay → Quay) : (modQuay d q f).plx = d.plx := Eq.symm rfl
@[simp] theorem modQuay_cmds (d : Dev) (q : Nat) (f : Quay → Quay) : (modQuay d q f).cmds = d.cmds := Eq.symm rfl
@[simp] theorem modQuay_seqs (d : Dev) (q : Nat) (f : Quay → Quay) : (modQuay d q f).seqs = d.seqs := Eq.symm rfl
@[simp] theorem modQuay_lev (d : Dev) (q : Nat) (f : Quay → Quay) : (modQuay d q f).lev = d.lev := Eq.symm rfl
@[simp] theorem modQuay_blu (d : Dev) (q : Nat) (f : Quay → Quay) : (modQuay d q f).blu = d.blu := Eq.symm rfl
@[simp] theorem modQuay_hms (d : Dev) (q : Nat) (f : Quay → Quay) : (modQuay d q f).hms = d.hms := Eq.symm rfl
@[simp] theorem modQuay_lbu (d : Dev) (q : Nat) (f : Quay → Quay) : (modQuay d q f).lbu = d.lbu := Eq.symm rfl
@[simp] theorem modQuay_harbour (d : Dev) (q : Nat) (f : Quay → Quay) : (modQuay d q f).harbour = d.harbour := Eq.symm rfl
@[simp] theorem modQuay_mmg (d : Dev) (q : Nat) (f : Quay → Quay) : (modQuay d q f).mmg = d.mmg := Eq.symm rfl
@[simp] theorem modQuay_fsa (d : Dev) (q : Nat) (f : Quay → Quay) : (modQuay d q f).fsa = d.fsa := Eq.symm rfl
@[simp] theorem modQuay_dtc (d : Dev) (q : Nat) (f : Quay → Quay) : (modQuay d q f).dtc = d.dtc := Eq.symm rfl
@[simp] theorem modQuay_coh (d : Dev) (q : Nat) (f : Quay → Quay) : (modQuay d q f).coh = d.coh := Eq.symm rfl
@[simp] theorem modQuay_memOut (d : Dev) (q : Nat) (f : Quay → Quay) : (modQuay d q f).memOut = d.memOut := Eq.symm rfl
@[simp] theorem modQuay_launches (d : Dev) (q : Nat) (f : Quay → Quay) : (modQuay d q f).launches = d.launches := Eq.symm rfl
@[simp] theorem modQuay_freeCtr (d : Dev) (q : Nat) (f : Quay → Quay) : (modQuay d q f).freeCtr = d.freeCtr := Eq.symm rfl

@[simp] theorem reg_modSeq (d : Dev) (q : Nat) (f : Seqr → Seqr) (p off : Nat) : reg (modSeq d q f) p off = reg d p off := Eq.symm rfl
@[simp] theorem fld_modSeq (d : Dev) (q : Nat) (f : Seqr → Seqr) (g : Fld) : fld (modSeq d q f) g = fld d g := Eq.symm rfl
@[simp] theorem flag_modSeq (d : Dev) (q : Nat) (f : Seqr → Seqr) (g : Fld) : flag (modSeq d q f) g = flag d g := Eq.symm rfl
@[simp] theorem fbit_modSeq (d : Dev) (q : Nat) (f : Seqr → Seqr) (g : Fld) (i : Nat) : fbit (modSeq d q f) g i = fbit d g i := Eq.symm rfl
@[simp] theorem modSeq_now (d : Dev) (q : Nat) (f : Seqr → Seqr) : (modSeq d q f).now = d.now := Eq.symm rfl
@[simp] theorem modSeq_tide (d : Dev) (q : Nat) (f : Seqr → Seqr) : (modSeq d q f).tide = d.tide := Eq.symm rfl
@[simp] theorem modSeq_regs (d : Dev) (q : Nat) (f : Seqr → Seqr) : (modSeq d q f).regs = d.regs := Eq.symm rfl
@[simp] theorem modSeq_scu (d : Dev) (q : Nat) (f : Seqr → Seqr) : (modSeq d q f).scu = d.scu := Eq.symm rfl
@[simp] theorem modSeq_hpu (d : Dev) (q : Nat) (f : Seqr → Seqr) : (modSeq d q f).hpu = d.hpu := Eq.symm rfl
@[simp] theorem modSeq_btc (d : Dev) (q : Nat) (f : Seqr → Seqr) : (modSeq d q f).btc = d.btc := Eq.symm rfl
@[simp] theorem modSeq_mfu (d : Dev) (q : Nat) (f : Seqr → Seqr) : (modSeq d q f).mfu = d.mfu := Eq.symm rfl
@[simp] theorem modSeq_plx (d : Dev) (q : Nat) (f : Seqr → Seqr) : (modSeq d q f).plx = d.plx := Eq.symm rfl
@[simp] theorem modSeq_cmds (d : Dev) (q : Nat) (f : Seqr → Seqr) : (modSeq d q f).cmds = d.cmds := Eq.symm rfl
@[simp] theorem modSeq_quays (d : Dev) (q : Nat) (f : Seqr → Seqr) : (modSeq d q f).quays = d.quays := Eq.symm rfl
@[simp] theorem modSeq_lev (d : Dev) (q : Nat) (f : Seqr → Seqr) : (modSeq d q f).lev = d.lev := Eq.symm rfl
@[simp] theorem modSeq_blu (d : Dev) (q : Nat) (f : Seqr → Seqr) : (modSeq d q f).blu = d.blu := Eq.symm rfl
@[simp] theorem modSeq_hms (d : Dev) (q : Nat) (f : Seqr → Seqr) : (modSeq d q f).hms = d.hms := Eq.symm rfl
@[simp] theorem modSeq_lbu (d : Dev) (q : Nat) (f : Seqr → Seqr) : (modSeq d q f).lbu = d.lbu := Eq.symm rfl
@[simp] theorem modSeq_harbour (d : Dev) (q : Nat) (f : Seqr → Seqr) : (modSeq d q f).harbour = d.harbour := Eq.symm rfl
@[simp] theorem modSeq_mmg (d : Dev) (q : Nat) (f : Seqr → Seqr) : (modSeq d q f).mmg = d.mmg := Eq.symm rfl
@[simp] theorem modSeq_fsa (d : Dev) (q : Nat) (f : Seqr → Seqr) : (modSeq d q f).fsa = d.fsa := Eq.symm rfl
@[simp] theorem modSeq_dtc (d : Dev) (q : Nat) (f : Seqr → Seqr) : (modSeq d q f).dtc = d.dtc := Eq.symm rfl
@[simp] theorem modSeq_coh (d : Dev) (q : Nat) (f : Seqr → Seqr) : (modSeq d q f).coh = d.coh := Eq.symm rfl
@[simp] theorem modSeq_memOut (d : Dev) (q : Nat) (f : Seqr → Seqr) : (modSeq d q f).memOut = d.memOut := Eq.symm rfl
@[simp] theorem modSeq_launches (d : Dev) (q : Nat) (f : Seqr → Seqr) : (modSeq d q f).launches = d.launches := Eq.symm rfl
@[simp] theorem modSeq_freeCtr (d : Dev) (q : Nat) (f : Seqr → Seqr) : (modSeq d q f).freeCtr = d.freeCtr := Eq.symm rfl

@[simp] theorem reg_putCmd (d : Dev) (c : Cmd) (p off : Nat) : reg (putCmd d c) p off = reg d p off := Eq.symm rfl
@[simp] theorem fld_putCmd (d : Dev) (c : Cmd) (g : Fld) : fld (putCmd d c) g = fld d g := Eq.symm rfl
@[simp] theorem flag_putCmd (d : Dev) (c : Cmd) (g : Fld) : flag (putCmd d c) g = flag d g := Eq.symm rfl
@[simp] theorem fbit_putCmd (d : Dev) (c : Cmd) (g : Fld) (i : Nat) : fbit (putCmd d c) g i = fbit d g i := Eq.symm rfl
@[simp] theorem putCmd_now (d : Dev) (c : Cmd) : (putCmd d c).now = d.now := Eq.symm rfl
@[simp] theorem putCmd_tide (d : Dev) (c : Cmd) : (putCmd d c).tide = d.tide := Eq.symm rfl
@[simp] theorem putCmd_regs (d : Dev) (c : Cmd) : (putCmd d c).regs = d.regs := Eq.symm rfl
@[simp] theorem putCmd_scu (d : Dev) (c : Cmd) : (putCmd d c).scu = d.scu := Eq.symm rfl
@[simp] theorem putCmd_hpu (d : Dev) (c : Cmd) : (putCmd d c).hpu = d.hpu := Eq.symm rfl
@[simp] theorem putCmd_btc (d : Dev) (c : Cmd) : (putCmd d c).btc = d.btc := Eq.symm rfl
@[simp] theorem putCmd_mfu (d : Dev) (c : Cmd) : (putCmd d c).mfu = d.mfu := Eq.symm rfl
@[simp] theorem putCmd_plx (d : Dev) (c : Cmd) : (putCmd d c).plx = d.plx := Eq.symm rfl
@[simp] theorem putCmd_seqs (d : Dev) (c : Cmd) : (putCmd d c).seqs = d.seqs := Eq.symm rfl
@[simp] theorem putCmd_quays (d : Dev) (c : Cmd) : (putCmd d c).quays = d.quays := Eq.symm rfl
@[simp] theorem putCmd_lev (d : Dev) (c : Cmd) : (putCmd d c).lev = d.lev := Eq.symm rfl
@[simp] theorem putCmd_blu (d : Dev) (c : Cmd) : (putCmd d c).blu = d.blu := Eq.symm rfl
@[simp] theorem putCmd_hms (d : Dev) (c : Cmd) : (putCmd d c).hms = d.hms := Eq.symm rfl
@[simp] theorem putCmd_lbu (d : Dev) (c : Cmd) : (putCmd d c).lbu = d.lbu := Eq.symm rfl
@[simp] theorem putCmd_harbour (d : Dev) (c : Cmd) : (putCmd d c).harbour = d.harbour := Eq.symm rfl
@[simp] theorem putCmd_mmg (d : Dev) (c : Cmd) : (putCmd d c).mmg = d.mmg := Eq.symm rfl
@[simp] theorem putCmd_fsa (d : Dev) (c : Cmd) : (putCmd d c).fsa = d.fsa := Eq.symm rfl
@[simp] theorem putCmd_dtc (d : Dev) (c : Cmd) : (putCmd d c).dtc = d.dtc := Eq.symm rfl
@[simp] theorem putCmd_coh (d : Dev) (c : Cmd) : (putCmd d c).coh = d.coh := Eq.symm rfl
@[simp] theorem putCmd_memOut (d : Dev) (c : Cmd) : (putCmd d c).memOut = d.memOut := Eq.symm rfl
@[simp] theorem putCmd_launches (d : Dev) (c : Cmd) : (putCmd d c).launches = d.launches := Eq.symm rfl
@[simp] theorem putCmd_freeCtr (d : Dev) (c : Cmd) : (putCmd d c).freeCtr = d.freeCtr := Eq.symm rfl

@[simp] theorem reg_modCmd (d : Dev) (k : CmdId) (f : Cmd → Cmd) (p off : Nat) : reg (modCmd d k f) p off = reg d p off := Eq.symm rfl
@[simp] theorem fld_modCmd (d : Dev) (k : CmdId) (f : Cmd → Cmd) (g : Fld) : fld (modCmd d k f) g = fld d g := Eq.symm rfl
@[simp] theorem flag_modCmd (d : Dev) (k : CmdId) (f : Cmd → Cmd) (g : Fld) : flag (modCmd d k f) g = flag d g := Eq.symm rfl
@[simp] theorem fbit_modCmd (d : Dev) (k : CmdId) (f : Cmd → Cmd) (g : Fld) (i : Nat) : fbit (modCmd d k f) g i = fbit d g i := Eq.symm rfl
@[simp] theorem modCmd_now (d : Dev) (k : CmdId) (f : Cmd → Cmd) : (modCmd d k f).now = d.now := Eq.symm rfl
@[simp] theorem modCmd_tide (d : Dev) (k : CmdId) (f : Cmd → Cmd) : (modCmd d k f).tide = d.tide := Eq.symm rfl
@[simp] theorem modCmd_regs (d : Dev) (k : CmdId) (f : Cmd → Cmd) : (modCmd d k f).regs = d.regs := Eq.symm rfl
@[simp] theorem modCmd_scu (d : Dev) (k : CmdId) (f : Cmd → Cmd) : (modCmd d k f).scu = d.scu := Eq.symm rfl
@[simp] theorem modCmd_hpu (d : Dev) (k : CmdId) (f : Cmd → Cmd) : (modCmd d k f).hpu = d.hpu := Eq.symm rfl
@[simp] theorem modCmd_btc (d : Dev) (k : CmdId) (f : Cmd → Cmd) : (modCmd d k f).btc = d.btc := Eq.symm rfl
@[simp] theorem modCmd_mfu (d : Dev) (k : CmdId) (f : Cmd → Cmd) : (modCmd d k f).mfu = d.mfu := Eq.symm rfl
@[simp] theorem modCmd_plx (d : Dev) (k : CmdId) (f : Cmd → Cmd) : (modCmd d k f).plx = d.plx := Eq.symm rfl
@[simp] theorem modCmd_seqs (d : Dev) (k : CmdId) (f : Cmd → Cmd) : (modCmd d k f).seqs = d.seqs := Eq.symm rfl
@[simp] theorem modCmd_quays (d : Dev) (k : CmdId) (f : Cmd → Cmd) : (modCmd d k f).quays = d.quays := Eq.symm rfl
@[simp] theorem modCmd_lev (d : Dev) (k : CmdId) (f : Cmd → Cmd) : (modCmd d k f).lev = d.lev := Eq.symm rfl
@[simp] theorem modCmd_blu (d : Dev) (k : CmdId) (f : Cmd → Cmd) : (modCmd d k f).blu = d.blu := Eq.symm rfl
@[simp] theorem modCmd_hms (d : Dev) (k : CmdId) (f : Cmd → Cmd) : (modCmd d k f).hms = d.hms := Eq.symm rfl
@[simp] theorem modCmd_lbu (d : Dev) (k : CmdId) (f : Cmd → Cmd) : (modCmd d k f).lbu = d.lbu := Eq.symm rfl
@[simp] theorem modCmd_harbour (d : Dev) (k : CmdId) (f : Cmd → Cmd) : (modCmd d k f).harbour = d.harbour := Eq.symm rfl
@[simp] theorem modCmd_mmg (d : Dev) (k : CmdId) (f : Cmd → Cmd) : (modCmd d k f).mmg = d.mmg := Eq.symm rfl
@[simp] theorem modCmd_fsa (d : Dev) (k : CmdId) (f : Cmd → Cmd) : (modCmd d k f).fsa = d.fsa := Eq.symm rfl
@[simp] theorem modCmd_dtc (d : Dev) (k : CmdId) (f : Cmd → Cmd) : (modCmd d k f).dtc = d.dtc := Eq.symm rfl
@[simp] theorem modCmd_coh (d : Dev) (k : CmdId) (f : Cmd → Cmd) : (modCmd d k f).coh = d.coh := Eq.symm rfl
@[simp] theorem modCmd_memOut (d : Dev) (k : CmdId) (f : Cmd → Cmd) : (modCmd d k f).memOut = d.memOut := Eq.symm rfl
@[simp] theorem modCmd_launches (d : Dev) (k : CmdId) (f : Cmd → Cmd) : (modCmd d k f).launches = d.launches := Eq.symm rfl
@[simp] theorem modCmd_freeCtr (d : Dev) (k : CmdId) (f : Cmd → Cmd) : (modCmd d k f).freeCtr = d.freeCtr := Eq.symm rfl

@[simp] theorem reg_memReq (d : Dev) (r : MemReq) (p off : Nat) : reg (memReq d r) p off = reg d p off := Eq.symm rfl
@[simp] theorem fld_memReq (d : Dev) (r : MemReq) (g : Fld) : fld (memReq d r) g = fld d g := Eq.symm rfl
@[simp] theorem flag_memReq (d : Dev) (r : MemReq) (g : Fld) : flag (memReq d r) g = flag d g := Eq.symm rfl
@[simp] theorem fbit_memReq (d : Dev) (r : MemReq) (g : Fld) (i : Nat) : fbit (memReq d r) g i = fbit d g i := Eq.symm rfl
@[simp] theorem memReq_now (d : Dev) (r : MemReq) : (memReq d r).now = d.now := Eq.symm rfl
@[simp] theorem memReq_tide (d : Dev) (r : MemReq) : (memReq d r).tide = d.tide := Eq.symm rfl
@[simp] theorem memReq_regs (d : Dev) (r : MemReq) : (memReq d r).regs = d.regs := Eq.symm rfl
@[simp] theorem memReq_scu (d : Dev) (r : MemReq) : (memReq d r).scu = d.scu := Eq.symm rfl
@[simp] theorem memReq_hpu (d : Dev) (r : MemReq) : (memReq d r).hpu = d.hpu := Eq.symm rfl
@[simp] theorem memReq_btc (d : Dev) (r : MemReq) : (memReq d r).btc = d.btc := Eq.symm rfl
@[simp] theorem memReq_mfu (d : Dev) (r : MemReq) : (memReq d r).mfu = d.mfu := Eq.symm rfl
@[simp] theorem memReq_plx (d : Dev) (r : MemReq) : (memReq d r).plx = d.plx := Eq.symm rfl
@[simp] theorem memReq_cmds (d : Dev) (r : MemReq) : (memReq d r).cmds = d.cmds := Eq.symm rfl
@[simp] theorem memReq_seqs (d : Dev) (r : MemReq) : (memReq d r).seqs = d.seqs := Eq.symm rfl
@[simp] theorem memReq_quays (d : Dev) (r : MemReq) : (memReq d r).quays = d.quays := Eq.symm rfl
@[simp] theorem memReq_lev (d : Dev) (r : MemReq) : (memReq d r).lev = d.lev := Eq.symm rfl
@[simp] theorem memReq_blu (d : Dev) (r : MemReq) : (memReq d r).blu = d.blu := Eq.symm rfl
@[simp] theorem memReq_hms (d : Dev) (r : MemReq) : (memReq d r).hms = d.hms := Eq.symm rfl
@[simp] theorem memReq_lbu (d : Dev) (r : MemReq) : (memReq d r).lbu = d.lbu := Eq.symm rfl
@[simp] theorem memReq_harbour (d : Dev) (r : MemReq) : (memReq d r).harbour = d.harbour := Eq.symm rfl
@[simp] theorem memReq_mmg (d : Dev) (r : MemReq) : (memReq d r).mmg = d.mmg := Eq.symm rfl
@[simp] theorem memReq_fsa (d : Dev) (r : MemReq) : (memReq d r).fsa = d.fsa := Eq.symm rfl
@[simp] theorem memReq_dtc (d : Dev) (r : MemReq) : (memReq d r).dtc = d.dtc := Eq.symm rfl
@[simp] theorem memReq_coh (d : Dev) (r : MemReq) : (memReq d r).coh = d.coh := Eq.symm rfl
@[simp] theorem memReq_launches (d : Dev) (r : MemReq) : (memReq d r).launches = d.launches := Eq.symm rfl
@[simp] theorem memReq_freeCtr (d : Dev) (r : MemReq) : (memReq d r).freeCtr = d.freeCtr := Eq.symm rfl

/-! ### Writes of registers -/

@[simp] theorem setReg_now (d : Dev) (p off : Nat) (w : W64) : (setReg d p off w).now = d.now := Eq.symm rfl
@[simp] theorem setReg_tide (d : Dev) (p off : Nat) (w : W64) : (setReg d p off w).tide = d.tide := Eq.symm rfl
@[simp] theorem setReg_scu (d : Dev) (p off : Nat) (w : W64) : (setReg d p off w).scu = d.scu := Eq.symm rfl
@[simp] theorem setReg_hpu (d : Dev) (p off : Nat) (w : W64) : (setReg d p off w).hpu = d.hpu := Eq.symm rfl
@[simp] theorem setReg_btc (d : Dev) (p off : Nat) (w : W64) : (setReg d p off w).btc = d.btc := Eq.symm rfl
@[simp] theorem setReg_mfu (d : Dev) (p off : Nat) (w : W64) : (setReg d p off w).mfu = d.mfu := Eq.symm rfl
@[simp] theorem setReg_plx (d : Dev) (p off : Nat) (w : W64) : (setReg d p off w).plx = d.plx := Eq.symm rfl
@[simp] theorem setReg_cmds (d : Dev) (p off : Nat) (w : W64) : (setReg d p off w).cmds = d.cmds := Eq.symm rfl
@[simp] theorem setReg_seqs (d : Dev) (p off : Nat) (w : W64) : (setReg d p off w).seqs = d.seqs := Eq.symm rfl
@[simp] theorem setReg_quays (d : Dev) (p off : Nat) (w : W64) : (setReg d p off w).quays = d.quays := Eq.symm rfl
@[simp] theorem setReg_lev (d : Dev) (p off : Nat) (w : W64) : (setReg d p off w).lev = d.lev := Eq.symm rfl
@[simp] theorem setReg_blu (d : Dev) (p off : Nat) (w : W64) : (setReg d p off w).blu = d.blu := Eq.symm rfl
@[simp] theorem setReg_hms (d : Dev) (p off : Nat) (w : W64) : (setReg d p off w).hms = d.hms := Eq.symm rfl
@[simp] theorem setReg_lbu (d : Dev) (p off : Nat) (w : W64) : (setReg d p off w).lbu = d.lbu := Eq.symm rfl
@[simp] theorem setReg_harbour (d : Dev) (p off : Nat) (w : W64) : (setReg d p off w).harbour = d.harbour := Eq.symm rfl
@[simp] theorem setReg_mmg (d : Dev) (p off : Nat) (w : W64) : (setReg d p off w).mmg = d.mmg := Eq.symm rfl
@[simp] theorem setReg_fsa (d : Dev) (p off : Nat) (w : W64) : (setReg d p off w).fsa = d.fsa := Eq.symm rfl
@[simp] theorem setReg_dtc (d : Dev) (p off : Nat) (w : W64) : (setReg d p off w).dtc = d.dtc := Eq.symm rfl
@[simp] theorem setReg_coh (d : Dev) (p off : Nat) (w : W64) : (setReg d p off w).coh = d.coh := Eq.symm rfl
@[simp] theorem setReg_memOut (d : Dev) (p off : Nat) (w : W64) : (setReg d p off w).memOut = d.memOut := Eq.symm rfl
@[simp] theorem setReg_launches (d : Dev) (p off : Nat) (w : W64) : (setReg d p off w).launches = d.launches := Eq.symm rfl
@[simp] theorem setReg_freeCtr (d : Dev) (p off : Nat) (w : W64) : (setReg d p off w).freeCtr = d.freeCtr := Eq.symm rfl

@[simp] theorem setFld_now (d : Dev) (g : Fld) (v : Nat) : (setFld d g v).now = d.now := setReg_now _ _ _ _
@[simp] theorem setFld_tide (d : Dev) (g : Fld) (v : Nat) : (setFld d g v).tide = d.tide := setReg_tide _ _ _ _
@[simp] theorem setFld_scu (d : Dev) (g : Fld) (v : Nat) : (setFld d g v).scu = d.scu := setReg_scu _ _ _ _
@[simp] theorem setFld_hpu (d : Dev) (g : Fld) (v : Nat) : (setFld d g v).hpu = d.hpu := setReg_hpu _ _ _ _
@[simp] theorem setFld_btc (d : Dev) (g : Fld) (v : Nat) : (setFld d g v).btc = d.btc := setReg_btc _ _ _ _
@[simp] theorem setFld_mfu (d : Dev) (g : Fld) (v : Nat) : (setFld d g v).mfu = d.mfu := setReg_mfu _ _ _ _
@[simp] theorem setFld_plx (d : Dev) (g : Fld) (v : Nat) : (setFld d g v).plx = d.plx := setReg_plx _ _ _ _
@[simp] theorem setFld_cmds (d : Dev) (g : Fld) (v : Nat) : (setFld d g v).cmds = d.cmds := setReg_cmds _ _ _ _
@[simp] theorem setFld_seqs (d : Dev) (g : Fld) (v : Nat) : (setFld d g v).seqs = d.seqs := setReg_seqs _ _ _ _
@[simp] theorem setFld_quays (d : Dev) (g : Fld) (v : Nat) : (setFld d g v).quays = d.quays := setReg_quays _ _ _ _
@[simp] theorem setFld_lev (d : Dev) (g : Fld) (v : Nat) : (setFld d g v).lev = d.lev := setReg_lev _ _ _ _
@[simp] theorem setFld_blu (d : Dev) (g : Fld) (v : Nat) : (setFld d g v).blu = d.blu := setReg_blu _ _ _ _
@[simp] theorem setFld_hms (d : Dev) (g : Fld) (v : Nat) : (setFld d g v).hms = d.hms := setReg_hms _ _ _ _
@[simp] theorem setFld_lbu (d : Dev) (g : Fld) (v : Nat) : (setFld d g v).lbu = d.lbu := setReg_lbu _ _ _ _
@[simp] theorem setFld_harbour (d : Dev) (g : Fld) (v : Nat) : (setFld d g v).harbour = d.harbour := setReg_harbour _ _ _ _
@[simp] theorem setFld_mmg (d : Dev) (g : Fld) (v : Nat) : (setFld d g v).mmg = d.mmg := setReg_mmg _ _ _ _
@[simp] theorem setFld_fsa (d : Dev) (g : Fld) (v : Nat) : (setFld d g v).fsa = d.fsa := setReg_fsa _ _ _ _
@[simp] theorem setFld_dtc (d : Dev) (g : Fld) (v : Nat) : (setFld d g v).dtc = d.dtc := setReg_dtc _ _ _ _
@[simp] theorem setFld_coh (d : Dev) (g : Fld) (v : Nat) : (setFld d g v).coh = d.coh := setReg_coh _ _ _ _
@[simp] theorem setFld_memOut (d : Dev) (g : Fld) (v : Nat) : (setFld d g v).memOut = d.memOut := setReg_memOut _ _ _ _
@[simp] theorem setFld_launches (d : Dev) (g : Fld) (v : Nat) : (setFld d g v).launches = d.launches := setReg_launches _ _ _ _
@[simp] theorem setFld_freeCtr (d : Dev) (g : Fld) (v : Nat) : (setFld d g v).freeCtr = d.freeCtr := setReg_freeCtr _ _ _ _

@[simp] theorem incWrap_now (d : Dev) (g : Fld) (n : Nat) : (incWrap d g n).now = d.now := setFld_now _ _ _
@[simp] theorem incWrap_tide (d : Dev) (g : Fld) (n : Nat) : (incWrap d g n).tide = d.tide := setFld_tide _ _ _
@[simp] theorem incWrap_scu (d : Dev) (g : Fld) (n : Nat) : (incWrap d g n).scu = d.scu := setFld_scu _ _ _
@[simp] theorem incWrap_hpu (d : Dev) (g : Fld) (n : Nat) : (incWrap d g n).hpu = d.hpu := setFld_hpu _ _ _
@[simp] theorem incWrap_btc (d : Dev) (g : Fld) (n : Nat) : (incWrap d g n).btc = d.btc := setFld_btc _ _ _
@[simp] theorem incWrap_mfu (d : Dev) (g : Fld) (n : Nat) : (incWrap d g n).mfu = d.mfu := setFld_mfu _ _ _
@[simp] theorem incWrap_plx (d : Dev) (g : Fld) (n : Nat) : (incWrap d g n).plx = d.plx := setFld_plx _ _ _
@[simp] theorem incWrap_cmds (d : Dev) (g : Fld) (n : Nat) : (incWrap d g n).cmds = d.cmds := setFld_cmds _ _ _
@[simp] theorem incWrap_seqs (d : Dev) (g : Fld) (n : Nat) : (incWrap d g n).seqs = d.seqs := setFld_seqs _ _ _
@[simp] theorem incWrap_quays (d : Dev) (g : Fld) (n : Nat) : (incWrap d g n).quays = d.quays := setFld_quays _ _ _
@[simp] theorem incWrap_lev (d : Dev) (g : Fld) (n : Nat) : (incWrap d g n).lev = d.lev := setFld_lev _ _ _
@[simp] theorem incWrap_blu (d : Dev) (g : Fld) (n : Nat) : (incWrap d g n).blu = d.blu := setFld_blu _ _ _
@[simp] theorem incWrap_hms (d : Dev) (g : Fld) (n : Nat) : (incWrap d g n).hms = d.hms := setFld_hms _ _ _
@[simp] theorem incWrap_lbu (d : Dev) (g : Fld) (n : Nat) : (incWrap d g n).lbu = d.lbu := setFld_lbu _ _ _
@[simp] theorem incWrap_harbour (d : Dev) (g : Fld) (n : Nat) : (incWrap d g n).harbour = d.harbour := setFld_harbour _ _ _
@[simp] theorem incWrap_mmg (d : Dev) (g : Fld) (n : Nat) : (incWrap d g n).mmg = d.mmg := setFld_mmg _ _ _
@[simp] theorem incWrap_fsa (d : Dev) (g : Fld) (n : Nat) : (incWrap d g n).fsa = d.fsa := setFld_fsa _ _ _
@[simp] theorem incWrap_dtc (d : Dev) (g : Fld) (n : Nat) : (incWrap d g n).dtc = d.dtc := setFld_dtc _ _ _
@[simp] theorem incWrap_coh (d : Dev) (g : Fld) (n : Nat) : (incWrap d g n).coh = d.coh := setFld_coh _ _ _
@[simp] theorem incWrap_memOut (d : Dev) (g : Fld) (n : Nat) : (incWrap d g n).memOut = d.memOut := setFld_memOut _ _ _
@[simp] theorem incWrap_launches (d : Dev) (g : Fld) (n : Nat) : (incWrap d g n).launches = d.launches := setFld_launches _ _ _
@[simp] theorem incWrap_freeCtr (d : Dev) (g : Fld) (n : Nat) : (incWrap d g n).freeCtr = d.freeCtr := setFld_freeCtr _ _ _

@[simp] theorem incSat_now (d : Dev) (g : Fld) (n : Nat) : (incSat d g n).now = d.now := setFld_now _ _ _
@[simp] theorem incSat_tide (d : Dev) (g : Fld) (n : Nat) : (incSat d g n).tide = d.tide := setFld_tide _ _ _
@[simp] theorem incSat_scu (d : Dev) (g : Fld) (n : Nat) : (incSat d g n).scu = d.scu := setFld_scu _ _ _
@[simp] theorem incSat_hpu (d : Dev) (g : Fld) (n : Nat) : (incSat d g n).hpu = d.hpu := setFld_hpu _ _ _
@[simp] theorem incSat_btc (d : Dev) (g : Fld) (n : Nat) : (incSat d g n).btc = d.btc := setFld_btc _ _ _
@[simp] theorem incSat_mfu (d : Dev) (g : Fld) (n : Nat) : (incSat d g n).mfu = d.mfu := setFld_mfu _ _ _
@[simp] theorem incSat_plx (d : Dev) (g : Fld) (n : Nat) : (incSat d g n).plx = d.plx := setFld_plx _ _ _
@[simp] theorem incSat_cmds (d : Dev) (g : Fld) (n : Nat) : (incSat d g n).cmds = d.cmds := setFld_cmds _ _ _
@[simp] theorem incSat_seqs (d : Dev) (g : Fld) (n : Nat) : (incSat d g n).seqs = d.seqs := setFld_seqs _ _ _
@[simp] theorem incSat_quays (d : Dev) (g : Fld) (n : Nat) : (incSat d g n).quays = d.quays := setFld_quays _ _ _
@[simp] theorem incSat_lev (d : Dev) (g : Fld) (n : Nat) : (incSat d g n).lev = d.lev := setFld_lev _ _ _
@[simp] theorem incSat_blu (d : Dev) (g : Fld) (n : Nat) : (incSat d g n).blu = d.blu := setFld_blu _ _ _
@[simp] theorem incSat_hms (d : Dev) (g : Fld) (n : Nat) : (incSat d g n).hms = d.hms := setFld_hms _ _ _
@[simp] theorem incSat_lbu (d : Dev) (g : Fld) (n : Nat) : (incSat d g n).lbu = d.lbu := setFld_lbu _ _ _
@[simp] theorem incSat_harbour (d : Dev) (g : Fld) (n : Nat) : (incSat d g n).harbour = d.harbour := setFld_harbour _ _ _
@[simp] theorem incSat_mmg (d : Dev) (g : Fld) (n : Nat) : (incSat d g n).mmg = d.mmg := setFld_mmg _ _ _
@[simp] theorem incSat_fsa (d : Dev) (g : Fld) (n : Nat) : (incSat d g n).fsa = d.fsa := setFld_fsa _ _ _
@[simp] theorem incSat_dtc (d : Dev) (g : Fld) (n : Nat) : (incSat d g n).dtc = d.dtc := setFld_dtc _ _ _
@[simp] theorem incSat_coh (d : Dev) (g : Fld) (n : Nat) : (incSat d g n).coh = d.coh := setFld_coh _ _ _
@[simp] theorem incSat_memOut (d : Dev) (g : Fld) (n : Nat) : (incSat d g n).memOut = d.memOut := setFld_memOut _ _ _
@[simp] theorem incSat_launches (d : Dev) (g : Fld) (n : Nat) : (incSat d g n).launches = d.launches := setFld_launches _ _ _
@[simp] theorem incSat_freeCtr (d : Dev) (g : Fld) (n : Nat) : (incSat d g n).freeCtr = d.freeCtr := setFld_freeCtr _ _ _

@[simp] theorem setBit_now (d : Dev) (g : Fld) (i : Nat) : (setBit d g i).now = d.now := setFld_now _ _ _
@[simp] theorem setBit_tide (d : Dev) (g : Fld) (i : Nat) : (setBit d g i).tide = d.tide := setFld_tide _ _ _
@[simp] theorem setBit_scu (d : Dev) (g : Fld) (i : Nat) : (setBit d g i).scu = d.scu := setFld_scu _ _ _
@[simp] theorem setBit_hpu (d : Dev) (g : Fld) (i : Nat) : (setBit d g i).hpu = d.hpu := setFld_hpu _ _ _
@[simp] theorem setBit_btc (d : Dev) (g : Fld) (i : Nat) : (setBit d g i).btc = d.btc := setFld_btc _ _ _
@[simp] theorem setBit_mfu (d : Dev) (g : Fld) (i : Nat) : (setBit d g i).mfu = d.mfu := setFld_mfu _ _ _
@[simp] theorem setBit_plx (d : Dev) (g : Fld) (i : Nat) : (setBit d g i).plx = d.plx := setFld_plx _ _ _
@[simp] theorem setBit_cmds (d : Dev) (g : Fld) (i : Nat) : (setBit d g i).cmds = d.cmds := setFld_cmds _ _ _
@[simp] theorem setBit_seqs (d : Dev) (g : Fld) (i : Nat) : (setBit d g i).seqs = d.seqs := setFld_seqs _ _ _
@[simp] theorem setBit_quays (d : Dev) (g : Fld) (i : Nat) : (setBit d g i).quays = d.quays := setFld_quays _ _ _
@[simp] theorem setBit_lev (d : Dev) (g : Fld) (i : Nat) : (setBit d g i).lev = d.lev := setFld_lev _ _ _
@[simp] theorem setBit_blu (d : Dev) (g : Fld) (i : Nat) : (setBit d g i).blu = d.blu := setFld_blu _ _ _
@[simp] theorem setBit_hms (d : Dev) (g : Fld) (i : Nat) : (setBit d g i).hms = d.hms := setFld_hms _ _ _
@[simp] theorem setBit_lbu (d : Dev) (g : Fld) (i : Nat) : (setBit d g i).lbu = d.lbu := setFld_lbu _ _ _
@[simp] theorem setBit_harbour (d : Dev) (g : Fld) (i : Nat) : (setBit d g i).harbour = d.harbour := setFld_harbour _ _ _
@[simp] theorem setBit_mmg (d : Dev) (g : Fld) (i : Nat) : (setBit d g i).mmg = d.mmg := setFld_mmg _ _ _
@[simp] theorem setBit_fsa (d : Dev) (g : Fld) (i : Nat) : (setBit d g i).fsa = d.fsa := setFld_fsa _ _ _
@[simp] theorem setBit_dtc (d : Dev) (g : Fld) (i : Nat) : (setBit d g i).dtc = d.dtc := setFld_dtc _ _ _
@[simp] theorem setBit_coh (d : Dev) (g : Fld) (i : Nat) : (setBit d g i).coh = d.coh := setFld_coh _ _ _
@[simp] theorem setBit_memOut (d : Dev) (g : Fld) (i : Nat) : (setBit d g i).memOut = d.memOut := setFld_memOut _ _ _
@[simp] theorem setBit_launches (d : Dev) (g : Fld) (i : Nat) : (setBit d g i).launches = d.launches := setFld_launches _ _ _
@[simp] theorem setBit_freeCtr (d : Dev) (g : Fld) (i : Nat) : (setBit d g i).freeCtr = d.freeCtr := setFld_freeCtr _ _ _

@[simp] theorem clrBit_now (d : Dev) (g : Fld) (i : Nat) : (clrBit d g i).now = d.now := setFld_now _ _ _
@[simp] theorem clrBit_tide (d : Dev) (g : Fld) (i : Nat) : (clrBit d g i).tide = d.tide := setFld_tide _ _ _
@[simp] theorem clrBit_scu (d : Dev) (g : Fld) (i : Nat) : (clrBit d g i).scu = d.scu := setFld_scu _ _ _
@[simp] theorem clrBit_hpu (d : Dev) (g : Fld) (i : Nat) : (clrBit d g i).hpu = d.hpu := setFld_hpu _ _ _
@[simp] theorem clrBit_btc (d : Dev) (g : Fld) (i : Nat) : (clrBit d g i).btc = d.btc := setFld_btc _ _ _
@[simp] theorem clrBit_mfu (d : Dev) (g : Fld) (i : Nat) : (clrBit d g i).mfu = d.mfu := setFld_mfu _ _ _
@[simp] theorem clrBit_plx (d : Dev) (g : Fld) (i : Nat) : (clrBit d g i).plx = d.plx := setFld_plx _ _ _
@[simp] theorem clrBit_cmds (d : Dev) (g : Fld) (i : Nat) : (clrBit d g i).cmds = d.cmds := setFld_cmds _ _ _
@[simp] theorem clrBit_seqs (d : Dev) (g : Fld) (i : Nat) : (clrBit d g i).seqs = d.seqs := setFld_seqs _ _ _
@[simp] theorem clrBit_quays (d : Dev) (g : Fld) (i : Nat) : (clrBit d g i).quays = d.quays := setFld_quays _ _ _
@[simp] theorem clrBit_lev (d : Dev) (g : Fld) (i : Nat) : (clrBit d g i).lev = d.lev := setFld_lev _ _ _
@[simp] theorem clrBit_blu (d : Dev) (g : Fld) (i : Nat) : (clrBit d g i).blu = d.blu := setFld_blu _ _ _
@[simp] theorem clrBit_hms (d : Dev) (g : Fld) (i : Nat) : (clrBit d g i).hms = d.hms := setFld_hms _ _ _
@[simp] theorem clrBit_lbu (d : Dev) (g : Fld) (i : Nat) : (clrBit d g i).lbu = d.lbu := setFld_lbu _ _ _
@[simp] theorem clrBit_harbour (d : Dev) (g : Fld) (i : Nat) : (clrBit d g i).harbour = d.harbour := setFld_harbour _ _ _
@[simp] theorem clrBit_mmg (d : Dev) (g : Fld) (i : Nat) : (clrBit d g i).mmg = d.mmg := setFld_mmg _ _ _
@[simp] theorem clrBit_fsa (d : Dev) (g : Fld) (i : Nat) : (clrBit d g i).fsa = d.fsa := setFld_fsa _ _ _
@[simp] theorem clrBit_dtc (d : Dev) (g : Fld) (i : Nat) : (clrBit d g i).dtc = d.dtc := setFld_dtc _ _ _
@[simp] theorem clrBit_coh (d : Dev) (g : Fld) (i : Nat) : (clrBit d g i).coh = d.coh := setFld_coh _ _ _
@[simp] theorem clrBit_memOut (d : Dev) (g : Fld) (i : Nat) : (clrBit d g i).memOut = d.memOut := setFld_memOut _ _ _
@[simp] theorem clrBit_launches (d : Dev) (g : Fld) (i : Nat) : (clrBit d g i).launches = d.launches := setFld_launches _ _ _
@[simp] theorem clrBit_freeCtr (d : Dev) (g : Fld) (i : Nat) : (clrBit d g i).freeCtr = d.freeCtr := setFld_freeCtr _ _ _

@[simp] theorem countRefused_now (d : Dev) : (countRefused d).now = d.now := incSat_now _ _ _
@[simp] theorem countRefused_tide (d : Dev) : (countRefused d).tide = d.tide := incSat_tide _ _ _
@[simp] theorem countRefused_scu (d : Dev) : (countRefused d).scu = d.scu := incSat_scu _ _ _
@[simp] theorem countRefused_hpu (d : Dev) : (countRefused d).hpu = d.hpu := incSat_hpu _ _ _
@[simp] theorem countRefused_btc (d : Dev) : (countRefused d).btc = d.btc := incSat_btc _ _ _
@[simp] theorem countRefused_mfu (d : Dev) : (countRefused d).mfu = d.mfu := incSat_mfu _ _ _
@[simp] theorem countRefused_plx (d : Dev) : (countRefused d).plx = d.plx := incSat_plx _ _ _
@[simp] theorem countRefused_cmds (d : Dev) : (countRefused d).cmds = d.cmds := incSat_cmds _ _ _
@[simp] theorem countRefused_seqs (d : Dev) : (countRefused d).seqs = d.seqs := incSat_seqs _ _ _
@[simp] theorem countRefused_quays (d : Dev) : (countRefused d).quays = d.quays := incSat_quays _ _ _
@[simp] theorem countRefused_lev (d : Dev) : (countRefused d).lev = d.lev := incSat_lev _ _ _
@[simp] theorem countRefused_blu (d : Dev) : (countRefused d).blu = d.blu := incSat_blu _ _ _
@[simp] theorem countRefused_hms (d : Dev) : (countRefused d).hms = d.hms := incSat_hms _ _ _
@[simp] theorem countRefused_lbu (d : Dev) : (countRefused d).lbu = d.lbu := incSat_lbu _ _ _
@[simp] theorem countRefused_harbour (d : Dev) : (countRefused d).harbour = d.harbour := incSat_harbour _ _ _
@[simp] theorem countRefused_mmg (d : Dev) : (countRefused d).mmg = d.mmg := incSat_mmg _ _ _
@[simp] theorem countRefused_fsa (d : Dev) : (countRefused d).fsa = d.fsa := incSat_fsa _ _ _
@[simp] theorem countRefused_dtc (d : Dev) : (countRefused d).dtc = d.dtc := incSat_dtc _ _ _
@[simp] theorem countRefused_coh (d : Dev) : (countRefused d).coh = d.coh := incSat_coh _ _ _
@[simp] theorem countRefused_memOut (d : Dev) : (countRefused d).memOut = d.memOut := incSat_memOut _ _ _
@[simp] theorem countRefused_launches (d : Dev) : (countRefused d).launches = d.launches := incSat_launches _ _ _
@[simp] theorem countRefused_freeCtr (d : Dev) : (countRefused d).freeCtr = d.freeCtr := incSat_freeCtr _ _ _

@[simp] theorem raiseEvent_now (d : Dev) (p e : Nat) : (raiseEvent d p e).now = d.now := by simp only [raiseEvent, apply_ite Dev.now, setBit_now, ite_self]
@[simp] theorem raiseEvent_tide (d : Dev) (p e : Nat) : (raiseEvent d p e).tide = d.tide := by simp only [raiseEvent, apply_ite Dev.tide, setBit_tide, ite_self]
@[simp] theorem raiseEvent_scu (d : Dev) (p e : Nat) : (raiseEvent d p e).scu = d.scu := by simp only [raiseEvent, apply_ite Dev.scu, setBit_scu, ite_self]
@[simp] theorem raiseEvent_hpu (d : Dev) (p e : Nat) : (raiseEvent d p e).hpu = d.hpu := by simp only [raiseEvent, apply_ite Dev.hpu, setBit_hpu, ite_self]
@[simp] theorem raiseEvent_btc (d : Dev) (p e : Nat) : (raiseEvent d p e).btc = d.btc := by simp only [raiseEvent, apply_ite Dev.btc, setBit_btc, ite_self]
@[simp] theorem raiseEvent_mfu (d : Dev) (p e : Nat) : (raiseEvent d p e).mfu = d.mfu := by simp only [raiseEvent, apply_ite Dev.mfu, setBit_mfu, ite_self]
@[simp] theorem raiseEvent_plx (d : Dev) (p e : Nat) : (raiseEvent d p e).plx = d.plx := by simp only [raiseEvent, apply_ite Dev.plx, setBit_plx, ite_self]
@[simp] theorem raiseEvent_cmds (d : Dev) (p e : Nat) : (raiseEvent d p e).cmds = d.cmds := by simp only [raiseEvent, apply_ite Dev.cmds, setBit_cmds, ite_self]
@[simp] theorem raiseEvent_seqs (d : Dev) (p e : Nat) : (raiseEvent d p e).seqs = d.seqs := by simp only [raiseEvent, apply_ite Dev.seqs, setBit_seqs, ite_self]
@[simp] theorem raiseEvent_quays (d : Dev) (p e : Nat) : (raiseEvent d p e).quays = d.quays := by simp only [raiseEvent, apply_ite Dev.quays, setBit_quays, ite_self]
@[simp] theorem raiseEvent_lev (d : Dev) (p e : Nat) : (raiseEvent d p e).lev = d.lev := by simp only [raiseEvent, apply_ite Dev.lev, setBit_lev, ite_self]
@[simp] theorem raiseEvent_blu (d : Dev) (p e : Nat) : (raiseEvent d p e).blu = d.blu := by simp only [raiseEvent, apply_ite Dev.blu, setBit_blu, ite_self]
@[simp] theorem raiseEvent_hms (d : Dev) (p e : Nat) : (raiseEvent d p e).hms = d.hms := by simp only [raiseEvent, apply_ite Dev.hms, setBit_hms, ite_self]
@[simp] theorem raiseEvent_lbu (d : Dev) (p e : Nat) : (raiseEvent d p e).lbu = d.lbu := by simp only [raiseEvent, apply_ite Dev.lbu, setBit_lbu, ite_self]
@[simp] theorem raiseEvent_harbour (d : Dev) (p e : Nat) : (raiseEvent d p e).harbour = d.harbour := by simp only [raiseEvent, apply_ite Dev.harbour, setBit_harbour, ite_self]
@[simp] theorem raiseEvent_mmg (d : Dev) (p e : Nat) : (raiseEvent d p e).mmg = d.mmg := by simp only [raiseEvent, apply_ite Dev.mmg, setBit_mmg, ite_self]
@[simp] theorem raiseEvent_fsa (d : Dev) (p e : Nat) : (raiseEvent d p e).fsa = d.fsa := by simp only [raiseEvent, apply_ite Dev.fsa, setBit_fsa, ite_self]
@[simp] theorem raiseEvent_dtc (d : Dev) (p e : Nat) : (raiseEvent d p e).dtc = d.dtc := by simp only [raiseEvent, apply_ite Dev.dtc, setBit_dtc, ite_self]
@[simp] theorem raiseEvent_coh (d : Dev) (p e : Nat) : (raiseEvent d p e).coh = d.coh := by simp only [raiseEvent, apply_ite Dev.coh, setBit_coh, ite_self]
@[simp] theorem raiseEvent_memOut (d : Dev) (p e : Nat) : (raiseEvent d p e).memOut = d.memOut := by simp only [raiseEvent, apply_ite Dev.memOut, setBit_memOut, ite_self]
@[simp] theorem raiseEvent_launches (d : Dev) (p e : Nat) : (raiseEvent d p e).launches = d.launches := by simp only [raiseEvent, apply_ite Dev.launches, setBit_launches, ite_self]
@[simp] theorem raiseEvent_freeCtr (d : Dev) (p e : Nat) : (raiseEvent d p e).freeCtr = d.freeCtr := by simp only [raiseEvent, apply_ite Dev.freeCtr, setBit_freeCtr, ite_self]

@[simp] theorem logErr_now (d : Dev) (p cls code addr : Nat) : (logErr d p cls code addr).now = d.now := by simp only [logErr, apply_ite Dev.now, incSat_now, setFld_now, raiseEvent_now, ite_self]
@[simp] theorem logErr_tide (d : Dev) (p cls code addr : Nat) : (logErr d p cls code addr).tide = d.tide := by simp only [logErr, apply_ite Dev.tide, incSat_tide, setFld_tide, raiseEvent_tide, ite_self]
@[simp] theorem logErr_scu (d : Dev) (p cls code addr : Nat) : (logErr d p cls code addr).scu = d.scu := by simp only [logErr, apply_ite Dev.scu, incSat_scu, setFld_scu, raiseEvent_scu, ite_self]
@[simp] theorem logErr_hpu (d : Dev) (p cls code addr : Nat) : (logErr d p cls code addr).hpu = d.hpu := by simp only [logErr, apply_ite Dev.hpu, incSat_hpu, setFld_hpu, raiseEvent_hpu, ite_self]
@[simp] theorem logErr_btc (d : Dev) (p cls code addr : Nat) : (logErr d p cls code addr).btc = d.btc := by simp only [logErr, apply_ite Dev.btc, incSat_btc, setFld_btc, raiseEvent_btc, ite_self]
@[simp] theorem logErr_mfu (d : Dev) (p cls code addr : Nat) : (logErr d p cls code addr).mfu = d.mfu := by simp only [logErr, apply_ite Dev.mfu, incSat_mfu, setFld_mfu, raiseEvent_mfu, ite_self]
@[simp] theorem logErr_plx (d : Dev) (p cls code addr : Nat) : (logErr d p cls code addr).plx = d.plx := by simp only [logErr, apply_ite Dev.plx, incSat_plx, setFld_plx, raiseEvent_plx, ite_self]
@[simp] theorem logErr_cmds (d : Dev) (p cls code addr : Nat) : (logErr d p cls code addr).cmds = d.cmds := by simp only [logErr, apply_ite Dev.cmds, incSat_cmds, setFld_cmds, raiseEvent_cmds, ite_self]
@[simp] theorem logErr_seqs (d : Dev) (p cls code addr : Nat) : (logErr d p cls code addr).seqs = d.seqs := by simp only [logErr, apply_ite Dev.seqs, incSat_seqs, setFld_seqs, raiseEvent_seqs, ite_self]
@[simp] theorem logErr_quays (d : Dev) (p cls code addr : Nat) : (logErr d p cls code addr).quays = d.quays := by simp only [logErr, apply_ite Dev.quays, incSat_quays, setFld_quays, raiseEvent_quays, ite_self]
@[simp] theorem logErr_lev (d : Dev) (p cls code addr : Nat) : (logErr d p cls code addr).lev = d.lev := by simp only [logErr, apply_ite Dev.lev, incSat_lev, setFld_lev, raiseEvent_lev, ite_self]
@[simp] theorem logErr_blu (d : Dev) (p cls code addr : Nat) : (logErr d p cls code addr).blu = d.blu := by simp only [logErr, apply_ite Dev.blu, incSat_blu, setFld_blu, raiseEvent_blu, ite_self]
@[simp] theorem logErr_hms (d : Dev) (p cls code addr : Nat) : (logErr d p cls code addr).hms = d.hms := by simp only [logErr, apply_ite Dev.hms, incSat_hms, setFld_hms, raiseEvent_hms, ite_self]
@[simp] theorem logErr_lbu (d : Dev) (p cls code addr : Nat) : (logErr d p cls code addr).lbu = d.lbu := by simp only [logErr, apply_ite Dev.lbu, incSat_lbu, setFld_lbu, raiseEvent_lbu, ite_self]
@[simp] theorem logErr_harbour (d : Dev) (p cls code addr : Nat) : (logErr d p cls code addr).harbour = d.harbour := by simp only [logErr, apply_ite Dev.harbour, incSat_harbour, setFld_harbour, raiseEvent_harbour, ite_self]
@[simp] theorem logErr_mmg (d : Dev) (p cls code addr : Nat) : (logErr d p cls code addr).mmg = d.mmg := by simp only [logErr, apply_ite Dev.mmg, incSat_mmg, setFld_mmg, raiseEvent_mmg, ite_self]
@[simp] theorem logErr_fsa (d : Dev) (p cls code addr : Nat) : (logErr d p cls code addr).fsa = d.fsa := by simp only [logErr, apply_ite Dev.fsa, incSat_fsa, setFld_fsa, raiseEvent_fsa, ite_self]
@[simp] theorem logErr_dtc (d : Dev) (p cls code addr : Nat) : (logErr d p cls code addr).dtc = d.dtc := by simp only [logErr, apply_ite Dev.dtc, incSat_dtc, setFld_dtc, raiseEvent_dtc, ite_self]
@[simp] theorem logErr_coh (d : Dev) (p cls code addr : Nat) : (logErr d p cls code addr).coh = d.coh := by simp only [logErr, apply_ite Dev.coh, incSat_coh, setFld_coh, raiseEvent_coh, ite_self]
@[simp] theorem logErr_memOut (d : Dev) (p cls code addr : Nat) : (logErr d p cls code addr).memOut = d.memOut := by simp only [logErr, apply_ite Dev.memOut, incSat_memOut, setFld_memOut, raiseEvent_memOut, ite_self]
@[simp] theorem logErr_launches (d : Dev) (p cls code addr : Nat) : (logErr d p cls code addr).launches = d.launches := by simp only [logErr, apply_ite Dev.launches, incSat_launches, setFld_launches, raiseEvent_launches, ite_self]
@[simp] theorem logErr_freeCtr (d : Dev) (p cls code addr : Nat) : (logErr d p cls code addr).freeCtr = d.freeCtr := by simp only [logErr, apply_ite Dev.freeCtr, incSat_freeCtr, setFld_freeCtr, raiseEvent_freeCtr, ite_self]

@[simp] theorem memErr_now (d : Dev) (p : Nat) (r : MemResp) (addr : Nat) : (memErr d p r addr).now = d.now := by simp only [memErr, apply_ite Dev.now, logErr_now, ite_self]
@[simp] theorem memErr_tide (d : Dev) (p : Nat) (r : MemResp) (addr : Nat) : (memErr d p r addr).tide = d.tide := by simp only [memErr, apply_ite Dev.tide, logErr_tide, ite_self]
@[simp] theorem memErr_scu (d : Dev) (p : Nat) (r : MemResp) (addr : Nat) : (memErr d p r addr).scu = d.scu := by simp only [memErr, apply_ite Dev.scu, logErr_scu, ite_self]
@[simp] theorem memErr_hpu (d : Dev) (p : Nat) (r : MemResp) (addr : Nat) : (memErr d p r addr).hpu = d.hpu := by simp only [memErr, apply_ite Dev.hpu, logErr_hpu, ite_self]
@[simp] theorem memErr_btc (d : Dev) (p : Nat) (r : MemResp) (addr : Nat) : (memErr d p r addr).btc = d.btc := by simp only [memErr, apply_ite Dev.btc, logErr_btc, ite_self]
@[simp] theorem memErr_mfu (d : Dev) (p : Nat) (r : MemResp) (addr : Nat) : (memErr d p r addr).mfu = d.mfu := by simp only [memErr, apply_ite Dev.mfu, logErr_mfu, ite_self]
@[simp] theorem memErr_plx (d : Dev) (p : Nat) (r : MemResp) (addr : Nat) : (memErr d p r addr).plx = d.plx := by simp only [memErr, apply_ite Dev.plx, logErr_plx, ite_self]
@[simp] theorem memErr_cmds (d : Dev) (p : Nat) (r : MemResp) (addr : Nat) : (memErr d p r addr).cmds = d.cmds := by simp only [memErr, apply_ite Dev.cmds, logErr_cmds, ite_self]
@[simp] theorem memErr_seqs (d : Dev) (p : Nat) (r : MemResp) (addr : Nat) : (memErr d p r addr).seqs = d.seqs := by simp only [memErr, apply_ite Dev.seqs, logErr_seqs, ite_self]
@[simp] theorem memErr_quays (d : Dev) (p : Nat) (r : MemResp) (addr : Nat) : (memErr d p r addr).quays = d.quays := by simp only [memErr, apply_ite Dev.quays, logErr_quays, ite_self]
@[simp] theorem memErr_lev (d : Dev) (p : Nat) (r : MemResp) (addr : Nat) : (memErr d p r addr).lev = d.lev := by simp only [memErr, apply_ite Dev.lev, logErr_lev, ite_self]
@[simp] theorem memErr_blu (d : Dev) (p : Nat) (r : MemResp) (addr : Nat) : (memErr d p r addr).blu = d.blu := by simp only [memErr, apply_ite Dev.blu, logErr_blu, ite_self]
@[simp] theorem memErr_hms (d : Dev) (p : Nat) (r : MemResp) (addr : Nat) : (memErr d p r addr).hms = d.hms := by simp only [memErr, apply_ite Dev.hms, logErr_hms, ite_self]
@[simp] theorem memErr_lbu (d : Dev) (p : Nat) (r : MemResp) (addr : Nat) : (memErr d p r addr).lbu = d.lbu := by simp only [memErr, apply_ite Dev.lbu, logErr_lbu, ite_self]
@[simp] theorem memErr_harbour (d : Dev) (p : Nat) (r : MemResp) (addr : Nat) : (memErr d p r addr).harbour = d.harbour := by simp only [memErr, apply_ite Dev.harbour, logErr_harbour, ite_self]
@[simp] theorem memErr_mmg (d : Dev) (p : Nat) (r : MemResp) (addr : Nat) : (memErr d p r addr).mmg = d.mmg := by simp only [memErr, apply_ite Dev.mmg, logErr_mmg, ite_self]
@[simp] theorem memErr_fsa (d : Dev) (p : Nat) (r : MemResp) (addr : Nat) : (memErr d p r addr).fsa = d.fsa := by simp only [memErr, apply_ite Dev.fsa, logErr_fsa, ite_self]
@[simp] theorem memErr_dtc (d : Dev) (p : Nat) (r : MemResp) (addr : Nat) : (memErr d p r addr).dtc = d.dtc := by simp only [memErr, apply_ite Dev.dtc, logErr_dtc, ite_self]
@[simp] theorem memErr_coh (d : Dev) (p : Nat) (r : MemResp) (addr : Nat) : (memErr d p r addr).coh = d.coh := by simp only [memErr, apply_ite Dev.coh, logErr_coh, ite_self]
@[simp] theorem memErr_memOut (d : Dev) (p : Nat) (r : MemResp) (addr : Nat) : (memErr d p r addr).memOut = d.memOut := by simp only [memErr, apply_ite Dev.memOut, logErr_memOut, ite_self]
@[simp] theorem memErr_launches (d : Dev) (p : Nat) (r : MemResp) (addr : Nat) : (memErr d p r addr).launches = d.launches := by simp only [memErr, apply_ite Dev.launches, logErr_launches, ite_self]
@[simp] theorem memErr_freeCtr (d : Dev) (p : Nat) (r : MemResp) (addr : Nat) : (memErr d p r addr).freeCtr = d.freeCtr := by simp only [memErr, apply_ite Dev.freeCtr, logErr_freeCtr, ite_self]

end Sys2Proof.Machine
end

