-- ==== Sys2Proof/Laws/Units.lean ====
section
/-!
SUPPORT. What the shared operations of Machine/Ops.lean do, once each: a command at a unit that is awake, changes of registers
alone, events, error capture, and tables and lists of units.
-/

namespace Sys2Proof.Machine

/-! ### A command at its unit -/

theorem awake_wake {d : Dev} {u : Nat} (h : awake d u = true) : wakeUnit d u = d := by
  simp only [awake, Bool.and_eq_true, Bool.not_eq_true', decide_eq_false_iff_not] at h
  exact wakeUnit_awake h.1.2 h.2

theorem awake_run {d : Dev} {u : Nat} (h : awake d u = true) : inReset d u = false := by
  simp only [awake, Bool.and_eq_true, Bool.not_eq_true', decide_eq_false_iff_not] at h
  exact h.1.1

/-- A command of a unit that is awake does exactly what its meaning says. -/
theorem onUnit_awake {u : Nat} (f : Dev → Dev) {s : State} (h : awake s.dev u = true) :
    onUnit u f s = .next { s with dev := f s.dev } := by
  rw [onUnit_running f (awake_run h), awake_wake h]

/-- Whatever a command of a unit answers is a next state, with the queue as it was. -/
theorem onUnit_next (u : Nat) (f : Dev → Dev) (s : State) :
    ∃ e, onUnit u f s = .next { s with dev := e } := ⟨_, rfl⟩

/-- The SCU's rows in every power state (R326, R338). -/
theorem onUnit_scu (f : Dev → Dev) {s : State} (h1 : s.dev.scu.up = true) (h2 : fbit s.dev fDozing 13 = false) :
    onUnit 13 f s = .next { s with dev := f s.dev } := by
  have hr : inReset s.dev 13 = false := by simp [inReset, h1]
  have hw : wakeUnit s.dev 13 = s.dev := by simp [wakeUnit, h2]
  rw [onUnit_running f hr, hw]

/-! ### Registers alone -/

theorem onlyRegs_refl (d : Dev) : onlyRegs d d := rfl

theorem onlyRegs_trans {a b c : Dev} (h1 : onlyRegs a b) (h2 : onlyRegs b c) : onlyRegs a c := by
  unfold onlyRegs at *
  rw [← h1, ← h2]

theorem onlyRegs_setReg (d : Dev) (p off : Nat) (w : W64) : onlyRegs d (setReg d p off w) := rfl
theorem onlyRegs_setFld (d : Dev) (f : Fld) (v : Nat) : onlyRegs d (setFld d f v) := rfl
theorem onlyRegs_incSat (d : Dev) (f : Fld) (n : Nat) : onlyRegs d (incSat d f n) := rfl
theorem onlyRegs_incWrap (d : Dev) (f : Fld) (n : Nat) : onlyRegs d (incWrap d f n) := rfl

theorem onlyRegs_raiseEvent (d : Dev) (p e : Nat) : onlyRegs d (raiseEvent d p e) := by
  unfold raiseEvent
  split
  · exact onlyRegs_setFld _ _ _
  · rfl

theorem onlyRegs_step {d e : Dev} (h : onlyRegs d e) (f : Fld) (v : Nat) : onlyRegs d (setFld e f v) :=
  onlyRegs_trans h (onlyRegs_setFld e f v)

theorem onlyRegs_logFirst (d : Dev) (p c k a : Nat) :
    onlyRegs d (setFld (setFld (setFld (setFld (setFld d (fErrClass p) c) (fErrCode p) k) (fErrAddr p) a) (fErrValid p) 1)
      (fErrCount p) 1) :=
  onlyRegs_step (onlyRegs_step (onlyRegs_step (onlyRegs_step (onlyRegs_setFld d _ _) _ _) _ _) _ _) _ _

theorem onlyRegs_logAgain (d : Dev) (p : Nat) : onlyRegs d (incSat (setFld d (fErrOverrun p) 1) (fErrCount p)) := by
  unfold incSat
  exact onlyRegs_step (onlyRegs_setFld d _ _) _ _

theorem onlyRegs_logErr (d : Dev) (p c k a : Nat) : onlyRegs d (logErr d p c k a) := by
  unfold logErr
  split
  · exact onlyRegs_logAgain d p
  · dsimp only
    split
    · exact onlyRegs_trans (onlyRegs_logFirst d p c k a) (onlyRegs_raiseEvent _ _ _)
    · exact onlyRegs_logFirst d p c k a

theorem onlyRegs_wakeUnit (d : Dev) (u : Nat) : onlyRegs d (wakeUnit d u) := by
  have hr : onlyRegs d (retainWakeOp d) := by
    unfold retainWakeOp
    split
    · exact onlyRegs_trans (onlyRegs_step (onlyRegs_step (onlyRegs_setFld d _ _) _ _) _ _) (onlyRegs_raiseEvent _ _ _)
    · rfl
  simp only [wakeUnit, clrBit]
  repeat' split
  all_goals first | exact onlyRegs_step hr _ _ | exact hr | exact onlyRegs_setFld _ _ _ | rfl

theorem onlyRegs_countRefused (d : Dev) : onlyRegs d (countRefused d) := by
  unfold countRefused
  exact onlyRegs_incSat _ _ _

/-! ### Masks held as numbers -/

theorem nbit_eq_testBit (m i : Nat) : nbit m i = m.testBit i := by
  simp [nbit, Nat.testBit_eq_decide_div_mod_eq]

/-! ### Lists of a fixed number of units -/

@[simp] theorem length_modAt {α : Type} (l : List α) (i : Nat) (f : α → α) : (modAt l i f).length = l.length := by
  simp [modAt]

theorem at'_modAt_same {α : Type} (v : α) (l : List α) {i : Nat} (f : α → α) (h : i < l.length) :
    at' v (modAt l i f) i = f (at' v l i) := by
  simp [at', modAt, List.getD, h]

theorem at'_modAt_ne {α : Type} (v : α) (l : List α) {i j : Nat} (f : α → α) (h : i ≠ j) :
    at' v (modAt l i f) j = at' v l j := by
  simp [at', modAt, List.getD, h]

/-! ### Outcomes of commands -/

/-- An outcome of a command that acts on the block alone: a next state with the queue as it was, or the one refusal. -/
def keepsQueue (s : State) (o : Host.Outcome State Fault Refusal) : Prop :=
  (∃ e, o = .next { s with dev := e }) ∨ o = .refused .reservedOperand

theorem keepsQueue_onUnit (u : Nat) (f : Dev → Dev) (s : State) : keepsQueue s (onUnit u f s) := .inl ⟨_, rfl⟩
theorem keepsQueue_onDev (f : Dev → Dev) (s : State) : keepsQueue s (onDev f s) := .inl ⟨_, rfl⟩
theorem keepsQueue_reservedOp (s : State) : keepsQueue s reservedOp := .inr rfl

end Sys2Proof.Machine
end

