-- ==== Sys2Proof/Laws/Form.lean ====
section
/-!
SUPPORT. The shared operations of Machine/Ops.lean keep the form of the block (`Dev.wf`): the register table stays canonical and the
units keep their number. One lemma per operation; a loop keeps the form when its body does.
-/

namespace Sys2Proof.Machine

/-- The form is the canonical register table and four lengths. -/
theorem wf_def (d : Dev) : d.wf = (regsOk d.regs && unitsOk d) := rfl

/-- Two blocks with the same registers and as many units of each kind have the form together. -/
theorem wf_congr {d e : Dev} (hr : e.regs = d.regs) (hs : e.seqs.length = d.seqs.length) (hq : e.quays.length = d.quays.length)
    (hl : e.fsa.links.length = d.fsa.links.length) (hp : e.dtc.pilots.length = d.dtc.pilots.length) : e.wf = d.wf := by
  simp only [Dev.wf, unitsOk, hr, hs, hq, hl, hp]

/-! ### Parts of the block in which the form has no share -/

@[simp] theorem wf_modScu (d : Dev) (f : Scu → Scu) : (modScu d f).wf = d.wf := rfl
@[simp] theorem wf_modHpu (d : Dev) (f : Hpu → Hpu) : (modHpu d f).wf = d.wf := rfl
@[simp] theorem wf_modBtc (d : Dev) (f : Btc → Btc) : (modBtc d f).wf = d.wf := rfl
@[simp] theorem wf_modMfu (d : Dev) (f : Mfu → Mfu) : (modMfu d f).wf = d.wf := rfl
@[simp] theorem wf_modPlx (d : Dev) (f : Plx → Plx) : (modPlx d f).wf = d.wf := rfl
@[simp] theorem wf_modLev (d : Dev) (f : Lev → Lev) : (modLev d f).wf = d.wf := rfl
@[simp] theorem wf_modBlu (d : Dev) (f : Blu → Blu) : (modBlu d f).wf = d.wf := rfl
@[simp] theorem wf_modHms (d : Dev) (f : Hms → Hms) : (modHms d f).wf = d.wf := rfl
@[simp] theorem wf_modLbu (d : Dev) (f : Lbu → Lbu) : (modLbu d f).wf = d.wf := rfl
@[simp] theorem wf_modMmg (d : Dev) (f : Mmg → Mmg) : (modMmg d f).wf = d.wf := rfl
@[simp] theorem wf_modCoh (d : Dev) (f : Coh → Coh) : (modCoh d f).wf = d.wf := rfl
@[simp] theorem wf_memReq (d : Dev) (r : MemReq) : (memReq d r).wf = d.wf := rfl
@[simp] theorem wf_harbourWrite (d : Dev) (a : Nat) (ws : List W64) : (harbourWrite d a ws).wf = d.wf := by
  simp only [harbourWrite, List.foldl_cons, List.foldl_nil]
  repeat' split
  all_goals rfl
@[simp] theorem wf_harbourRead (d : Dev) (a : Nat) : (harbourRead d a).wf = d.wf := rfl
@[simp] theorem wf_putCmd (d : Dev) (c : Cmd) : (putCmd d c).wf = d.wf := rfl
@[simp] theorem wf_modCmd (d : Dev) (k : CmdId) (f : Cmd → Cmd) : (modCmd d k f).wf = d.wf := rfl
@[simp] theorem wf_modCtx (d : Dev) (i : Nat) (f : CtxRec → CtxRec) : (modCtx d i f).wf = d.wf := rfl
@[simp] theorem wf_modBerth (d : Dev) (i : Nat) (f : BerthRec → BerthRec) : (modBerth d i f).wf = d.wf := rfl
@[simp] theorem wf_modBol (d : Dev) (i : Nat) (f : BolRec → BolRec) : (modBol d i f).wf = d.wf := rfl
@[simp] theorem wf_count (d : Dev) (set inst n k : Nat) : (count d set inst n k).wf = d.wf := rfl
@[simp] theorem wf_countCmd (d : Dev) (b n k : Nat) : (countCmd d b n k).wf = d.wf := rfl

/-! ### Parts of the block that hold units of a fixed number -/

theorem wf_modFsa (d : Dev) {f : Fsa → Fsa} (h : (f d.fsa).links.length = d.fsa.links.length) : (modFsa d f).wf = d.wf :=
  wf_congr rfl rfl rfl h rfl

theorem wf_modDtc (d : Dev) {f : Dtc → Dtc} (h : (f d.dtc).pilots.length = d.dtc.pilots.length) : (modDtc d f).wf = d.wf :=
  wf_congr rfl rfl rfl rfl h

@[simp] theorem wf_modPilot (d : Dev) (p : Nat) (f : Pilot → Pilot) : (modPilot d p f).wf = d.wf :=
  wf_modDtc d (length_modAt _ _ _)

@[simp] theorem wf_modQuay (d : Dev) (q : Nat) (f : Quay → Quay) : (modQuay d q f).wf = d.wf :=
  wf_congr rfl rfl (length_modAt _ _ _) rfl rfl

@[simp] theorem wf_modSeq (d : Dev) (q : Nat) (f : Seqr → Seqr) : (modSeq d q f).wf = d.wf :=
  wf_congr rfl (length_modAt _ _ _) rfl rfl rfl

/-! ### Registers -/

theorem wf_setReg {d : Dev} (p off : Nat) (w : W64) (h : d.wf = true) : (setReg d p off w).wf = true := by
  simp only [Dev.wf, Bool.and_eq_true] at h ⊢
  exact ⟨twf_tset regDflt (regKey p off) w h.1, h.2⟩

theorem wf_setFld {d : Dev} (f : Fld) (v : Nat) (h : d.wf = true) : (setFld d f v).wf = true := wf_setReg _ _ _ h
theorem wf_incWrap {d : Dev} (f : Fld) (n : Nat) (h : d.wf = true) : (incWrap d f n).wf = true := wf_setFld _ _ h
theorem wf_incSat {d : Dev} (f : Fld) (n : Nat) (h : d.wf = true) : (incSat d f n).wf = true := wf_setFld _ _ h
theorem wf_setBit {d : Dev} (f : Fld) (i : Nat) (h : d.wf = true) : (setBit d f i).wf = true := wf_setFld _ _ h
theorem wf_clrBit {d : Dev} (f : Fld) (i : Nat) (h : d.wf = true) : (clrBit d f i).wf = true := wf_setFld _ _ h

theorem wf_raiseEvent {d : Dev} (p e : Nat) (h : d.wf = true) : (raiseEvent d p e).wf = true := by
  unfold raiseEvent
  split
  · exact wf_setBit _ _ h
  · exact h

theorem wf_logErr {d : Dev} (p c k a : Nat) (h : d.wf = true) : (logErr d p c k a).wf = true := by
  unfold logErr
  split
  · exact wf_incSat _ _ (wf_setFld _ _ h)
  · dsimp only
    split
    all_goals (repeat with_reducible first | exact h | apply wf_raiseEvent | apply wf_setFld)

theorem wf_memErr {d : Dev} (p : Nat) (r : MemResp) (a : Nat) (h : d.wf = true) : (memErr d p r a).wf = true := by
  unfold memErr
  split
  · exact h
  · exact wf_logErr _ _ _ _ h

theorem wf_countRefused {d : Dev} (h : d.wf = true) : (countRefused d).wf = true := wf_incSat _ _ h

/-! ### Resets, machine checks, wakes -/

theorem wf_beginReset {d : Dev} (c i : Nat) (idle reload : Bool) (h : d.wf = true) :
    (beginReset d c i idle reload).wf = true := by
  simp only [beginReset]
  split
  · exact h
  · rw [wf_modScu]
    refine wf_incWrap _ _ (wf_setFld _ _ (wf_setFld _ _ (wf_setFld _ _ ?_)))
    repeat' split
    all_goals (repeat with_reducible first | exact h | apply wf_incSat | apply wf_raiseEvent | apply wf_setFld)

theorem wf_machineCheckAt {d : Dev} (p c k a : Nat) (fatal : Bool) (h : d.wf = true) :
    (machineCheckAt d p c k a fatal).wf = true := by
  simp only [machineCheckAt]
  repeat' split
  all_goals (repeat with_reducible first | exact h | apply wf_beginReset | apply wf_raiseEvent | apply wf_incSat | apply wf_setFld)

theorem wf_fatalCheck {d : Dev} (p k a : Nat) (h : d.wf = true) : (fatalCheck d p k a).wf = true :=
  wf_machineCheckAt _ _ _ _ _ (wf_logErr _ _ _ _ h)

theorem wf_retainWakeOp {d : Dev} (h : d.wf = true) : (retainWakeOp d).wf = true := by
  unfold retainWakeOp
  split
  · exact wf_raiseEvent _ _ (wf_setFld _ _ (wf_setFld _ _ (wf_setFld _ _ h)))
  · exact h

theorem wf_wakeUnit {d : Dev} (u : Nat) (h : d.wf = true) : (wakeUnit d u).wf = true := by
  simp only [wakeUnit]
  repeat' split
  all_goals (repeat with_reducible first | exact h | apply wf_clrBit | apply wf_retainWakeOp)

/-! ### Records, the journal, trace markers -/

@[simp] theorem wf_touch (d : Dev) (r : RecId) : (touch d r).wf = d.wf := by cases r <;> rfl

@[simp] theorem wf_askRecord (d : Dev) (r : RecId) : (askRecord d r).wf = d.wf := by
  unfold askRecord
  split <;> rfl

/-- A loop keeps the form when its body does. -/
theorem wf_foldl {α : Type} {f : Dev → α → Dev} (hf : ∀ d x, d.wf = true → (f d x).wf = true) (l : List α) {d : Dev}
    (h : d.wf = true) : (l.foldl f d).wf = true := by
  induction l generalizing d with
  | nil => exact h
  | cons x r ih => exact ih (hf d x h)

theorem wf_withRecs {d : Dev} (rs : List RecId) {f : Dev → Dev} (hf : ∀ e : Dev, e.wf = true → (f e).wf = true)
    (h : d.wf = true) : (withRecs d rs f).wf = true := by
  simp only [withRecs]
  split
  · exact hf _ (wf_foldl (fun d r hd => (wf_touch d r).trans hd) rs h)
  · exact wf_foldl (fun d r hd => (wf_askRecord d r).trans hd) _ h

theorem wf_withCmd {d : Dev} (k : CmdId) {f : Cmd → Dev} (hf : ∀ c, cmdAt d k = some c → (f c).wf = true) (h : d.wf = true) :
    (withCmd d k f).wf = true := by
  unfold withCmd
  split
  · rename_i c hc
    exact hf c hc
  · exact h

theorem wf_logGroup {d : Dev} (rs : List LogIn) (h : d.wf = true) : (logGroup d rs).wf = true := by
  simp only [logGroup, lowCheck]
  have hw := wf_foldl (f := fun d (u : LogUnit) => harbourWrite d (offUnit d.scu.cfg u.lsn) u.words)
    (fun e u he => (wf_harbourWrite e _ _).trans he) (groupUnits d.lbu.nextLsn rs) (wf_wakeUnit 10 h)
  repeat' split
  all_goals (repeat with_reducible first | exact hw | rw [wf_modLbu] | apply wf_raiseEvent)

theorem wf_logState {d : Dev} (t st hd : Nat) (h : d.wf = true) : (logState d t st hd).wf = true := wf_logGroup _ h
theorem wf_logBol {d : Dev} (b e : Nat) (v : W64) (r l t : Nat) (h : d.wf = true) : (logBol d b e v r l t).wf = true :=
  wf_logGroup _ h

theorem wf_marker {d : Dev} (k a : Nat) (h : d.wf = true) : (marker d k a).wf = true := by
  simp only [marker]
  repeat' split
  · exact h
  · exact wf_incSat _ _ h
  · exact h

/-! ### Commands -/

/-- Whatever a command of a unit answers keeps the form when its effect does. -/
theorem wf_onUnit {u : Nat} {f : Dev → Dev} {s t : State} (hf : ∀ d : Dev, d.wf = true → (f d).wf = true)
    (h : onUnit u f s = .next t) (hs : s.dev.wf = true) : t.dev.wf = true := by
  simp only [onUnit, onDev, Host.Outcome.next.injEq] at h
  subst h
  dsimp only
  split
  · exact hs
  · exact hf _ (wf_wakeUnit u hs)

theorem wf_onDev {f : Dev → Dev} {s t : State} (hf : ∀ d : Dev, d.wf = true → (f d).wf = true)
    (h : onDev f s = .next t) (hs : s.dev.wf = true) : t.dev.wf = true := by
  simp only [onDev, Host.Outcome.next.injEq] at h
  subst h
  exact hf _ hs

end Sys2Proof.Machine
end

