-- ==== Sys2Proof/Laws/PerInstr.lean ====
section
/-!
SUPPORT. For every command as syntax: a well-formed command names only links, quays, caching agents and islands that the manual
defines (02, R10, R38, R264). One lemma per constructor of Instr.
-/

namespace Sys2Proof.Laws.InRange

open Sys2Proof

/-- The links that a command names. -/
def links : Instr → List Nat
  | .enumToken l | .enumReply l | .census l | .route l | .isolate l | .linkDown l | .linkUp l
  | .fabricPacketReceive l _ _ | .tideSync l | .departureStamp l _ => [l.toNat]
  | .linkSessionKey sel _ => [(sel.extractLsb' 0 6).toNat, (sel.extractLsb' 6 6).toNat]
  | _ => []

/-- The quays that a command names. -/
def quays : Instr → List Nat
  | .reclaim q | .descriptorLaunch q | .completionPacket q _ | .drainRequest q _ | .drainDone q | .drainTimeout q
  | .quayClockStopped q | .quayClockReturn q | .revive q | .stallReport (.quay q) | .traceRecord (.quay q) => [q.toNat]
  | _ => []

/-- The caching agents that a command names. -/
def agents : Instr → List Nat
  | .rds x _ _ | .rdx x _ _ | .upg x _ _ | .wb x _ _ | .evc x _ _ | .wrpart x _ _ _ _ | .atm x _ _ _
  | .snoopResponse x _ | .pushAnswer x _ | .done x _ | .snps x _ | .snpx x _ | .inv x _ | .snpcur x _ | .push x _
  | .dataGrant x _ | .cmp x _ | .wrcmp x _ | .wback x _ | .atmrsp x _ => [x.toNat]
  | .protocolError m => [m.dst.toNat]
  | _ => []

/-- The islands that a command names. -/
def islands : Instr → List Nat
  | .clockFailure u | .parkEscalation u | .islandRelease u | .retainWake u | .dozeEntry u | .dozeWake u => [u.toNat]
  | _ => []

/-- A well-formed command names only units that exist. -/
def Statement (i : Instr) : Prop :=
  i.wellFormed = true →
    (∀ n ∈ links i, n < 48) ∧ (∀ n ∈ quays i, n < 56) ∧ (∀ n ∈ agents i, n < 12) ∧ ∀ n ∈ islands i, 1 ≤ n ∧ n ≤ 14

/-! ### By shape -/

theorem of_none {i : Instr} (h1 : links i = []) (h2 : quays i = []) (h3 : agents i = []) (h4 : islands i = []) : Statement i := by
  intro _
  simp [h1, h2, h3, h4]

theorem of_link {i : Instr} {l : BitVec 6} (h : i.wellFormed = linkOk l) (h1 : links i = [l.toNat]) (h2 : quays i = [])
    (h3 : agents i = []) (h4 : islands i = []) : Statement i := by
  intro hw
  rw [h, linkOk, decide_eq_true_eq] at hw
  simp [h1, h2, h3, h4, hw]

theorem of_quay {i : Instr} {q : BitVec 6} (h : i.wellFormed = quayOk q) (h1 : links i = []) (h2 : quays i = [q.toNat])
    (h3 : agents i = []) (h4 : islands i = []) : Statement i := by
  intro hw
  rw [h, quayOk, decide_eq_true_eq] at hw
  simp [h1, h2, h3, h4, hw]

theorem of_agent {i : Instr} {x : BitVec 4} (h : i.wellFormed = agentOk x) (h1 : links i = []) (h2 : quays i = [])
    (h3 : agents i = [x.toNat]) (h4 : islands i = []) : Statement i := by
  intro hw
  rw [h, agentOk, decide_eq_true_eq] at hw
  simp [h1, h2, h3, h4, hw]

theorem of_island {i : Instr} {u : BitVec 4} (h : i.wellFormed = islandOk u) (h1 : links i = []) (h2 : quays i = [])
    (h3 : agents i = []) (h4 : islands i = [u.toNat]) : Statement i := by
  intro hw
  rw [h, islandOk, Bool.and_eq_true, decide_eq_true_eq, decide_eq_true_eq] at hw
  simp [h1, h2, h3, h4, hw]

/-! ### One lemma per constructor -/

theorem registerWrite (addr : BitVec 57) (be : BitVec 64) (data : BitVec 64) : Statement (.registerWrite addr be data) := of_none rfl rfl rfl rfl
theorem apertureRead (addr : BitVec 57) (rid : BitVec 16) (tag : BitVec 10) : Statement (.apertureRead addr rid tag) := of_none rfl rfl rfl rfl
theorem doorbellWrite (addr : BitVec 57) (be : BitVec 64) (data : BitVec 128) : Statement (.doorbellWrite addr be data) := of_none rfl rfl rfl rfl
theorem doorbellCheck : Statement (.doorbellCheck) := of_none rfl rfl rfl rfl
theorem stashWrite (target : BitVec 2) (asid : BitVec 20) (addr : BitVec 57) (line : Line) : Statement (.stashWrite target asid addr line) := of_none rfl rfl rfl rfl
theorem quiesceRequest (page : BitVec 8) : Statement (.quiesceRequest page) := of_none rfl rfl rfl rfl
theorem quiesceRelease (page : BitVec 8) : Statement (.quiesceRelease page) := of_none rfl rfl rfl rfl
theorem unitQuiesced (page : BitVec 8) : Statement (.unitQuiesced page) := of_none rfl rfl rfl rfl
theorem winRead (w : BitVec 7) : Statement (.winRead w) := of_none rfl rfl rfl rfl
theorem winWrite (w : BitVec 7) : Statement (.winWrite w) := of_none rfl rfl rfl rfl
theorem winClear (w : BitVec 7) : Statement (.winClear w) := of_none rfl rfl rfl rfl
theorem windowCommandDone (w : BitVec 7) : Statement (.windowCommandDone w) := of_none rfl rfl rfl rfl
theorem teardownStop (ctx : BitVec 20) : Statement (.teardownStop ctx) := of_none rfl rfl rfl rfl
theorem teardownDone (ctx : BitVec 20) : Statement (.teardownDone ctx) := of_none rfl rfl rfl rfl
theorem abandonHoldEnd (bol : BitVec 24) : Statement (.abandonHoldEnd bol) := of_none rfl rfl rfl rfl
theorem berthDrained (berth : BitVec 22) : Statement (.berthDrained berth) := of_none rfl rfl rfl rfl
theorem recordFill (rec : RecId) (a b : MemResp) : Statement (.recordFill rec a b) := of_none rfl rfl rfl rfl
theorem berthWake : Statement (.berthWake) := of_none rfl rfl rfl rfl
theorem fetchWindow (berth : BitVec 22) : Statement (.fetchWindow berth) := of_none rfl rfl rfl rfl
theorem lineResponse (berth : BitVec 22) (idx : BitVec 32) (r : MemResp) (line : Line) : Statement (.lineResponse berth idx r line) := of_none rfl rfl rfl rfl
theorem idleCheck (berth : BitVec 22) : Statement (.idleCheck berth) := of_none rfl rfl rfl rfl
theorem fetchReply : Statement (.fetchReply) := of_none rfl rfl rfl rfl
theorem xcLookup : Statement (.xcLookup) := of_none rfl rfl rfl rfl
theorem xcHarbourAnswer (berth : BitVec 22) : Statement (.xcHarbourAnswer berth) := of_none rfl rfl rfl rfl
theorem translationDone (pilot : BitVec 3) : Statement (.translationDone pilot) := of_none rfl rfl rfl rfl
theorem translationRestart (pilot : BitVec 3) : Statement (.translationRestart pilot) := of_none rfl rfl rfl rfl
theorem xcFlush : Statement (.xcFlush) := of_none rfl rfl rfl rfl
theorem flushDone : Statement (.flushDone) := of_none rfl rfl rfl rfl
theorem csParityError (seq : BitVec 4) (kind : CsError) (addr : BitVec 12) : Statement (.csParityError seq kind addr) := of_none rfl rfl rfl rfl
theorem csReloadDone (seq : BitVec 4) : Statement (.csReloadDone seq) := of_none rfl rfl rfl rfl
theorem acceptRequest : Statement (.acceptRequest) := of_none rfl rfl rfl rfl
theorem manifestAccepted (berth : AcceptEnd) : Statement (.manifestAccepted berth) := of_none rfl rfl rfl rfl
theorem logUnitDurable (lsn : BitVec 64) : Statement (.logUnitDurable lsn) := of_none rfl rfl rfl rfl
theorem completeDurable (c : CmdId) : Statement (.completeDurable c) := of_none rfl rfl rfl rfl
theorem completionRecordLost (ctx : BitVec 32) (addr : BitVec 57) (r : MemResp) : Statement (.completionRecordLost ctx addr r) := of_none rfl rfl rfl rfl
theorem checkpoint : Statement (.checkpoint) := of_none rfl rfl rfl rfl
theorem mirrorLost (mirror : Bool) : Statement (.mirrorLost mirror) := of_none rfl rfl rfl rfl
theorem resilverDone : Statement (.resilverDone) := of_none rfl rfl rfl rfl
theorem harbourPoisonRead (mirror : Bool) (page : HarbourAt) (other : MemResp) : Statement (.harbourPoisonRead mirror page other) := of_none rfl rfl rfl rfl
theorem replay : Statement (.replay) := of_none rfl rfl rfl rfl
theorem commandInterrupted (c : CmdId) : Statement (.commandInterrupted c) := of_none rfl rfl rfl rfl
theorem hmsPick : Statement (.hmsPick) := of_none rfl rfl rfl rfl
theorem preemptDecision (c : CmdId) : Statement (.preemptDecision c) := of_none rfl rfl rfl rfl
theorem preemptComplete (c : CmdId) : Statement (.preemptComplete c) := of_none rfl rfl rfl rfl
theorem reclaim (quay : BitVec 6) : Statement (.reclaim quay) := of_quay rfl rfl rfl rfl rfl
theorem stallReport (w : StallWho) : Statement (.stallReport w) := match w with
  | .quay _ => of_quay rfl rfl rfl rfl rfl
  | .berth _ => of_none rfl rfl rfl rfl
theorem currentSample (cur : BitVec 16) : Statement (.currentSample cur) := of_none rfl rfl rfl rfl
theorem telemetryLost : Statement (.telemetryLost) := of_none rfl rfl rfl rfl
theorem thermalChange (level : BitVec 2) : Statement (.thermalChange level) := of_none rfl rfl rfl rfl
theorem paceLimitWrite (v : BitVec 64) : Statement (.paceLimitWrite v) := of_none rfl rfl rfl rfl
theorem spinWindowEnd (c : CmdId) : Statement (.spinWindowEnd c) := of_none rfl rfl rfl rfl
theorem waiterWake (c : CmdId) : Statement (.waiterWake c) := of_none rfl rfl rfl rfl
theorem launchTiles (c : CmdId) : Statement (.launchTiles c) := of_none rfl rfl rfl rfl
theorem copy (c : CmdId) : Statement (.copy c) := of_none rfl rfl rfl rfl
theorem fill (c : CmdId) : Statement (.fill c) := of_none rfl rfl rfl rfl
theorem allReduce (c : CmdId) (g : GroupTable) : Statement (.allReduce c g) := of_none rfl rfl rfl rfl
theorem allGather (c : CmdId) (g : GroupTable) : Statement (.allGather c g) := of_none rfl rfl rfl rfl
theorem reduceScatter (c : CmdId) (g : GroupTable) : Statement (.reduceScatter c g) := of_none rfl rfl rfl rfl
theorem broadcast (c : CmdId) (g : GroupTable) : Statement (.broadcast c g) := of_none rfl rfl rfl rfl
theorem gatherRows (c : CmdId) : Statement (.gatherRows c) := of_none rfl rfl rfl rfl
theorem eval (c : CmdId) : Statement (.eval c) := of_none rfl rfl rfl rfl
theorem evalProgramRead (c : CmdId) (r : MemResp) (words : List (BitVec 64)) : Statement (.evalProgramRead c r words) := of_none rfl rfl rfl rfl
theorem ldi (e : BitVec 2) : Statement (.ldi e) := of_none rfl rfl rfl rfl
theorem addi (e : BitVec 2) : Statement (.addi e) := of_none rfl rfl rfl rfl
theorem alu (e : BitVec 2) : Statement (.alu e) := of_none rfl rfl rfl rfl
theorem ld32 (e : BitVec 2) : Statement (.ld32 e) := of_none rfl rfl rfl rfl
theorem ld64 (e : BitVec 2) : Statement (.ld64 e) := of_none rfl rfl rfl rfl
theorem evalLoadData (e : BitVec 2) (r : MemResp) (words : List (BitVec 32)) : Statement (.evalLoadData e r words) := of_none rfl rfl rfl rfl
theorem setp (e : BitVec 2) : Statement (.setp e) := of_none rfl rfl rfl rfl
theorem aload (e : BitVec 2) : Statement (.aload e) := of_none rfl rfl rfl rfl
theorem astore (e : BitVec 2) : Statement (.astore e) := of_none rfl rfl rfl rfl
theorem aget (e : BitVec 2) : Statement (.aget e) := of_none rfl rfl rfl rfl
theorem aset (e : BitVec 2) : Statement (.aset e) := of_none rfl rfl rfl rfl
theorem amap (e : BitVec 2) : Statement (.amap e) := of_none rfl rfl rfl rfl
theorem aidx (e : BitVec 2) : Statement (.aidx e) := of_none rfl rfl rfl rfl
theorem ascan (e : BitVec 2) : Statement (.ascan e) := of_none rfl rfl rfl rfl
theorem areduce (e : BitVec 2) : Statement (.areduce e) := of_none rfl rfl rfl rfl
theorem acompact (e : BitVec 2) : Statement (.acompact e) := of_none rfl rfl rfl rfl
theorem aexpand (e : BitVec 2) : Statement (.aexpand e) := of_none rfl rfl rfl rfl
theorem evalComplete (e : BitVec 2) : Statement (.evalComplete e) := of_none rfl rfl rfl rfl
theorem allocBlocks (c : CmdId) (reads : List FreeRead) : Statement (.allocBlocks c reads) := of_none rfl rfl rfl rfl
theorem allocCommit (c : CmdId) (slots : SlotRead) (w : List MemResp) : Statement (.allocCommit c slots w) := of_none rfl rfl rfl rfl
theorem freeBlocks (c : CmdId) (read : FreeRead) : Statement (.freeBlocks c read) := of_none rfl rfl rfl rfl
theorem poolCreate : Statement (.poolCreate) := of_none rfl rfl rfl rfl
theorem poolDestroy : Statement (.poolDestroy) := of_none rfl rfl rfl rfl
theorem poolRead : Statement (.poolRead) := of_none rfl rfl rfl rfl
theorem barrier (c : CmdId) : Statement (.barrier c) := of_none rfl rfl rfl rfl
theorem nop (c : CmdId) : Statement (.nop c) := of_none rfl rfl rfl rfl
theorem endCmd (c : CmdId) : Statement (.endCmd c) := of_none rfl rfl rfl rfl
theorem signalHost (c : CmdId) : Statement (.signalHost c) := of_none rfl rfl rfl rfl
theorem hostWriteFail (c : CmdId) (r : MemResp) : Statement (.hostWriteFail c r) := of_none rfl rfl rfl rfl
theorem moor (c : CmdId) : Statement (.moor c) := of_none rfl rfl rfl rfl
theorem unmoor (c : CmdId) : Statement (.unmoor c) := of_none rfl rfl rfl rfl
theorem mooringLoadStart (m : BitVec 12) : Statement (.mooringLoadStart m) := of_none rfl rfl rfl rfl
theorem mooringLoadLine (m : BitVec 12) (line : Line) : Statement (.mooringLoadLine m line) := of_none rfl rfl rfl rfl
theorem mooringLoaded (m : BitVec 12) : Statement (.mooringLoaded m) := of_none rfl rfl rfl rfl
theorem loadRestart (m : BitVec 12) (r : MemResp) : Statement (.loadRestart m r) := of_none rfl rfl rfl rfl
theorem mooringPoison : Statement (.mooringPoison) := of_none rfl rfl rfl rfl
theorem granuleRepaired (m : BitVec 12) : Statement (.granuleRepaired m) := of_none rfl rfl rfl rfl
theorem mmgRead : Statement (.mmgRead) := of_none rfl rfl rfl rfl
theorem tileForm (seq : BitVec 4) : Statement (.tileForm seq) := of_none rfl rfl rfl rfl
theorem indexLineResponse (seq : BitVec 4) (addr : BitVec 57) (r : MemResp) (line : Line) : Statement (.indexLineResponse seq addr r line) := of_none rfl rfl rfl rfl
theorem descriptorCrossing (seq : BitVec 4) : Statement (.descriptorCrossing seq) := of_none rfl rfl rfl rfl
theorem descriptorLaunch (quay : BitVec 6) : Statement (.descriptorLaunch quay) := of_quay rfl rfl rfl rfl rfl
theorem completionPacket (quay : BitVec 6) (p : CplPacket) : Statement (.completionPacket quay p) := of_quay rfl rfl rfl rfl rfl
theorem commandTilesDone (c : CmdId) : Statement (.commandTilesDone c) := of_none rfl rfl rfl rfl
theorem commandFault (c : CmdId) : Statement (.commandFault c) := of_none rfl rfl rfl rfl
theorem drainRequest (quay : BitVec 6) (scope : DrainScope) : Statement (.drainRequest quay scope) := of_quay rfl rfl rfl rfl rfl
theorem drainDone (quay : BitVec 6) : Statement (.drainDone quay) := of_quay rfl rfl rfl rfl rfl
theorem drainTimeout (quay : BitVec 6) : Statement (.drainTimeout quay) := of_quay rfl rfl rfl rfl rfl
theorem quayClockStopped (quay : BitVec 6) : Statement (.quayClockStopped quay) := of_quay rfl rfl rfl rfl rfl
theorem quayClockReturn (quay : BitVec 6) : Statement (.quayClockReturn quay) := of_quay rfl rfl rfl rfl rfl
theorem revive (quay : BitVec 6) : Statement (.revive quay) := of_quay rfl rfl rfl rfl rfl
theorem fenceGe (c : CmdId) : Statement (.fenceGe c) := of_none rfl rfl rfl rfl
theorem counterTake (c : CmdId) : Statement (.counterTake c) := of_none rfl rfl rfl rfl
theorem barrierPass (c : CmdId) : Statement (.barrierPass c) := of_none rfl rfl rfl rfl
theorem flagIsSet (c : CmdId) : Statement (.flagIsSet c) := of_none rfl rfl rfl rfl
theorem flagIsClear (c : CmdId) : Statement (.flagIsClear c) := of_none rfl rfl rfl rfl
theorem fenceSet (c : CmdId) (entry : BitVec 1) : Statement (.fenceSet c entry) := of_none rfl rfl rfl rfl
theorem counterPut (c : CmdId) (entry : BitVec 1) : Statement (.counterPut c entry) := of_none rfl rfl rfl rfl
theorem barrierArrive (c : CmdId) (entry : BitVec 1) : Statement (.barrierArrive c entry) := of_none rfl rfl rfl rfl
theorem flagSet (c : CmdId) (entry : BitVec 1) : Statement (.flagSet c entry) := of_none rfl rfl rfl rfl
theorem flagClear (c : CmdId) (entry : BitVec 1) : Statement (.flagClear c entry) := of_none rfl rfl rfl rfl
theorem hcmdFenceSet : Statement (.hcmdFenceSet) := of_none rfl rfl rfl rfl
theorem hcmdCounterPut : Statement (.hcmdCounterPut) := of_none rfl rfl rfl rfl
theorem hcmdBarrierArrive : Statement (.hcmdBarrierArrive) := of_none rfl rfl rfl rfl
theorem hcmdFlagSet : Statement (.hcmdFlagSet) := of_none rfl rfl rfl rfl
theorem hcmdFlagClear : Statement (.hcmdFlagClear) := of_none rfl rfl rfl rfl
theorem force : Statement (.force) := of_none rfl rfl rfl rfl
theorem forceBarrier : Statement (.forceBarrier) := of_none rfl rfl rfl rfl
theorem searchStart (berth : BitVec 22) : Statement (.searchStart berth) := of_none rfl rfl rfl rfl
theorem waitQuery (src : BitVec 32) : Statement (.waitQuery src) := of_none rfl rfl rfl rfl
theorem declQuery (src : BitVec 32) : Statement (.declQuery src) := of_none rfl rfl rfl rfl
theorem reply (src : BitVec 32) : Statement (.reply src) := of_none rfl rfl rfl rfl
theorem verdict (key : SearchKey) : Statement (.verdict key) := of_none rfl rfl rfl rfl
theorem enumStart : Statement (.enumStart) := of_none rfl rfl rfl rfl
theorem enumToken (link : BitVec 6) : Statement (.enumToken link) := of_link rfl rfl rfl rfl rfl
theorem enumReply (link : BitVec 6) : Statement (.enumReply link) := of_link rfl rfl rfl rfl rfl
theorem census (link : BitVec 6) : Statement (.census link) := of_link rfl rfl rfl rfl rfl
theorem route (link : BitVec 6) : Statement (.route link) := of_link rfl rfl rfl rfl rfl
theorem isolate (link : BitVec 6) : Statement (.isolate link) := of_link rfl rfl rfl rfl rfl
theorem linkDown (link : BitVec 6) : Statement (.linkDown link) := of_link rfl rfl rfl rfl rfl
theorem linkUp (link : BitVec 6) : Statement (.linkUp link) := of_link rfl rfl rfl rfl rfl
theorem linkSessionKey (sel : BitVec 16) (key : BitVec 256) : Statement (.linkSessionKey sel key) := by
  intro hw
  have h : (linkOk (sel.extractLsb' 0 6) && linkOk (sel.extractLsb' 6 6)) = true := hw
  rw [linkOk, linkOk, Bool.and_eq_true, decide_eq_true_eq, decide_eq_true_eq] at h
  have e1 : links (.linkSessionKey sel key) = [(sel.extractLsb' 0 6).toNat, (sel.extractLsb' 6 6).toNat] := rfl
  have e2 : quays (.linkSessionKey sel key) = [] := rfl
  have e3 : agents (.linkSessionKey sel key) = [] := rfl
  have e4 : islands (.linkSessionKey sel key) = [] := rfl
  rw [e1, e2, e3, e4]
  simpa using h
theorem fabricPacketReceive (link : BitVec 6) (arrive : BitVec 16) (p : SealedPacket) : Statement (.fabricPacketReceive link arrive p) := of_link rfl rfl rfl rfl rfl
theorem packetResend (node : BitVec 32) : Statement (.packetResend node) := of_none rfl rfl rfl rfl
theorem signal (src : BitVec 32) : Statement (.signal src) := of_none rfl rfl rfl rfl
theorem sigNotice (src : BitVec 32) : Statement (.sigNotice src) := of_none rfl rfl rfl rfl
theorem waitReg (src : BitVec 32) : Statement (.waitReg src) := of_none rfl rfl rfl rfl
theorem waitMet (src : BitVec 32) : Statement (.waitMet src) := of_none rfl rfl rfl rfl
theorem waitEnd (src : BitVec 32) : Statement (.waitEnd src) := of_none rfl rfl rfl rfl
theorem capNote (src : BitVec 32) : Statement (.capNote src) := of_none rfl rfl rfl rfl
theorem ackOnly (src : BitVec 32) : Statement (.ackOnly src) := of_none rfl rfl rfl rfl
theorem tideSyncSend : Statement (.tideSyncSend) := of_none rfl rfl rfl rfl
theorem tideSync (link : BitVec 6) : Statement (.tideSync link) := of_link rfl rfl rfl rfl rfl
theorem departureStamp (link : BitVec 6) (time : BitVec 16) : Statement (.departureStamp link time) := of_link rfl rfl rfl rfl rfl
theorem tideLost : Statement (.tideLost) := of_none rfl rfl rfl rfl
theorem partnerRead : Statement (.partnerRead) := of_none rfl rfl rfl rfl
theorem release : Statement (.release) := of_none rfl rfl rfl rfl
theorem quarantine : Statement (.quarantine) := of_none rfl rfl rfl rfl
theorem add : Statement (.add) := of_none rfl rfl rfl rfl
theorem remove : Statement (.remove) := of_none rfl rfl rfl rfl
theorem removeAll : Statement (.removeAll) := of_none rfl rfl rfl rfl
theorem faultRecordWrite (seqNo : BitVec 32) : Statement (.faultRecordWrite seqNo) := of_none rfl rfl rfl rfl
theorem fqConsWrite (v : BitVec 64) : Statement (.fqConsWrite v) := of_none rfl rfl rfl rfl
theorem pendingMove : Statement (.pendingMove) := of_none rfl rfl rfl rfl
theorem fqRead (a b : MemResp) : Statement (.fqRead a b) := of_none rfl rfl rfl rfl
theorem take : Statement (.take) := of_none rfl rfl rfl rfl
theorem fqSweep (v : BitVec 64) : Statement (.fqSweep v) := of_none rfl rfl rfl rfl
theorem machineCheck (page : BitVec 8) (code : ErrCode) (addr : BitVec 64) : Statement (.machineCheck page code addr) := of_none rfl rfl rfl rfl
theorem protocolError (m : CohMsg) : Statement (.protocolError m) := of_agent rfl rfl rfl rfl rfl
theorem rds (x : BitVec 4) (l : BitVec 48) (p : ReqPhase) : Statement (.rds x l p) := of_agent rfl rfl rfl rfl rfl
theorem rdx (x : BitVec 4) (l : BitVec 48) (p : ReqPhase) : Statement (.rdx x l p) := of_agent rfl rfl rfl rfl rfl
theorem upg (x : BitVec 4) (l : BitVec 48) (p : ReqPhase) : Statement (.upg x l p) := of_agent rfl rfl rfl rfl rfl
theorem wb (x : BitVec 4) (l : BitVec 48) (p : ReqPhase) : Statement (.wb x l p) := of_agent rfl rfl rfl rfl rfl
theorem evc (x : BitVec 4) (l : BitVec 48) (p : ReqPhase) : Statement (.evc x l p) := of_agent rfl rfl rfl rfl rfl
theorem wrpart (x : BitVec 4) (l : BitVec 48) (be : BitVec 64) (data : Line) (p : ReqPhase) : Statement (.wrpart x l be data p) := of_agent rfl rfl rfl rfl rfl
theorem atm (x : BitVec 4) (l : BitVec 48) (op : AtmOp) (p : ReqPhase) : Statement (.atm x l op p) := of_agent rfl rfl rfl rfl rfl
theorem snoopResponse (x : BitVec 4) (l : BitVec 48) : Statement (.snoopResponse x l) := of_agent rfl rfl rfl rfl rfl
theorem pushAnswer (x : BitVec 4) (l : BitVec 48) : Statement (.pushAnswer x l) := of_agent rfl rfl rfl rfl rfl
theorem done (x : BitVec 4) (l : BitVec 48) : Statement (.done x l) := of_agent rfl rfl rfl rfl rfl
theorem snps (x : BitVec 4) (l : BitVec 48) : Statement (.snps x l) := of_agent rfl rfl rfl rfl rfl
theorem snpx (x : BitVec 4) (l : BitVec 48) : Statement (.snpx x l) := of_agent rfl rfl rfl rfl rfl
theorem inv (x : BitVec 4) (l : BitVec 48) : Statement (.inv x l) := of_agent rfl rfl rfl rfl rfl
theorem snpcur (x : BitVec 4) (l : BitVec 48) : Statement (.snpcur x l) := of_agent rfl rfl rfl rfl rfl
theorem push (x : BitVec 4) (l : BitVec 48) : Statement (.push x l) := of_agent rfl rfl rfl rfl rfl
theorem dataGrant (x : BitVec 4) (l : BitVec 48) : Statement (.dataGrant x l) := of_agent rfl rfl rfl rfl rfl
theorem cmp (x : BitVec 4) (l : BitVec 48) : Statement (.cmp x l) := of_agent rfl rfl rfl rfl rfl
theorem wrcmp (x : BitVec 4) (l : BitVec 48) : Statement (.wrcmp x l) := of_agent rfl rfl rfl rfl rfl
theorem wback (x : BitVec 4) (l : BitVec 48) : Statement (.wback x l) := of_agent rfl rfl rfl rfl rfl
theorem atmrsp (x : BitVec 4) (l : LineAns) : Statement (.atmrsp x l) := of_agent rfl rfl rfl rfl rfl
theorem irqSourceRise (src : BitVec 7) : Statement (.irqSourceRise src) := of_none rfl rfl rfl rfl
theorem msixDelivery : Statement (.msixDelivery) := of_none rfl rfl rfl rfl
theorem msixSend : Statement (.msixSend) := of_none rfl rfl rfl rfl
theorem batchEnd (g : BitVec 4) : Statement (.batchEnd g) := of_none rfl rfl rfl rfl
theorem holdoffExpiry (g : BitVec 4) : Statement (.holdoffExpiry g) := of_none rfl rfl rfl rfl
theorem wireJoin (src : BitVec 7) : Statement (.wireJoin src) := of_none rfl rfl rfl rfl
theorem irqPendWrite (r : BitVec 1) (v : BitVec 64) (hw : BitVec 64) : Statement (.irqPendWrite r v hw) := of_none rfl rfl rfl rfl
theorem irqMaskWrite (r : BitVec 1) (v : BitVec 64) : Statement (.irqMaskWrite r v) := of_none rfl rfl rfl rfl
theorem powerOnReset : Statement (.powerOnReset) := of_none rfl rfl rfl rfl
theorem brownOutReset : Statement (.brownOutReset) := of_none rfl rfl rfl rfl
theorem pinReset : Statement (.pinReset) := of_none rfl rfl rfl rfl
theorem block (key : BitVec 16) : Statement (.block key) := of_none rfl rfl rfl rfl
theorem blockReload (key : BitVec 16) : Statement (.blockReload key) := of_none rfl rfl rfl rfl
theorem debugReset : Statement (.debugReset) := of_none rfl rfl rfl rfl
theorem watchdogExpiry : Statement (.watchdogExpiry) := of_none rfl rfl rfl rfl
theorem wdogWarn : Statement (.wdogWarn) := of_none rfl rfl rfl rfl
theorem watchdogRestart (pilot : BitVec 3) : Statement (.watchdogRestart pilot) := of_none rfl rfl rfl rfl
theorem clockFailure (island : BitVec 4) : Statement (.clockFailure island) := of_island rfl rfl rfl rfl rfl
theorem pilotLockup (pilot : BitVec 3) : Statement (.pilotLockup pilot) := of_none rfl rfl rfl rfl
theorem pilotReloadDone (pilot : BitVec 3) : Statement (.pilotReloadDone pilot) := of_none rfl rfl rfl rfl
theorem idleRequest : Statement (.idleRequest) := of_none rfl rfl rfl rfl
theorem idleComplete : Statement (.idleComplete) := of_none rfl rfl rfl rfl
theorem parkEscalation (island : BitVec 4) : Statement (.parkEscalation island) := of_island rfl rfl rfl rfl rfl
theorem memoryDrainDone : Statement (.memoryDrainDone) := of_none rfl rfl rfl rfl
theorem islandRelease (island : BitVec 4) : Statement (.islandRelease island) := of_island rfl rfl rfl rfl rfl
theorem configChunk (data : BitVec 256) (last : Bool) : Statement (.configChunk data last) := of_none rfl rfl rfl rfl
theorem configVerdict (v : Bool) : Statement (.configVerdict v) := of_none rfl rfl rfl rfl
theorem imageChunk (data : BitVec 256) (last : Bool) : Statement (.imageChunk data last) := of_none rfl rfl rfl rfl
theorem imageVerdict (v : Bool) : Statement (.imageVerdict v) := of_none rfl rfl rfl rfl
theorem imageReloadDone (ok : Bool) : Statement (.imageReloadDone ok) := of_none rfl rfl rfl rfl
theorem logFormatDone : Statement (.logFormatDone) := of_none rfl rfl rfl rfl
theorem loadComplete : Statement (.loadComplete) := of_none rfl rfl rfl rfl
theorem loadFail (reason : BitVec 8) : Statement (.loadFail reason) := of_none rfl rfl rfl rfl
theorem noVerdict : Statement (.noVerdict) := of_none rfl rfl rfl rfl
theorem retry : Statement (.retry) := of_none rfl rfl rfl rfl
theorem targetRun : Statement (.targetRun) := of_none rfl rfl rfl rfl
theorem targetTrim : Statement (.targetTrim) := of_none rfl rfl rfl rfl
theorem targetRetain : Statement (.targetRetain) := of_none rfl rfl rfl rfl
theorem targetOff : Statement (.targetOff) := of_none rfl rfl rfl rfl
theorem retainEntry : Statement (.retainEntry) := of_none rfl rfl rfl rfl
theorem retainTimeout : Statement (.retainTimeout) := of_none rfl rfl rfl rfl
theorem retainWake (island : BitVec 4) : Statement (.retainWake island) := of_island rfl rfl rfl rfl rfl
theorem dozeEntry (island : BitVec 4) : Statement (.dozeEntry island) := of_island rfl rfl rfl rfl rfl
theorem dozeWake (island : BitVec 4) : Statement (.dozeWake island) := of_island rfl rfl rfl rfl rfl
theorem debugToken (slot : BitVec 3) (data : BitVec 256) : Statement (.debugToken slot data) := of_none rfl rfl rfl rfl
theorem tokenRevocation (slot : BitVec 3) : Statement (.tokenRevocation slot) := of_none rfl rfl rfl rfl
theorem tokenExpiry (slot : BitVec 3) : Statement (.tokenExpiry slot) := of_none rfl rfl rfl rfl
theorem lock (key : BitVec 16) : Statement (.lock key) := of_none rfl rfl rfl rfl
theorem dapAccess (write : Bool) (addr : BitVec 20) (data : BitVec 64) : Statement (.dapAccess write addr data) := of_none rfl rfl rfl rfl
theorem halt (pilots : BitVec 8) : Statement (.halt pilots) := of_none rfl rfl rfl rfl
theorem resume (pilots : BitVec 8) : Statement (.resume pilots) := of_none rfl rfl rfl rfl
theorem stepPilots (pilots : BitVec 8) : Statement (.stepPilots pilots) := of_none rfl rfl rfl rfl
theorem breakpointHit (pilot : BitVec 3) (addr : BitVec 57) : Statement (.breakpointHit pilot addr) := of_none rfl rfl rfl rfl
theorem pdbgSelWrite (v : BitVec 64) : Statement (.pdbgSelWrite v) := of_none rfl rfl rfl rfl
theorem pdbgDataWrite (v : BitVec 64) : Statement (.pdbgDataWrite v) := of_none rfl rfl rfl rfl
theorem traceRecord (src : TraceSrc) : Statement (.traceRecord src) := match src with
  | .quay _ => of_quay rfl rfl rfl rfl rfl
  | .marker => of_none rfl rfl rfl rfl
  | .pilot _ => of_none rfl rfl rfl rfl
theorem traceRdWrite (v : BitVec 64) : Statement (.traceRdWrite v) := of_none rfl rfl rfl rfl
theorem sample : Statement (.sample) := of_none rfl rfl rfl rfl
theorem periodicSample : Statement (.periodicSample) := of_none rfl rfl rfl rfl
theorem clear : Statement (.clear) := of_none rfl rfl rfl rfl
theorem query (r : MemResp) : Statement (.query r) := of_none rfl rfl rfl rfl
theorem rcRead (addr : BitVec 57) (be : BitVec 64) (rid : BitVec 16) (tag : BitVec 10) : Statement (.rcRead addr be rid tag) := of_none rfl rfl rfl rfl
theorem watchWriteFail (bol : BitVec 24) (r : MemResp) : Statement (.watchWriteFail bol r) := of_none rfl rfl rfl rfl
theorem evalStoreFault (e : BitVec 2) (addr : BitVec 57) (r : MemResp) : Statement (.evalStoreFault e addr r) := of_none rfl rfl rfl rfl
theorem coldResetRelease : Statement (.coldResetRelease) := of_none rfl rfl rfl rfl

end Sys2Proof.Laws.InRange
end

