-- ==== Sys2Proof/Laws/Recs.lean ====
section
/-!
SUPPORT. What the operations on records, commands, units and the journal leave: the record written reads back, every other reads as
before; an operation whose records are on chip runs at once; a group appended to the journal takes the next LSNs.
-/

namespace Sys2Proof.Machine

/-! ### Records (04) -/

@[simp] theorem ctxAt_putCtx_same (d : Dev) (i : Nat) (r : CtxRec) : ctxAt (putCtx d i r) i = r := by simp [ctxAt, putCtx]
theorem ctxAt_putCtx_ne (d : Dev) {i j : Nat} (r : CtxRec) (h : j ≠ i) : ctxAt (putCtx d i r) j = ctxAt d j := by
  simp [ctxAt, putCtx, tget_tset_ne _ _ _ _ h]

@[simp] theorem berthAt_putBerth_same (d : Dev) (i : Nat) (r : BerthRec) : berthAt (putBerth d i r) i = r := by
  simp [berthAt, putBerth]
theorem berthAt_putBerth_ne (d : Dev) {i j : Nat} (r : BerthRec) (h : j ≠ i) :
    berthAt (putBerth d i r) j = berthAt d j := by
  simp [berthAt, putBerth, tget_tset_ne _ _ _ _ h]

@[simp] theorem bolAt_putBol_same (d : Dev) (i : Nat) (r : BolRec) : bolAt (putBol d i r) i = r := by simp [bolAt, putBol]
theorem bolAt_putBol_ne (d : Dev) {i j : Nat} (r : BolRec) (h : j ≠ i) : bolAt (putBol d i r) j = bolAt d j := by
  simp [bolAt, putBol, tget_tset_ne _ _ _ _ h]

@[simp] theorem ctxAt_putBerth (d : Dev) (i j : Nat) (r : BerthRec) : ctxAt (putBerth d i r) j = ctxAt d j := rfl
@[simp] theorem ctxAt_putBol (d : Dev) (i j : Nat) (r : BolRec) : ctxAt (putBol d i r) j = ctxAt d j := rfl
@[simp] theorem berthAt_putCtx (d : Dev) (i j : Nat) (r : CtxRec) : berthAt (putCtx d i r) j = berthAt d j := rfl
@[simp] theorem berthAt_putBol (d : Dev) (i j : Nat) (r : BolRec) : berthAt (putBol d i r) j = berthAt d j := rfl
@[simp] theorem bolAt_putCtx (d : Dev) (i j : Nat) (r : CtxRec) : bolAt (putCtx d i r) j = bolAt d j := rfl
@[simp] theorem bolAt_putBerth (d : Dev) (i j : Nat) (r : BerthRec) : bolAt (putBerth d i r) j = bolAt d j := rfl

/-! ### Records on chip (R63) -/

@[simp] theorem ctxAt_touch (d : Dev) (r : RecId) (i : Nat) : ctxAt (touch d r) i = ctxAt d i := by cases r <;> rfl
@[simp] theorem berthAt_touch (d : Dev) (r : RecId) (i : Nat) : berthAt (touch d r) i = berthAt d i := by cases r <;> rfl
@[simp] theorem bolAt_touch (d : Dev) (r : RecId) (i : Nat) : bolAt (touch d r) i = bolAt d i := by cases r <;> rfl
@[simp] theorem reg_touch (d : Dev) (r : RecId) (p off : Nat) : reg (touch d r) p off = reg d p off := by cases r <;> rfl
@[simp] theorem touch_cmds (d : Dev) (r : RecId) : (touch d r).cmds = d.cmds := by cases r <;> rfl
@[simp] theorem touch_memOut (d : Dev) (r : RecId) : (touch d r).memOut = d.memOut := by cases r <;> rfl

/-- An operation whose records are all on chip runs at once, the records marked as used. -/
theorem withRecs_hot {d : Dev} {rs : List RecId} (f : Dev → Dev) (h : ∀ r ∈ rs, onChip d r = true) :
    withRecs d rs f = f (rs.foldl touch d) := by
  have hm : (rs.filter fun r => !onChip d r) = [] := List.filter_eq_nil_iff.2 fun r hr => by simp [h r hr]
  simp [withRecs, hm]

/-- An operation with a record that is not on chip asks for the missing records and does nothing else. -/
theorem withRecs_cold {d : Dev} {rs : List RecId} (f : Dev → Dev) {r : RecId} (hr : r ∈ rs) (h : onChip d r = false) :
    withRecs d rs f = (rs.filter fun r => !onChip d r).foldl askRecord d := by
  have hm : (rs.filter fun r => !onChip d r) ≠ [] := fun e => by
    have := List.filter_eq_nil_iff.1 e r hr
    simp [h] at this
  simp [withRecs, hm]

/-! ### Commands -/

theorem find?_map_key {k k' : CmdId} {f : Cmd → Cmd} (hf : ∀ x : Cmd, x.key = k → (f x).key = k) (l : List Cmd) :
    (l.map fun x => if x.key = k then f x else x).find? (fun c => c.key = k') =
      (l.find? fun c => c.key = k').map fun x => if x.key = k then f x else x := by
  induction l with
  | nil => rfl
  | cons c r ih =>
    by_cases hc : c.key = k <;> by_cases hk : c.key = k' <;>
      simp_all

/-- A change of a command that keeps its key is what is then found there. -/
theorem cmdAt_modCmd_same (d : Dev) {k : CmdId} {f : Cmd → Cmd} (hf : ∀ x : Cmd, x.key = k → (f x).key = k) :
    cmdAt (modCmd d k f) k = (cmdAt d k).map f := by
  unfold cmdAt modCmd
  simp only [find?_map_key hf]
  cases h : d.cmds.find? (fun c => c.key = k) with
  | none => rfl
  | some x =>
    have hx : x.key = k := by simpa using List.find?_some h
    simp [hx]

theorem cmdAt_modCmd_ne (d : Dev) {k k' : CmdId} {f : Cmd → Cmd} (hf : ∀ x : Cmd, x.key = k → (f x).key = k) (h : k' ≠ k) :
    cmdAt (modCmd d k f) k' = cmdAt d k' := by
  unfold cmdAt modCmd
  simp only [find?_map_key hf]
  cases hc : d.cmds.find? (fun c => c.key = k') with
  | none => rfl
  | some x =>
    have hx : x.key = k' := by simpa using List.find?_some hc
    simp [hx, h]

theorem withCmd_some {d : Dev} {k : CmdId} {c : Cmd} (f : Cmd → Dev) (h : cmdAt d k = some c) : withCmd d k f = f c := by
  simp [withCmd, h]

theorem withCmd_none {d : Dev} {k : CmdId} (f : Cmd → Dev) (h : cmdAt d k = none) : withCmd d k f = d := by
  simp [withCmd, h]

/-! ### Units of a fixed number -/

theorem quayAt_modQuay_same (d : Dev) {q : Nat} (f : Quay → Quay) (h : q < d.quays.length) :
    quayAt (modQuay d q f) q = f (quayAt d q) := by
  unfold quayAt modQuay
  exact at'_modAt_same _ _ _ h
theorem quayAt_modQuay_ne (d : Dev) {q r : Nat} (f : Quay → Quay) (h : q ≠ r) : quayAt (modQuay d q f) r = quayAt d r := by
  unfold quayAt modQuay
  exact at'_modAt_ne _ _ _ h
theorem seqAt_modSeq_same (d : Dev) {q : Nat} (f : Seqr → Seqr) (h : q < d.seqs.length) :
    seqAt (modSeq d q f) q = f (seqAt d q) := by
  unfold seqAt modSeq
  exact at'_modAt_same _ _ _ h
theorem seqAt_modSeq_ne (d : Dev) {q r : Nat} (f : Seqr → Seqr) (h : q ≠ r) : seqAt (modSeq d q f) r = seqAt d r := by
  unfold seqAt modSeq
  exact at'_modAt_ne _ _ _ h

/-! ### The journal (14) -/

theorem length_unitsFrom (pre : List W64) (n : Nat) (rs : List LogIn) : (unitsFrom pre n rs).length = rs.length := by
  induction rs generalizing pre n with
  | nil => rfl
  | cons x r ih => simp [unitsFrom, ih]

theorem length_groupUnits (n : Nat) (rs : List LogIn) : (groupUnits n rs).length = rs.length := length_unitsFrom _ _ _

/-- LBU event 3 and its episode are all that the check of the free space changes. -/
theorem lowCheck_lbu (d : Dev) : (lowCheck d).lbu.journal = d.lbu.journal ∧ (lowCheck d).lbu.nextLsn = d.lbu.nextLsn ∧
    (lowCheck d).lbu.durable = d.lbu.durable ∧ (lowCheck d).btc = d.btc ∧ (lowCheck d).blu = d.blu ∧
    (lowCheck d).cmds = d.cmds := by
  have key : ∀ a e : Dev, onlyRegs a e → e.lbu = a.lbu ∧ e.btc = a.btc ∧ e.blu = a.blu ∧ e.cmds = a.cmds := fun a e h =>
    have h' : { e with regs := a.regs } = a := h
    have h1 := congrArg Dev.lbu h'
    have h2 := congrArg Dev.btc h'
    have h3 := congrArg Dev.blu h'
    have h4 := congrArg Dev.cmds h'
    ⟨h1, h2, h3, h4⟩
  unfold lowCheck
  split
  · split
    · exact ⟨rfl, rfl, rfl, rfl, rfl, rfl⟩
    · obtain ⟨h1, h2, h3, h4⟩ := key _ _ (onlyRegs_raiseEvent (modLbu d fun l => { l with lowEpisode := true }) 7 3)
      rw [h1, h2, h3, h4]
      exact ⟨rfl, rfl, rfl, rfl, rfl, rfl⟩
  · exact ⟨rfl, rfl, rfl, rfl, rfl, rfl⟩

/-- The writes of a group's units leave on the memory ports and change nothing else. -/
theorem foldl_harbourWrite (us : List LogUnit) (d : Dev) (g : Dev → LogUnit → Nat) :
    ∃ l, us.foldl (fun d u => harbourWrite d (g d u) u.words) d = { d with memOut := l } := by
  have one : ∀ (d : Dev) (a : Nat) (ws : List W64), ∃ l, harbourWrite d a ws = { d with memOut := l } := fun d a ws => by
    simp only [harbourWrite, List.foldl_cons, List.foldl_nil, memReq]
    repeat' split
    all_goals exact ⟨_, rfl⟩
  induction us generalizing d with
  | nil => exact ⟨d.memOut, rfl⟩
  | cons u r ih =>
    obtain ⟨l, hl⟩ := one d (g d u) u.words
    obtain ⟨l', hl'⟩ := ih (harbourWrite d (g d u) u.words)
    exact ⟨l', by simp only [List.foldl_cons]; rw [hl', hl]⟩

/-- R242, R245: a group takes the next LSNs, one a record, and changes no record, command or durable point. -/
theorem logGroup_lbu (d : Dev) (rs : List LogIn) :
    (logGroup d rs).lbu.journal = d.lbu.journal ++ groupUnits d.lbu.nextLsn rs ∧
    (logGroup d rs).lbu.nextLsn = d.lbu.nextLsn + rs.length ∧ (logGroup d rs).lbu.durable = d.lbu.durable ∧
    (logGroup d rs).btc = d.btc ∧ (logGroup d rs).blu = d.blu ∧ (logGroup d rs).cmds = d.cmds := by
  have hw : { wakeUnit d 10 with regs := d.regs } = d := onlyRegs_wakeUnit d 10
  obtain ⟨l, hl⟩ := foldl_harbourWrite (groupUnits d.lbu.nextLsn rs) (wakeUnit d 10) fun d u => offUnit d.scu.cfg u.lsn
  have h1 : (wakeUnit d 10).lbu = d.lbu := congrArg Dev.lbu (a₁ := { wakeUnit d 10 with regs := d.regs }) (a₂ := d) hw
  have h2 : (wakeUnit d 10).btc = d.btc := congrArg Dev.btc (a₁ := { wakeUnit d 10 with regs := d.regs }) (a₂ := d) hw
  have h3 : (wakeUnit d 10).blu = d.blu := congrArg Dev.blu (a₁ := { wakeUnit d 10 with regs := d.regs }) (a₂ := d) hw
  have h4 : (wakeUnit d 10).cmds = d.cmds := congrArg Dev.cmds (a₁ := { wakeUnit d 10 with regs := d.regs }) (a₂ := d) hw
  simp only [logGroup]
  rw [hl]
  have key := lowCheck_lbu (modLbu { wakeUnit d 10 with memOut := l } fun x =>
    { x with journal := x.journal ++ groupUnits d.lbu.nextLsn rs, nextLsn := x.nextLsn + rs.length })
  simpa only [modLbu_lbu, modLbu_btc, modLbu_blu, modLbu_cmds, h1, h2, h3, h4] using key

end Sys2Proof.Machine
end

