-- ==== Sys2Proof/Tests/Slice0.lean ====
section
/-!
SUPPORT. Tests: operands that WellFormed refuses and exec refuses with it; check values the manual states; and, for every
statement with premises, states and operands that meet the premises of each of its clauses (`wit_<name of the rule>`).
-/

set_option maxRecDepth 100000
set_option linter.unusedVariables false

namespace Sys2Proof.Tests

open Sys2Proof.Machine

/-! ### Operands the manual reserves -/

/-- Links 48 to 63 do not exist (02, Fabric port). -/
theorem test_wf_link : ∀ i ∈ [Instr.enumToken 48, .enumReply 48, .census 48, .route 48, .isolate 48, .linkDown 48, .linkUp 48,
    .fabricPacketReceive 48 0 ⟨⟨0, 0, 0, 0, 0, 0, 0, .ackOnly⟩, 0, 0, true, true⟩, .tideSync 48, .departureStamp 48 0],
    i.wellFormed = false := by decide

/-- The two link numbers of a session key's selection: the local link, and the far end's. -/
theorem test_wf_session_key_links :
    (Instr.linkSessionKey 0x0030 0).wellFormed = false ∧ (Instr.linkSessionKey 0x0C00 0).wellFormed = false ∧
    (Instr.linkSessionKey 0x0BEF 0).wellFormed = true := by decide

/-- Quays 56 to 63 do not exist (R10). -/
theorem test_wf_quay : ∀ i ∈ [Instr.reclaim 56, .descriptorLaunch 56, .completionPacket 56 ⟨0, 0, true, false, 0⟩, .drainRequest 56 .all,
    .drainDone 56, .drainTimeout 56, .quayClockStopped 56, .quayClockReturn 56, .revive 56, .stallReport (.quay 56),
    .traceRecord (.quay 56)], i.wellFormed = false := by decide

/-- Agents 0xC to 0xF do not exist (R264). -/
theorem test_wf_agent : ∀ i ∈ [Instr.rds 12 0 .send, .rdx 12 0 .send, .upg 12 0 .send, .wb 12 0 .send, .evc 12 0 .send,
    .wrpart 12 0 0 0 .send, .atm 12 0 (.add 0 0) .send, .snoopResponse 12 0, .pushAnswer 12 0, .done 12 0, .snps 12 0, .snpx 12 0,
    .inv 12 0, .snpcur 12 0, .push 12 0, .dataGrant 12 0, .cmp 12 0, .wrcmp 12 0, .wback 12 0, .atmrsp 12 ⟨0, .ok⟩,
    .protocolError ⟨12, 0, .cmp⟩], i.wellFormed = false := by decide

/-- Islands are 1 to 14 (R10). -/
theorem test_wf_island : ∀ i ∈ [Instr.clockFailure 0, .parkEscalation 0, .islandRelease 0, .retainWake 0, .dozeEntry 0, .dozeWake 0,
    .clockFailure 15, .islandRelease 15], i.wellFormed = false := by decide

/-- Stash target 0b00 is reserved (02, Host port). -/
theorem test_wf_stash : (Instr.stashWrite 0 0 0 0).wellFormed = false ∧ (Instr.stashWrite 1 0 0 0).wellFormed = true := by decide

/-- A group table has 2 to 4,096 members, SELF among them (R293). -/
theorem test_group_table : groupOk ⟨[], 0⟩ = false ∧ groupOk ⟨[⟨0, 0, 0, 0⟩], 0⟩ = false ∧
    groupOk ⟨[⟨0, 0, 0, 0⟩, ⟨0, 0, 0, 0⟩], 2⟩ = false ∧ groupOk ⟨[⟨0, 0, 0, 0⟩, ⟨0, 0, 0, 0⟩], 1⟩ = true := by decide

/-! ### Check values -/

/-- The check value of R87 over "123456789". -/
theorem test_crc32c : crc32c [0x31, 0x32, 0x33, 0x34, 0x35, 0x36, 0x37, 0x38, 0x39] = 0xE3069283 := by decide

/-- The check value of R244 over "123456789". -/
theorem test_crc64 : crc64 [0x31, 0x32, 0x33, 0x34, 0x35, 0x36, 0x37, 0x38, 0x39] = 0x995DC9BBDF1939FA := by decide

/-- SHA-256 of "abc" (FIPS 180-4, which R115 names). -/
theorem test_sha256 : sha256 [0x61, 0x62, 0x63] = 0xba7816bf8f01cfea414140de5dae2223b00361a396177a9cb410ff61f20015ad := by decide

/-! ### Small states -/

/-- A block that has come up: the SCU out of reset, no island held, LOADED. -/
def up : Dev := setFld (setFld { scu := { up := true } } fInReset 0) fLoadState 3

/-- Fields set in a block. -/
def fs (d : Dev) (l : List (Fld × Nat)) : Dev := l.foldl (fun d x => setFld d x.1 x.2) d

/-- A block with no command waiting. -/
def st (d : Dev) : State := ⟨d, []⟩

/-- The context of slot 3 and the berth of slot 5, which it owns. -/
def ctxR : CtxRec :=
  { state := .live, asid := 7, keyid := 9, pid := 2, bollardLimit := 8, berthLimit := 8, blockLimit := 100 }
def berR : BerthRec := { state := .live, ctxIdx := 3, ctxGen := 1, prio := 1, ringLog2 := 6, cplLog2 := 4 }
def hCtx : Nat := ctxHandle 3 1
def hBer : Nat := berthHandle 5 1

/-- The two records on chip. -/
def home (d : Dev := up) (c : CtxRec := ctxR) (r : BerthRec := berR) : Dev :=
  { d with btc := { ctx := [(3, c)], berth := [(5, r)], hotCtx := [3], hotBerth := [5] } }

def spec0 : CmdSpec :=
  { op := .nop, lineNo := 1, replay := false, concurrent := false, brCond := 0, brTarget := 0, operatorId := 0, layerId := 0,
    tag := 0, waits := [], sigs := [] }
/-- A command of line 1 of berth 5, and the manifest it stands in. -/
def k0 : CmdId := ⟨5, 1⟩
def cmd0 : Cmd := { key := k0, berth := 5, ctx := hCtx, headIdx := 0, ref := 0, spec := spec0 }
def man0 : Manifest := { berth := hBer, berthIdx := 5, ctx := hCtx, headIdx := 0, lineCount := 2, id := 0 }
/-- A line of zeros with its CRC-32C in bytes 60 to 63. -/
def goodLine : Line := 1510671665#512 <<< 480
/-- A tile of the command at quay `q`. -/
def desc0 (q : Nat := 0) : Desc :=
  { cmd := k0, ctx := hCtx, berth := 5, dkind := 1, skind := 0, named := none, tile := 0, piece := 0, pid := 2, tag := 0,
    replayed := false, addr := 0, quay := q, words := [], ext := none, seq := 0, depth := 4 }
def atQuay (q : Nat) (f : Quay → Quay) (d : Dev) : Dev := modQuay d q f
def outAt (q : Nat) (d : Dev) : Dev := atQuay q (fun u => { u with out := [{ desc := desc0 q, station := 0, launched := 0 }] }) d
def withOp (o : CmdOp) (c : Cmd := cmd0) : Cmd := { c with spec := { c.spec with op := o } }
/-- A block with these accepted commands. -/
def cmds (l : List Cmd) (d : Dev := home) : Dev := { d with cmds := l }
def lop : LaunchOp :=
  { kernelVa := 0x1000, skind := 0, station := 0, nloop := 1, splitLevel := 0, named := false, tileNs := 0, karg0 := 0, karg1 := 0,
    trips := [2], idxVa := 0, idxOpnd := 0, idxScale := 0, idxRow := 0, opnds := [] }
/-- The scheduler released. -/
def sched (d : Dev) : Dev := { d with hms := { d.hms with released := true } }
/-- A bollard of slot 9 on chip, owned by the context of slot 3, and entries that name it. -/
def hBol : Nat := bolHandle 9 1
def bol0 : BolRec := { state := .live, kind := .fence, ctxIdx := 3, ctxGen := 1 }
def bolDev (r : BolRec := bol0) (d : Dev := home) : Dev := { d with blu := { d.blu with slots := [(9, r)], hot := [9] } }
def ent0 (code : Nat) (v : W64) : SyncEnt := ⟨0, hBol, v, 0, code, false⟩
def pktIn (p : Payload) : Packet := { dest := 0, src := 77, credit := 0, pseq := 0, ack := 0, lowRef := 0, session := 0, body := p }
def halted (d : Dev) : Dev := fs d [(fDtcHalted, 1)]


theorem wit_RegisterWriteFields : ∃ (s : State) (p : Nat) (off : Nat), p < 256 ∧ settingsReg p off = true ∧ served s.dev p = true :=
  ⟨st up, 4, 0x148, by decide⟩

theorem wit_RegisterWriteDiscarded :
    (∃ (s : State) (addr : BitVec 57) (be : BitVec 64), inReset s.dev 1 = false ∧ ((addr.toNat % 8 ≠ 0 ∨ 2 ^ 20 ≤ addr.toNat ∨ be ≠ 0xFF))) ∧
    (∃ (s : State) (addr : BitVec 57) (be : BitVec 64), inReset s.dev 1 = false ∧ (addr.toNat % 8 = 0 ∧ addr.toNat < 2 ^ 20 ∧ be = 0xFF) ∧ pageKind (addr.toNat / 0x1000) = .reserved) ∧
    (∃ (s : State) (addr : BitVec 57) (be : BitVec 64), inReset s.dev 1 = false ∧ (addr.toNat % 8 = 0 ∧ addr.toNat < 2 ^ 20 ∧ be = 0xFF) ∧ pageKind (addr.toNat / 0x1000) ≠ .reserved ∧ pageInReset s.dev (addr.toNat / 0x1000) = true) ∧
    (∃ (s : State) (addr : BitVec 57) (be : BitVec 64), inReset s.dev 1 = false ∧ (addr.toNat % 8 = 0 ∧ addr.toNat < 2 ^ 20 ∧ be = 0xFF) ∧ served s.dev (addr.toNat / 0x1000) = true ∧ pageTop (addr.toNat / 0x1000) ≤ addr.toNat % 0x1000) :=
  ⟨⟨st up, 0x4149, 0xFF, by decide⟩,
   ⟨st up, 0xB148, 0xFF, by decide⟩,
   ⟨st (setBit up fInReset 5), 0x4148, 0xFF, by decide⟩,
   ⟨st up, 0x4180, 0xFF, by decide⟩⟩

theorem wit_RegisterRead :
    (∃ (s : State) (p : Nat) (off : Nat), inReset s.dev 1 = false ∧ p < 256 ∧ off < 0x1000 ∧ off % 8 = 0 ∧ served s.dev p = true) ∧
    (∃ (s : State) (p : Nat) (off : Nat), inReset s.dev 1 = false ∧ p < 256 ∧ off < 0x1000 ∧ off % 8 = 0 ∧ pageKind p = .reserved) ∧
    (∃ (s : State) (p : Nat) (off : Nat), inReset s.dev 1 = false ∧ p < 256 ∧ off < 0x1000 ∧ off % 8 = 0 ∧ pageKind p ≠ .reserved ∧ pageInReset s.dev p = true ∧ off ≠ 0 ∧ off ≠ 0x008 ∧ off ≠ 0x020) ∧
    (∃ (s : State) (addr : BitVec 57) (be : BitVec 64), inReset s.dev 1 = false ∧ ((addr.toNat % 8 ≠ 0 ∨ 2 ^ 20 ≤ addr.toNat ∨ be ≠ 0xFF))) :=
  ⟨⟨st up, 4, 0x148, by decide⟩,
   ⟨st up, 0xB, 0, by decide⟩,
   ⟨st (setBit up fInReset 5), 4, 0x148, by decide⟩,
   ⟨st up, 0x100000, 0xFF, by decide⟩⟩

theorem wit_ApertureRead : ∃ (s : State), inReset s.dev 1 = false :=
  ⟨st up, by decide⟩

theorem wit_QuiesceProtocol :
    (∃ (s : State) (page : BitVec 8), served s.dev page.toNat = true ∧ pageKind page.toNat ≠ .scu ∧ pageKind page.toNat ≠ .hpu ∧ flag s.dev (fQreq page.toNat) = true ∧ opsDone s.dev page.toNat = true) ∧
    (∃ (s : State) (page : BitVec 8), served s.dev page.toNat = true ∧ pageKind page.toNat ≠ .scu ∧ pageKind page.toNat ≠ .hpu ∧ flag s.dev (fQreq page.toNat) = false) ∧
    (∃ (s : State) (page : BitVec 8), served s.dev page.toNat = true ∧ pageKind page.toNat ≠ .scu ∧ pageKind page.toNat ≠ .hpu ∧ flag s.dev (fQreq page.toNat) = true ∧ (page.toNat = 3 ∨ page.toNat = 4 ∨ page.toNat = 7 ∨ pageKind page.toNat = .tsq)) :=
  ⟨⟨st (fs up [(fQreq 3, 1)]), 3, by decide⟩,
   ⟨st up, 3, by decide⟩,
   ⟨st (fs up [(fQreq 0x20, 1), (fQuiesced 0x20, 1)]), 0x20, by decide⟩⟩

/-- The home with window 0 on the berth of slot 5. -/
def win0 (any gen : Nat) : Dev := fs home [(fWinTable 0, 1), (fWinIndex 0, 5), (fWinGen 0, gen), (fWinAny 0, any)]
/-- The home with one doorbell on the crossing. -/
def bell (b : Doorbell) (d : Dev := home) : State := st { d with hpu := { toBtc := [b] } }
def db (prod : Nat) : Doorbell := { ctx := 3, handle := hBer, prod := prod, hint := 0 }
/-- The berth HALTED behind its wake. -/
def waking : State :=
  let d := home up ctxR { berR with state := .halted, cons := 3 }
  st { d with btc := { d.btc with toMfu := [.wake 5 1] } }
def fetch0 : Fetch := { berth := 5, handle := hBer, hint := 0, next := 0, upTo := 3, lines := [] }
def fetching (f : Fetch) (d : Dev := home) : Dev := { d with mfu := { fetches := [f], mans := [man0] } }

theorem wit_WindowBusyDiscards : ∃ (s : State) (w : BitVec 7), awake s.dev 2 = true ∧ flag s.dev (fWinBusy w.toNat) = true :=
  ⟨st (fs up [(fWinBusy 127, 1)]), 127, by decide⟩

theorem wit_WindowRead :
    (∃ (s : State) (w : BitVec 7), awake s.dev 2 = true ∧ flag s.dev (fWinBusy w.toNat) = false ∧ flag s.dev (fQuiesced 2) = false ∧ selOk s.dev w.toNat = true ∧ hot s.dev (winRecs s.dev w.toNat 1) ∧ linesOpen s.dev (winLines s.dev w.toNat 1) ∧ ((flag s.dev (fWinAny w.toNat) = true ∨ selGen s.dev w.toNat = fld s.dev (fWinGen w.toNat)))) ∧
    (∃ (s : State) (w : BitVec 7), awake s.dev 2 = true ∧ flag s.dev (fWinBusy w.toNat) = false ∧ flag s.dev (fQuiesced 2) = false ∧ selOk s.dev w.toNat = true ∧ hot s.dev (winRecs s.dev w.toNat 1) ∧ linesOpen s.dev (winLines s.dev w.toNat 1) ∧ flag s.dev (fWinAny w.toNat) = false ∧ selGen s.dev w.toNat ≠ fld s.dev (fWinGen w.toNat)) ∧
    (∃ (s : State) (w : BitVec 7), awake s.dev 2 = true ∧ flag s.dev (fWinBusy w.toNat) = false ∧ flag s.dev (fQuiesced 2) = false ∧ selOk s.dev w.toNat = false) :=
  ⟨⟨st (win0 0 1), 0, by simp only [hot, linesOpen]; decide⟩,
   ⟨st (win0 0 2), 0, by simp only [hot, linesOpen]; decide⟩,
   ⟨st (fs (win0 0 1) [(fWinTable 0, 15)]), 0, by decide⟩⟩

theorem wit_WindowWriteBerth :
    (∃ (s : State) (w : BitVec 7) (r : BerthRec), awake s.dev 2 = true ∧ flag s.dev (fWinBusy w.toNat) = false ∧ flag s.dev (fQuiesced 2) = false ∧ selOk s.dev w.toNat = true ∧ fld s.dev (fWinTable w.toNat) = 1 ∧ hot s.dev (winRecs s.dev w.toNat 2) ∧ linesOpen s.dev (winLines s.dev w.toNat 2) ∧ r = berthAt s.dev (fld s.dev (fWinIndex w.toNat)) ∧ flag s.dev (fWinAny w.toNat) = true) ∧
    (∃ (s : State) (w : BitVec 7) (r : BerthRec), awake s.dev 2 = true ∧ flag s.dev (fWinBusy w.toNat) = false ∧ flag s.dev (fQuiesced 2) = false ∧ selOk s.dev w.toNat = true ∧ fld s.dev (fWinTable w.toNat) = 1 ∧ hot s.dev (winRecs s.dev w.toNat 2) ∧ linesOpen s.dev (winLines s.dev w.toNat 2) ∧ r = berthAt s.dev (fld s.dev (fWinIndex w.toNat)) ∧ flag s.dev (fWinAny w.toNat) = false ∧ r.gen ≠ fld s.dev (fWinGen w.toNat)) ∧
    (∃ (s : State) (w : BitVec 7) (r : BerthRec), awake s.dev 2 = true ∧ flag s.dev (fWinBusy w.toNat) = false ∧ flag s.dev (fQuiesced 2) = false ∧ selOk s.dev w.toNat = true ∧ fld s.dev (fWinTable w.toNat) = 1 ∧ hot s.dev (winRecs s.dev w.toNat 2) ∧ linesOpen s.dev (winLines s.dev w.toNat 2) ∧ r = berthAt s.dev (fld s.dev (fWinIndex w.toNat)) ∧ flag s.dev (fWinAny w.toNat) = false ∧ r.gen = fld s.dev (fWinGen w.toNat) ∧ r.state = .live ∧ stg s.dev w.toNat 0 3 0 = 1 ∧ stg s.dev w.toNat 0 48 48 = 0 ∧ stgBerth s.dev w.toNat r = { r with pin := false, prio := stg s.dev w.toNat 0 47 46 }) :=
  ⟨⟨st (win0 1 1), 0, berthAt ((st (win0 1 1)) : State).dev (fld ((st (win0 1 1)) : State).dev (fWinIndex ((0) : BitVec 7).toNat)), by simp only [hot, linesOpen]; decide⟩,
   ⟨st (win0 0 2), 0, berthAt ((st (win0 0 2)) : State).dev (fld ((st (win0 0 2)) : State).dev (fWinIndex ((0) : BitVec 7).toNat)), by simp only [hot, linesOpen]; decide⟩,
   ⟨st (fs (win0 0 1) [(fWinData 0 0, (1 + 3 * 2 ^ 14 + 2 ^ 34 + 2 * 2 ^ 46)), (fWinData 0 1, 6), (fWinData 0 4, 4)]), 0, berthAt ((st (fs (win0 0 1) [(fWinData 0 0, (1 + 3 * 2 ^ 14 + 2 ^ 34 + 2 * 2 ^ 46)), (fWinData 0 1, 6), (fWinData 0 4, 4)])) : State).dev (fld ((st (fs (win0 0 1) [(fWinData 0 0, (1 + 3 * 2 ^ 14 + 2 ^ 34 + 2 * 2 ^ 46)), (fWinData 0 1, 6), (fWinData 0 4, 4)])) : State).dev (fWinIndex ((0) : BitVec 7).toNat)), by simp only [hot, linesOpen]; decide⟩⟩

theorem wit_WindowClear : ∃ (s : State) (w : BitVec 7), awake s.dev 2 = true ∧ flag s.dev (fWinBusy w.toNat) = false ∧ flag s.dev (fQuiesced 2) = false :=
  ⟨st up, 0, by decide⟩

theorem wit_WindowDone : ∃ (s : State) (w : BitVec 7) (op : Nat) (res : Nat) (dap : Bool) (sel : W64), awake s.dev 2 = true ∧ tfind s.dev.btc.win w.toNat = some (op, dap, sel, some res) ∧ res < 256 :=
  ⟨st { up with btc := { win := [(0, 1, false, 0, some 0)] } }, 0, 1, 0, false, 0, by decide⟩

theorem wit_DoorbellWrite :
    (∃ (s : State) (addr : BitVec 57) (be : BitVec 64) (data : BitVec 128), awake s.dev 1 = true ∧ doorbellForm addr be data ∧ crc32c (doorbellBytes data) = data.toNat / 2 ^ 96) ∧
    (∃ (s : State) (addr : BitVec 57) (be : BitVec 64) (data : BitVec 128), awake s.dev 1 = true ∧ doorbellForm addr be data ∧ crc32c (doorbellBytes data) ≠ data.toNat / 2 ^ 96) ∧
    (∃ (s : State) (addr : BitVec 57) (be : BitVec 64) (data : BitVec 128), awake s.dev 1 = true ∧ ¬ doorbellForm addr be data) :=
  ⟨⟨st up, 0x3000, 0xFFFF, BitVec.ofNat 128 (2883975448 * 2 ^ 96 + 2 ^ 32 + 2 ^ 22 + 5), by simp only [doorbellForm]; decide⟩,
   ⟨st up, 0x3000, 0xFFFF, 0, by simp only [doorbellForm]; decide⟩,
   ⟨st up, 0x3010, 0xFFFF, 0, by simp only [doorbellForm]; decide⟩⟩

theorem wit_DoorbellCheck :
    (∃ (s : State) (b : Doorbell) (rest : List Doorbell) (c : CtxRec) (r : BerthRec), awake s.dev 2 = true ∧ s.dev.hpu.toBtc = b :: rest ∧ hot s.dev [rCtx b.ctx, rBerth (berthIdx b.handle)] ∧ linesOpen s.dev (dbLines s.dev b) ∧ c = ctxAt s.dev b.ctx ∧ r = berthAt s.dev (berthIdx b.handle) ∧ (c.state ≠ .live ∨ berthOk s.dev b.handle = false)) ∧
    (∃ (s : State) (b : Doorbell) (rest : List Doorbell) (c : CtxRec) (r : BerthRec), awake s.dev 2 = true ∧ s.dev.hpu.toBtc = b :: rest ∧ hot s.dev [rCtx b.ctx, rBerth (berthIdx b.handle)] ∧ linesOpen s.dev (dbLines s.dev b) ∧ c = ctxAt s.dev b.ctx ∧ r = berthAt s.dev (berthIdx b.handle) ∧ c.state = .live ∧ berthOk s.dev b.handle = true ∧ ((r.ctxIdx ≠ b.ctx ∨ r.ctxGen ≠ c.gen))) ∧
    (∃ (s : State) (b : Doorbell) (rest : List Doorbell) (c : CtxRec) (r : BerthRec), awake s.dev 2 = true ∧ s.dev.hpu.toBtc = b :: rest ∧ hot s.dev [rCtx b.ctx, rBerth (berthIdx b.handle)] ∧ linesOpen s.dev (dbLines s.dev b) ∧ c = ctxAt s.dev b.ctx ∧ r = berthAt s.dev (berthIdx b.handle) ∧ c.state = .live ∧ berthOk s.dev b.handle = true ∧ r.ctxIdx = b.ctx ∧ r.ctxGen = c.gen ∧ r.state = .draining) ∧
    (∃ (s : State) (b : Doorbell) (rest : List Doorbell) (c : CtxRec) (r : BerthRec), awake s.dev 2 = true ∧ s.dev.hpu.toBtc = b :: rest ∧ hot s.dev [rCtx b.ctx, rBerth (berthIdx b.handle)] ∧ linesOpen s.dev (dbLines s.dev b) ∧ c = ctxAt s.dev b.ctx ∧ r = berthAt s.dev (berthIdx b.handle) ∧ c.state = .live ∧ berthOk s.dev b.handle = true ∧ r.ctxIdx = b.ctx ∧ r.ctxGen = c.gen ∧ r.state = .halted) ∧
    (∃ (s : State) (b : Doorbell) (rest : List Doorbell) (c : CtxRec) (r : BerthRec), awake s.dev 2 = true ∧ s.dev.hpu.toBtc = b :: rest ∧ hot s.dev [rCtx b.ctx, rBerth (berthIdx b.handle)] ∧ linesOpen s.dev (dbLines s.dev b) ∧ c = ctxAt s.dev b.ctx ∧ r = berthAt s.dev (berthIdx b.handle) ∧ c.state = .live ∧ berthOk s.dev b.handle = true ∧ r.ctxIdx = b.ctx ∧ r.ctxGen = c.gen ∧ r.state = .live ∧ ((b.prod + 2 ^ 32 - r.prod) % 2 ^ 32 = 0 ∨ 2 ^ 31 ≤ (b.prod + 2 ^ 32 - r.prod) % 2 ^ 32)) ∧
    (∃ (s : State) (b : Doorbell) (rest : List Doorbell) (c : CtxRec) (r : BerthRec), awake s.dev 2 = true ∧ s.dev.hpu.toBtc = b :: rest ∧ hot s.dev [rCtx b.ctx, rBerth (berthIdx b.handle)] ∧ linesOpen s.dev (dbLines s.dev b) ∧ c = ctxAt s.dev b.ctx ∧ r = berthAt s.dev (berthIdx b.handle) ∧ c.state = .live ∧ berthOk s.dev b.handle = true ∧ r.ctxIdx = b.ctx ∧ r.ctxGen = c.gen ∧ r.state = .live ∧ 0 < (b.prod + 2 ^ 32 - r.prod) % 2 ^ 32 ∧ (b.prod + 2 ^ 32 - r.prod) % 2 ^ 32 < 2 ^ 31 ∧ 2 ^ r.ringLog2 < (b.prod + 2 ^ 32 - r.done) % 2 ^ 32) ∧
    (∃ (s : State) (b : Doorbell) (rest : List Doorbell) (c : CtxRec) (r : BerthRec), awake s.dev 2 = true ∧ s.dev.hpu.toBtc = b :: rest ∧ hot s.dev [rCtx b.ctx, rBerth (berthIdx b.handle)] ∧ linesOpen s.dev (dbLines s.dev b) ∧ c = ctxAt s.dev b.ctx ∧ r = berthAt s.dev (berthIdx b.handle) ∧ c.state = .live ∧ berthOk s.dev b.handle = true ∧ r.ctxIdx = b.ctx ∧ r.ctxGen = c.gen ∧ r.state = .live ∧ 0 < (b.prod + 2 ^ 32 - r.prod) % 2 ^ 32 ∧ (b.prod + 2 ^ 32 - r.prod) % 2 ^ 32 < 2 ^ 31 ∧ (b.prod + 2 ^ 32 - r.done) % 2 ^ 32 ≤ 2 ^ r.ringLog2) :=
  ⟨⟨bell { db 1 with handle := 5 }, { db 1 with handle := 5 }, [], ctxAt ((bell { db 1 with handle := 5 }) : State).dev (({ db 1 with handle := 5 }) : Doorbell).ctx, berthAt ((bell { db 1 with handle := 5 }) : State).dev (berthIdx (({ db 1 with handle := 5 }) : Doorbell).handle), by simp only [hot, linesOpen]; decide⟩,
   ⟨bell (db 1) (home up ctxR { berR with ctxGen := 2 }), db 1, [], ctxAt ((bell (db 1) (home up ctxR { berR with ctxGen := 2 })) : State).dev ((db 1) : Doorbell).ctx, berthAt ((bell (db 1) (home up ctxR { berR with ctxGen := 2 })) : State).dev (berthIdx ((db 1) : Doorbell).handle), by simp only [hot, linesOpen]; decide⟩,
   ⟨bell (db 1) (home up ctxR { berR with state := .draining }), db 1, [], ctxAt ((bell (db 1) (home up ctxR { berR with state := .draining })) : State).dev ((db 1) : Doorbell).ctx, berthAt ((bell (db 1) (home up ctxR { berR with state := .draining })) : State).dev (berthIdx ((db 1) : Doorbell).handle), by simp only [hot, linesOpen]; decide⟩,
   ⟨bell (db 1) (home up ctxR { berR with state := .halted }), db 1, [], ctxAt ((bell (db 1) (home up ctxR { berR with state := .halted })) : State).dev ((db 1) : Doorbell).ctx, berthAt ((bell (db 1) (home up ctxR { berR with state := .halted })) : State).dev (berthIdx ((db 1) : Doorbell).handle), by simp only [hot, linesOpen]; decide⟩,
   ⟨bell (db (2 ^ 31)), db (2 ^ 31), [], ctxAt ((bell (db (2 ^ 31))) : State).dev ((db (2 ^ 31)) : Doorbell).ctx, berthAt ((bell (db (2 ^ 31))) : State).dev (berthIdx ((db (2 ^ 31)) : Doorbell).handle), by simp only [hot, linesOpen]; decide⟩,
   ⟨bell (db 65), db 65, [], ctxAt ((bell (db 65)) : State).dev ((db 65) : Doorbell).ctx, berthAt ((bell (db 65)) : State).dev (berthIdx ((db 65) : Doorbell).handle), by simp only [hot, linesOpen]; decide⟩,
   ⟨bell (db 64), db 64, [], ctxAt ((bell (db 64)) : State).dev ((db 64) : Doorbell).ctx, berthAt ((bell (db 64)) : State).dev (berthIdx ((db 64) : Doorbell).handle), by simp only [hot, linesOpen]; decide⟩⟩

theorem wit_StashWrite :
    (∃ (s : State) (target : BitVec 2) (line : Line), target ≠ 0 ∧ awake s.dev 1 = true ∧ awake s.dev 3 = true ∧ s.dev.mfu.stashEn = true ∧ lineCrcOk line = true ∧ s.dev.mfu.stash.length < s.dev.mfu.stashMax * 1024) ∧
    (∃ (s : State) (target : BitVec 2) (line : Line), target ≠ 0 ∧ awake s.dev 1 = true ∧ awake s.dev 3 = true ∧ s.dev.mfu.stashEn = true ∧ lineCrcOk line = false) :=
  ⟨⟨st { up with mfu := { stashEn := true, stashMax := 1 } }, 1, goodLine, by decide⟩,
   ⟨st { up with mfu := { stashEn := true, stashMax := 1 } }, 1, 1, by decide⟩⟩

theorem wit_BerthWake :
    (∃ (s : State) (b : Nat) (hint : Nat) (rest : List MfuMsg), awake s.dev 3 = true ∧ s.dev.btc.toMfu = .wake b hint :: rest ∧ flag s.dev (fQuiesced 3) = false ∧ s.dev.mfu.fetches.length < 1024 ∧ pushAhead s.dev b = false ∧ (berthAt s.dev b).state ≠ .halted) ∧
    (∃ (s : State) (b : Nat) (hint : Nat) (rest : List MfuMsg), awake s.dev 3 = true ∧ s.dev.btc.toMfu = .wake b hint :: rest ∧ flag s.dev (fQuiesced 3) = false ∧ s.dev.mfu.fetches.length < 1024 ∧ pushAhead s.dev b = false ∧ (berthAt s.dev b).state = .halted) ∧
    (∃ (s : State) (b : Nat) (hint : Nat) (rest : List MfuMsg), awake s.dev 3 = true ∧ s.dev.btc.toMfu = .wake b hint :: rest ∧ (flag s.dev (fQuiesced 3) = true ∨ 1024 ≤ s.dev.mfu.fetches.length ∨ pushAhead s.dev b = true)) :=
  ⟨⟨st { up with btc := { toMfu := [.wake 5 1] } }, 5, 1, [], by decide⟩,
   ⟨waking, 5, 1, [], by decide⟩,
   ⟨st { up with btc := { toMfu := [.wake 5 1] }, mfu := { fetches := List.replicate 1024 fetch0 } }, 5, 1, [], by decide⟩⟩

theorem wit_FetchWindow :
    (∃ (s : State) (b : BitVec 22) (f : Fetch) (r : BerthRec) (c : CtxRec), awake s.dev 3 = true ∧ s.dev.mfu.fetches = [f] ∧ f.berth = b.toNat ∧ f.lines = [] ∧ f.halting = false ∧ f.idleSent = false ∧ s.dev.mfu.stash = [] ∧ r = berthAt s.dev b.toNat ∧ c = ctxAt s.dev r.ctxIdx ∧ flag s.dev (fQreq 3) = true) ∧
    (∃ (s : State) (b : BitVec 22) (f : Fetch) (r : BerthRec) (c : CtxRec), awake s.dev 3 = true ∧ s.dev.mfu.fetches = [f] ∧ f.berth = b.toNat ∧ f.lines = [] ∧ f.halting = false ∧ f.idleSent = false ∧ s.dev.mfu.stash = [] ∧ r = berthAt s.dev b.toNat ∧ c = ctxAt s.dev r.ctxIdx ∧ flag s.dev (fQreq 3) = false ∧ 0 < (f.upTo + 2 ^ 32 - f.next) % 2 ^ 32) :=
  ⟨⟨st (fs (fetching fetch0) [(fQreq 3, 1)]), 5, fetch0, berthAt ((st (fs (fetching fetch0) [(fQreq 3, 1)])) : State).dev ((5) : BitVec 22).toNat, ctxAt ((st (fs (fetching fetch0) [(fQreq 3, 1)])) : State).dev ((berthAt ((st (fs (fetching fetch0) [(fQreq 3, 1)])) : State).dev ((5) : BitVec 22).toNat) : BerthRec).ctxIdx, by decide⟩,
   ⟨st (fetching fetch0), 5, fetch0, berthAt ((st (fetching fetch0)) : State).dev ((5) : BitVec 22).toNat, ctxAt ((st (fetching fetch0)) : State).dev ((berthAt ((st (fetching fetch0)) : State).dev ((5) : BitVec 22).toNat) : BerthRec).ctxIdx, by decide⟩⟩

theorem wit_LineResponse :
    (∃ (s : State) (b : BitVec 22) (i : BitVec 32) (j : BitVec 32) (line : Line) (f : Fetch) (m : Manifest) (rest : List (Nat × LineSt)) (r : BerthRec) (c : CtxRec), r = berthAt s.dev b.toNat ∧ c = ctxAt s.dev r.ctxIdx ∧ awake s.dev 3 = true ∧ s.dev.mfu.fetches = [f] ∧ f.berth = b.toNat ∧ f.halting = false ∧ f.lines = (i.toNat, .asked) :: (j.toNat, .asked) :: rest ∧ i ≠ j ∧ s.dev.mfu.mans = [m] ∧ m.berthIdx = b.toNat ∧ m.st = .staging ∧ m.lines.length < m.lineCount ∧ lineCrcOk line = true) ∧
    (∃ (s : State) (b : BitVec 22) (i : BitVec 32) (j : BitVec 32) (line : Line) (f : Fetch) (m : Manifest) (rest : List (Nat × LineSt)) (r : BerthRec) (c : CtxRec), r = berthAt s.dev b.toNat ∧ c = ctxAt s.dev r.ctxIdx ∧ awake s.dev 3 = true ∧ s.dev.mfu.fetches = [f] ∧ f.berth = b.toNat ∧ f.halting = false ∧ f.lines = (i.toNat, .asked) :: (j.toNat, .asked) :: rest ∧ i ≠ j ∧ s.dev.mfu.mans = [m] ∧ m.berthIdx = b.toNat ∧ m.st = .staging ∧ m.lines.length < m.lineCount ∧ lineCrcOk line = false) :=
  ⟨⟨st (fetching { fetch0 with lines := [(1, .asked), (2, .asked)] }), 5, 1, 2, goodLine, { fetch0 with lines := [(1, .asked), (2, .asked)] }, man0, [], berthAt ((st (fetching { fetch0 with lines := [(1, .asked), (2, .asked)] })) : State).dev ((5) : BitVec 22).toNat, ctxAt ((st (fetching { fetch0 with lines := [(1, .asked), (2, .asked)] })) : State).dev ((berthAt ((st (fetching { fetch0 with lines := [(1, .asked), (2, .asked)] })) : State).dev ((5) : BitVec 22).toNat) : BerthRec).ctxIdx, by decide⟩,
   ⟨st (fetching { fetch0 with lines := [(1, .asked), (2, .asked)] }), 5, 1, 2, 1, { fetch0 with lines := [(1, .asked), (2, .asked)] }, man0, [], berthAt ((st (fetching { fetch0 with lines := [(1, .asked), (2, .asked)] })) : State).dev ((5) : BitVec 22).toNat, ctxAt ((st (fetching { fetch0 with lines := [(1, .asked), (2, .asked)] })) : State).dev ((berthAt ((st (fetching { fetch0 with lines := [(1, .asked), (2, .asked)] })) : State).dev ((5) : BitVec 22).toNat) : BerthRec).ctxIdx, by decide⟩⟩

theorem wit_IdleCheck :
    (∃ (s : State) (b : BitVec 22) (f : Nat) (r : Nat) (x : BerthRec), awake s.dev 2 = true ∧ s.dev.mfu.idle = [(b.toNat, f, r)] ∧ hot s.dev (berthRecs s.dev b.toNat) ∧ linesOpen s.dev [(true, berthLine s.dev b.toNat 0), (true, berthLine s.dev b.toNat 1)] ∧ x = berthAt s.dev b.toNat ∧ (x.state = .halted ∨ (x.state = .live ∧ x.prod = f))) ∧
    (∃ (s : State) (b : BitVec 22) (f : Nat) (r : Nat) (x : BerthRec), awake s.dev 2 = true ∧ s.dev.mfu.idle = [(b.toNat, f, r)] ∧ hot s.dev (berthRecs s.dev b.toNat) ∧ linesOpen s.dev [(true, berthLine s.dev b.toNat 0), (true, berthLine s.dev b.toNat 1)] ∧ x = berthAt s.dev b.toNat ∧ x.state = .live ∧ x.prod ≠ f) :=
  ⟨⟨st { home with mfu := { idle := [(5, 0, 0)] } }, 5, 0, 0, berthAt ((st { home with mfu := { idle := [(5, 0, 0)] } }) : State).dev ((5) : BitVec 22).toNat, by simp only [hot, linesOpen]; decide⟩,
   ⟨st { home up ctxR { berR with prod := 4 } with mfu := { idle := [(5, 0, 0)] } }, 5, 0, 0, berthAt ((st { home up ctxR { berR with prod := 4 } with mfu := { idle := [(5, 0, 0)] } }) : State).dev ((5) : BitVec 22).toNat, by simp only [hot, linesOpen]; decide⟩⟩

theorem wit_FetchReply :
    (∃ (s : State), awake s.dev 3 = true ∧ flag s.dev (fQuiesced 3) = true) ∧
    (∃ (s : State) (b : Nat) (rest : List MfuMsg), awake s.dev 3 = true ∧ flag s.dev (fQuiesced 3) = false ∧ s.dev.btc.toMfu = .close b :: rest) ∧
    (∃ (s : State) (b : Nat) (prod : Nat) (rest : List MfuMsg), awake s.dev 3 = true ∧ flag s.dev (fQuiesced 3) = false ∧ s.dev.btc.toMfu = .cont b prod :: rest) :=
  ⟨⟨st (fs up [(fQuiesced 3, 1)]), by decide⟩,
   ⟨st { up with btc := { toMfu := [.close 5] } }, 5, [], by decide⟩,
   ⟨st { up with btc := { toMfu := [.cont 5 9] } }, 5, 9, [], by decide⟩⟩

def sight (st : ManSt) : Manifest := { man0 with st := st }
/-- A translation of the manifest's key, and the entry that serves it. -/
def xl (p : Option Nat) : Xlate := { berth := 5, hash := 0, domain := .pid 2, pilot := p, harbourOpen := true, lines := 2, checked := false, own := false, refused := none }
def ent (c : Bool) : XcEntry := { num := 0, hash := 0, domain := .pid 2, epoch := curEpoch up, catVer := curCatVer up, lines := 2, refused := none, checked := false, inUse := 0, onChip := c, harbour := true, lastUse := 0 }
def xcDev (p : Plx) (l : List Manifest) (d : Dev := home) : Dev := { d with plx := p, mfu := { mans := l } }
def jDev (n dur : Nat) (d : Dev := home) : Dev := { d with lbu := { nextLsn := n, durable := dur } }
def shOp : CmdOp := .signalHost 0x1000 7 true

theorem wit_XcLookup :
    (∃ (s : State) (b : Nat) (h : Nat) (rest : List (Nat × Nat)) (m : Manifest) (e : _), awake s.dev 4 = true ∧ s.dev.plx.sights = (b, h) :: rest ∧ s.dev.mfu.mans = [m] ∧ m.berthIdx = b ∧ m.headIdx = h ∧ m.st = .looking ∧ (findEntry s.dev.plx.entries (fun e => e.onChip && e.matches s.dev m.hash (domainOf s.dev m.ctx)) = some e) ∧ sightBreach m.lines e.refused = none) ∧
    (∃ (s : State) (b : Nat) (h : Nat) (rest : List (Nat × Nat)) (m : Manifest) (e : _) (x : _), awake s.dev 4 = true ∧ s.dev.plx.sights = (b, h) :: rest ∧ s.dev.mfu.mans = [m] ∧ m.berthIdx = b ∧ m.headIdx = h ∧ m.st = .looking ∧ (findEntry s.dev.plx.entries (fun e => e.onChip && e.matches s.dev m.hash (domainOf s.dev m.ctx)) = some e) ∧ sightBreach m.lines e.refused = some x) ∧
    (∃ (s : State) (b : Nat) (h : Nat) (rest : List (Nat × Nat)) (m : Manifest), awake s.dev 4 = true ∧ s.dev.plx.sights = (b, h) :: rest ∧ s.dev.mfu.mans = [m] ∧ m.berthIdx = b ∧ m.headIdx = h ∧ m.st = .looking ∧ (findEntry s.dev.plx.entries (fun e => e.onChip && e.matches s.dev m.hash (domainOf s.dev m.ctx)) = none) ∧ inFlight s.dev m.hash (domainOf s.dev m.ctx) = false ∧ freePilot s.dev = none) :=
  ⟨⟨st (xcDev { sights := [(5, 0)], entries := [ent true] } [sight .looking]), 5, 0, [], sight .looking, ent true, by exact ⟨by decide, rfl, rfl, rfl, rfl, rfl, by simp [findEntry, XcEntry.matches, st, xcDev, sight, man0, home, up, ent, curEpoch, curCatVer, domainOf, ctxAt, tget, tfind, hCtx, ctxHandle, ctxIdx, ctxR], by decide⟩⟩,
   ⟨st (xcDev { sights := [(5, 0)], entries := [{ ent true with refused := some (3, 1) }] } [sight .looking]), 5, 0, [], sight .looking, { ent true with refused := some (3, 1) }, (3, 1), by exact ⟨by decide, rfl, rfl, rfl, rfl, rfl, by simp [findEntry, XcEntry.matches, st, xcDev, sight, man0, home, up, ent, curEpoch, curCatVer, domainOf, ctxAt, tget, tfind, hCtx, ctxHandle, ctxIdx, ctxR], by decide⟩⟩,
   ⟨st (xcDev { sights := [(5, 0)] } [sight .looking] (fs home [(fPilotOut, 0xFF)])), 5, 0, [], sight .looking, by decide⟩⟩

theorem wit_XcHarbourAnswer :
    (∃ (s : State) (b : BitVec 22) (x : Xlate), awake s.dev 4 = true ∧ s.dev.plx.queue = [x] ∧ x.berth = b.toNat ∧ x.harbourOpen = true ∧ (findEntry s.dev.plx.entries (fun e => e.harbour && e.matches s.dev x.hash x.domain) = none)) ∧
    (∃ (s : State) (b : BitVec 22) (x : Xlate) (e : _), awake s.dev 4 = true ∧ s.dev.plx.queue = [x] ∧ x.berth = b.toNat ∧ x.harbourOpen = true ∧ s.dev.plx.entries = [e] ∧ e.harbour = true ∧ e.matches s.dev x.hash x.domain = true ∧ e.onChip = false ∧ e.bytes ≤ 65536 ∧ ((∀ m ∈ s.dev.mfu.mans, m.st ≠ .translating))) :=
  ⟨⟨st (xcDev { queue := [xl none] } []), 5, xl none, by decide⟩,
   ⟨st (xcDev { queue := [xl none], entries := [ent false] } []), 5, xl none, ent false, by exact ⟨by decide, rfl, rfl, rfl, rfl, rfl, by simp [XcEntry.matches, st, xcDev, ent, xl, home, up, curEpoch, curCatVer], rfl, by decide, by decide⟩⟩⟩

theorem wit_TranslationDone : ∃ (s : State) (p : BitVec 3) (x : Xlate), awake s.dev 4 = true ∧ s.dev.plx.queue = [x] ∧ x.pilot = some p.toNat ∧ pilotRuns s.dev p.toNat = true ∧ s.dev.plx.entries = [] ∧ ((∀ m ∈ s.dev.mfu.mans, m.st ≠ .translating)) ∧ ((if x.refused.isSome then 64 else 64 + 192 * x.lines) ≤ s.dev.scu.cfg.xcHarbour) ∧ mirrorSt s.dev 0 ≠ 1 ∧ mirrorSt s.dev 1 ≠ 1 :=
  ⟨st (xcDev { queue := [xl (some 2)] } []), 2, xl (some 2), by decide⟩

theorem wit_TranslationRestart :
    (∃ (s : State) (p : BitVec 3) (e : Dev), awake s.dev 4 = true ∧ (e = modPlx s.dev (fun q => { q with queue := q.queue.map (unpiloted p.toNat) })) ∧ ((fbit s.dev fPilotOut p.toNat = true ∨ (at' {} s.dev.dtc.pilots p.toNat).reset = true)) ∧ freePilot e = none) ∧
    (∃ (s : State) (p : BitVec 3) (e : Dev), awake s.dev 4 = true ∧ (e = modPlx s.dev (fun q => { q with queue := q.queue.map (unpiloted p.toNat) })) ∧ fbit s.dev fPilotOut p.toNat = false ∧ (at' {} s.dev.dtc.pilots p.toNat).reset = false) :=
  ⟨⟨st (xcDev { queue := [xl (some 2)] } [] (fs home [(fPilotOut, 0xFF)])), 2, modPlx ((st (xcDev { queue := [xl (some 2)] } [] (fs home [(fPilotOut, 0xFF)]))) : State).dev (fun q => { q with queue := q.queue.map (unpiloted ((2) : BitVec 3).toNat) }), by decide⟩,
   ⟨st (xcDev { queue := [xl (some 2)] } []), 2, modPlx ((st (xcDev { queue := [xl (some 2)] } [])) : State).dev (fun q => { q with queue := q.queue.map (unpiloted ((2) : BitVec 3).toNat) }), by decide⟩⟩

theorem wit_XcFlush :
    (∃ (s : State), awake s.dev 4 = true ∧ flag s.dev fPlxFlush = false) ∧
    (∃ (s : State), awake s.dev 4 = true ∧ flag s.dev fPlxFlush = true) :=
  ⟨⟨st up, by decide⟩,
   ⟨st (fs up [(fPlxFlush, 1)]), by decide⟩⟩

theorem wit_ControlStoreError :
    (∃ (s : State) (q : BitVec 4), awake s.dev 8 = true ∧ fld s.dev (fTsqState q.toNat) = 1 ∧ flag s.dev (fErrValid (0x20 + q.toNat)) = false ∧ (seqAt s.dev q.toNat).jobs = [] ∧ (seqAt s.dev q.toNat).buf = []) ∧
    (∃ (s : State) (q : BitVec 4), awake s.dev 8 = true ∧ fld s.dev (fTsqState q.toNat) = 2) ∧
    (∃ (s : State) (q : BitVec 4), awake s.dev 8 = true ∧ fld s.dev (fTsqState q.toNat) ≠ 2) :=
  ⟨⟨st (fs up [(fTsqState 15, 1)]), 15, by decide⟩,
   ⟨st (fs up [(fTsqState 15, 2)]), 15, by decide⟩,
   ⟨st up, 15, by decide⟩⟩

theorem wit_AcceptRequest :
    (∃ (s : State) (b : Nat) (h : Nat) (rest : List (Nat × Nat)) (m : Manifest), awake s.dev 10 = true ∧ s.dev.plx.toLbu = (b, h) :: rest ∧ s.dev.mfu.mans = [m] ∧ m.berthIdx = b ∧ m.headIdx = h ∧ m.st = .requested ∧ hot s.dev (berthRecs s.dev b) ∧ homeOpen s.dev false (ctxLine s.dev (ctxIdx m.ctx) 0) = true ∧ (flag s.dev (fQreq 7) = true ∨ logLow s.dev = true)) ∧
    (∃ (s : State) (b : Nat) (h : Nat) (rest : List (Nat × Nat)) (m : Manifest), awake s.dev 10 = true ∧ s.dev.plx.toLbu = (b, h) :: rest ∧ s.dev.mfu.mans = [m] ∧ m.berthIdx = b ∧ m.headIdx = h ∧ m.st = .requested ∧ hot s.dev (berthRecs s.dev b) ∧ homeOpen s.dev false (ctxLine s.dev (ctxIdx m.ctx) 0) = true ∧ flag s.dev (fQreq 7) = false ∧ logLow s.dev = false ∧ ctxLive s.dev m.ctx = true ∧ berthOk s.dev m.berth = true) ∧
    (∃ (s : State) (b : Nat) (h : Nat) (rest : List (Nat × Nat)) (m : Manifest), awake s.dev 10 = true ∧ s.dev.plx.toLbu = (b, h) :: rest ∧ s.dev.mfu.mans = [m] ∧ m.berthIdx = b ∧ m.headIdx = h ∧ m.st = .requested ∧ hot s.dev (berthRecs s.dev b) ∧ homeOpen s.dev false (ctxLine s.dev (ctxIdx m.ctx) 0) = true ∧ flag s.dev (fQreq 7) = false ∧ logLow s.dev = false ∧ ((ctxLive s.dev m.ctx = false ∨ berthOk s.dev m.berth = false))) :=
  ⟨⟨st (xcDev { toLbu := [(5, 0)] } [sight .requested] (fs home [(fQreq 7, 1)])), 5, 0, [], sight .requested, by simp only [hot]; decide⟩,
   ⟨st (xcDev { toLbu := [(5, 0)] } [sight .requested]), 5, 0, [], sight .requested, by simp only [hot]; decide⟩,
   ⟨st (xcDev { toLbu := [(5, 0)] } [sight .requested] (home up { ctxR with state := .dying })), 5, 0, [], sight .requested, by simp only [hot]; decide⟩⟩

theorem wit_ManifestAccepted :
    (∃ (s : State) (b : AcceptEnd) (m : Manifest), awake s.dev 10 = true ∧ s.dev.mfu.mans = [m] ∧ m.berthIdx = b.berth.toNat ∧ m.st = .logged ∧ durableAt s.dev m.groupEnd = true ∧ ((b.acked = true ∨ m.fresh = false))) ∧
    (∃ (s : State) (b : AcceptEnd) (m : Manifest), awake s.dev 10 = true ∧ s.dev.mfu.mans = [m] ∧ m.berthIdx = b.berth.toNat ∧ m.st = .logged ∧ (durableAt s.dev m.groupEnd = false ∨ (b.acked = false ∧ m.fresh = true))) :=
  ⟨⟨st (xcDev {} [sight .logged] (jDev 2 2)), ⟨5, false⟩, sight .logged, by decide⟩,
   ⟨st (xcDev {} [{ sight .logged with fresh := true }] (jDev 2 2)), ⟨5, false⟩, { sight .logged with fresh := true }, by decide⟩⟩

theorem wit_LogUnitDurable :
    (∃ (s : State) (lsn : BitVec 64), awake s.dev 10 = true ∧ lsn.toNat < s.dev.lbu.nextLsn ∧ ((mirrorSt s.dev 0 = 0 ∨ mirrorSt s.dev 1 = 0)) ∧ s.dev.lbu.acked.contains lsn.toNat = false ∧ lsn.toNat = s.dev.lbu.durable ∧ s.dev.lbu.acked.contains (lsn.toNat + 1) = false) ∧
    (∃ (s : State) (lsn : BitVec 64), awake s.dev 10 = true ∧ lsn.toNat < s.dev.lbu.nextLsn ∧ ((mirrorSt s.dev 0 = 0 ∨ mirrorSt s.dev 1 = 0)) ∧ s.dev.lbu.acked.contains lsn.toNat = false ∧ s.dev.lbu.durable < lsn.toNat ∧ s.dev.lbu.acked.contains s.dev.lbu.durable = false) ∧
    (∃ (s : State) (lsn : BitVec 64), awake s.dev 10 = true ∧ lsn.toNat < s.dev.lbu.nextLsn ∧ ((mirrorSt s.dev 0 = 0 ∨ mirrorSt s.dev 1 = 0)) ∧ s.dev.lbu.acked.contains lsn.toNat = false ∧ lsn.toNat < s.dev.lbu.durable) :=
  ⟨⟨st (jDev 3 1), 1, by decide⟩,
   ⟨st (jDev 3 1), 2, by decide⟩,
   ⟨st (jDev 3 1), 0, by decide⟩⟩

theorem wit_CompleteDurable :
    (∃ (s : State) (x : Cmd) (l : Nat) (r : BerthRec) (c : CtxRec), awake s.dev 10 = true ∧ nextRing s.dev x.key.berth.toNat = some x ∧ x.completeLsn = some l ∧ x.berth = x.key.berth.toNat ∧ hot s.dev (berthRecs s.dev x.berth) ∧ r = berthAt s.dev x.berth ∧ c = ctxAt s.dev (ctxIdx x.ctx) ∧ durableAt s.dev l = true ∧ x.phase = .complete) ∧
    (∃ (s : State) (x : Cmd) (l : Nat) (r : BerthRec) (c : CtxRec), awake s.dev 10 = true ∧ nextRing s.dev x.key.berth.toNat = some x ∧ x.completeLsn = some l ∧ x.berth = x.key.berth.toNat ∧ hot s.dev (berthRecs s.dev x.berth) ∧ r = berthAt s.dev x.berth ∧ c = ctxAt s.dev (ctxIdx x.ctx) ∧ (durableAt s.dev l = false ∨ x.phase ≠ .complete)) :=
  ⟨⟨st (cmds [{ cmd0 with completeLsn := some 0, phase := .complete }] (jDev 1 1)), { cmd0 with completeLsn := some 0, phase := .complete }, 0, berthAt ((st (cmds [{ cmd0 with completeLsn := some 0, phase := .complete }] (jDev 1 1))) : State).dev (({ cmd0 with completeLsn := some 0, phase := .complete }) : Cmd).berth, ctxAt ((st (cmds [{ cmd0 with completeLsn := some 0, phase := .complete }] (jDev 1 1))) : State).dev (ctxIdx (({ cmd0 with completeLsn := some 0, phase := .complete }) : Cmd).ctx), by simp only [hot]; decide⟩,
   ⟨st (cmds [{ cmd0 with completeLsn := some 0, phase := .complete }] (jDev 1 0)), { cmd0 with completeLsn := some 0, phase := .complete }, 0, berthAt ((st (cmds [{ cmd0 with completeLsn := some 0, phase := .complete }] (jDev 1 0))) : State).dev (({ cmd0 with completeLsn := some 0, phase := .complete }) : Cmd).berth, ctxAt ((st (cmds [{ cmd0 with completeLsn := some 0, phase := .complete }] (jDev 1 0))) : State).dev (ctxIdx (({ cmd0 with completeLsn := some 0, phase := .complete }) : Cmd).ctx), by simp only [hot]; decide⟩⟩

theorem wit_CompletionRecordLost : ∃ (s : State) (addr : BitVec 57), awake s.dev 10 = true ∧ cplSent s.dev addr.toNat = true :=
  ⟨st { up with memOut := [.cplWrite 7 9 2 64 []] }, 64, by decide⟩

theorem wit_Checkpoint :
    (∃ (s : State), awake s.dev 10 = true ∧ loaded s.dev = true ∧ s.dev.scu.rst = .none ∧ s.dev.lbu.ckptStart = none ∧ (s.dev.lbu.lastCkpt + us s.dev.lbu.ckptUs ≤ s.dev.now ∨ logLow s.dev = true) ∧ s.dev.lbu.durable = s.dev.lbu.nextLsn) ∧
    (∃ (s : State), awake s.dev 10 = true ∧ loaded s.dev = true ∧ s.dev.scu.rst = .none ∧ s.dev.lbu.ckptStart = none ∧ (s.dev.lbu.lastCkpt + us s.dev.lbu.ckptUs ≤ s.dev.now ∨ logLow s.dev = true) ∧ s.dev.lbu.durable < s.dev.lbu.nextLsn) ∧
    (∃ (s : State), awake s.dev 10 = true ∧ loaded s.dev = true ∧ s.dev.scu.rst = .none ∧ s.dev.lbu.ckptStart = none ∧ s.dev.now < s.dev.lbu.lastCkpt + us s.dev.lbu.ckptUs ∧ logLow s.dev = false) :=
  ⟨⟨st { fs up [(fLoadState, 3)] with now := 100000000000 }, by decide⟩,
   ⟨st { fs (jDev 3 1) [(fLoadState, 3)] with now := 100000000000 }, by decide⟩,
   ⟨st { fs up [(fLoadState, 3)] with lbu := { ckptUs := 1 } }, by decide⟩⟩

theorem wit_Mirrors :
    (∃ (s : State) (m : Bool) (i : Nat), awake s.dev 10 = true ∧ (i = (if m then 1 else 0)) ∧ mirrorSt s.dev i = 0 ∧ spareFree s.dev = true ∧ mirrorSt s.dev (1 - i) = 0) ∧
    (∃ (s : State) (m : Bool) (i : Nat), awake s.dev 10 = true ∧ (i = (if m then 1 else 0)) ∧ mirrorSt s.dev i = 0 ∧ (spareFree s.dev = false ∨ mirrorSt s.dev (1 - i) ≠ 0)) ∧
    (∃ (s : State) (m : Bool) (i : Nat), awake s.dev 10 = true ∧ (i = (if m then 1 else 0)) ∧ mirrorSt s.dev i ≠ 0) ∧
    (∃ (s : State) (m : Bool) (i : Nat), awake s.dev 10 = true ∧ (i = (if m then 1 else 0)) ∧ mirrorSt s.dev 0 ≠ 2 ∧ mirrorSt s.dev 1 = 2 ∧ s.dev.lbu.place.length = 2 ∧ fld s.dev fLbuSpare < 16) :=
  ⟨⟨st (fs up [(fLbuSpare, 2)]), true, (if ((true) : Bool) then 1 else 0), by decide⟩,
   ⟨st up, true, (if ((true) : Bool) then 1 else 0), by decide⟩,
   ⟨st (fs up [(fLbuMirror 1, 1)]), true, (if ((true) : Bool) then 1 else 0), by decide⟩,
   ⟨st (fs up [(fLbuMirror 1, 2)]), false, (if ((false) : Bool) then 1 else 0), by decide⟩⟩

theorem wit_HarbourPoison :
    (∃ (s : State) (m : Bool) (i : Nat) (page : HarbourAt), awake s.dev 10 = true ∧ (i = (if m then 1 else 0)) ∧ mirrorSt s.dev i = 0 ∧ mirrorSt s.dev (1 - i) = 0 ∧ s.dev.lbu.history.contains (m, page.page.toNat) = false ∧ s.dev.lbu.history.length < 1024 ∧ flag s.dev (fErrValid 7) = false) ∧
    (∃ (s : State) (m : Bool) (i : Nat) (page : HarbourAt), awake s.dev 10 = true ∧ (i = (if m then 1 else 0)) ∧ mirrorSt s.dev i = 0 ∧ mirrorSt s.dev (1 - i) = 0 ∧ s.dev.lbu.history.contains (m, page.page.toNat) = true ∧ fld s.dev (fLbuRetired i) < 4095) ∧
    (∃ (s : State) (m : Bool) (i : Nat), awake s.dev 10 = true ∧ (i = (if m then 1 else 0)) ∧ mirrorSt s.dev (1 - i) ≠ 0 ∧ flag s.dev fMcValid = false) :=
  ⟨⟨st up, true, (if ((true) : Bool) then 1 else 0), ⟨9, 0⟩, by decide⟩,
   ⟨st { up with lbu := { history := [(true, 9)] } }, true, (if ((true) : Bool) then 1 else 0), ⟨9, 0⟩, by decide⟩,
   ⟨st (fs up [(fLbuMirror 1, 1)]), false, (if ((false) : Bool) then 1 else 0), by decide⟩⟩

theorem wit_Replay :
    (∃ (s : State) (p : HarbourAt) (other : MemResp) (n : Nat), awake s.dev 10 = true ∧ s.dev.scu.targetLater = none ∧ fld s.dev fLoadState = 2 ∧ s.dev.scu.rst = .none ∧ other ≠ .ok ∧ s.dev.lbu.tail ≤ n ∧ n < s.dev.lbu.nextLsn ∧ s.dev.lbu.nextLsn ≤ s.dev.lbu.tail + s.dev.scu.cfg.logUnits ∧ offUnit s.dev.scu.cfg n = p.page.toNat * 4096 + p.unit.toNat * 32 ∧ flag s.dev fMcValid = false) ∧
    (∃ (s : State), awake s.dev 10 = true ∧ s.dev.scu.targetLater = none ∧ (fld s.dev fLoadState ≠ 2 ∨ s.dev.scu.rst ≠ .none)) :=
  ⟨⟨st (fs (jDev 3 1) [(fLoadState, 2)]), ⟨BitVec.ofNat 32 ((offLog + 0x1000) / 4096), 2⟩, .poison, 2, by decide⟩,
   ⟨st up, by decide⟩⟩

theorem wit_CommandInterrupted :
    (∃ (s : State) (k : CmdId) (x : Cmd), awake s.dev 10 = true ∧ cmdAt s.dev k = some x ∧ x.phase = .interrupted ∧ ctxLive s.dev x.ctx = true ∧ hot s.dev (berthRecs s.dev x.berth) ∧ tilesOut s.dev k ≠ 0) ∧
    (∃ (s : State) (k : CmdId) (x : Cmd), awake s.dev 10 = true ∧ cmdAt s.dev k = some x ∧ x.phase = .interrupted ∧ ctxLive s.dev x.ctx = true ∧ hot s.dev (berthRecs s.dev x.berth) ∧ tilesOut s.dev k = 0 ∧ x.spec.replay = true) ∧
    (∃ (s : State) (k : CmdId) (x : Cmd), awake s.dev 10 = true ∧ cmdAt s.dev k = some x ∧ x.phase = .interrupted ∧ ctxLive s.dev x.ctx = true ∧ hot s.dev (berthRecs s.dev x.berth) ∧ tilesOut s.dev k = 0 ∧ x.spec.replay = false ∧ x.completeLsn = none) :=
  ⟨⟨st (outAt 0 (cmds [{ cmd0 with phase := .interrupted }])), k0, { cmd0 with phase := .interrupted }, by simp only [hot]; decide⟩,
   ⟨st (cmds [{ withOp (.launch lop) with phase := .interrupted, spec := { spec0 with op := .launch lop, replay := true } }]), k0, { withOp (.launch lop) with phase := .interrupted, spec := { spec0 with op := .launch lop, replay := true } }, by simp only [hot]; decide⟩,
   ⟨st (cmds [{ cmd0 with phase := .interrupted }]), k0, { cmd0 with phase := .interrupted }, by simp only [hot]; decide⟩⟩

theorem wit_SignalHost :
    (∃ (s : State) (k : CmdId) (x : Cmd) (va : Nat) (v : W64) (irq : Bool) (c : CtxRec), awake s.dev 10 = true ∧ cmdAt s.dev k = some x ∧ x.spec.op = .signalHost va v irq ∧ c = ctxAt s.dev (ctxIdx x.ctx) ∧ hot s.dev (berthRecs s.dev x.berth) ∧ x.phase = .issued ∧ x.spec.sigs = [] ∧ x.completeLsn = none ∧ x.status = none) ∧
    (∃ (s : State) (k : CmdId) (x : Cmd) (va : Nat) (v : W64) (irq : Bool) (c : CtxRec), awake s.dev 10 = true ∧ cmdAt s.dev k = some x ∧ x.spec.op = .signalHost va v irq ∧ c = ctxAt s.dev (ctxIdx x.ctx) ∧ hot s.dev (berthRecs s.dev x.berth) ∧ x.phase ≠ .issued ∧ x.skipped = true) ∧
    (∃ (s : State) (k : CmdId) (x : Cmd) (va : Nat) (v : W64) (irq : Bool) (c : CtxRec), awake s.dev 10 = true ∧ cmdAt s.dev k = some x ∧ x.spec.op = .signalHost va v irq ∧ c = ctxAt s.dev (ctxIdx x.ctx) ∧ hot s.dev (berthRecs s.dev x.berth) ∧ x.phase ≠ .issued ∧ x.status = some stOk ∧ x.ringDone = true ∧ x.skipped = false ∧ x.step = 0 ∧ ctxOk s.dev x.ctx = true ∧ tfind s.dev.btc.teardowns (ctxIdx x.ctx) = none) ∧
    (∃ (s : State) (k : CmdId) (x : Cmd) (va : Nat) (v : W64) (irq : Bool) (c : CtxRec), awake s.dev 10 = true ∧ cmdAt s.dev k = some x ∧ x.spec.op = .signalHost va v irq ∧ c = ctxAt s.dev (ctxIdx x.ctx) ∧ hot s.dev (berthRecs s.dev x.berth) ∧ x.phase ≠ .issued ∧ x.status = some stOk ∧ x.ringDone = true ∧ x.skipped = false ∧ x.step = 1 ∧ ((s.dev.mfu.mans.any fun m => m.berthIdx = x.berth && m.headIdx = x.headIdx) = true)) :=
  ⟨⟨st (cmds [{ withOp shOp with phase := .issued }]), k0, { withOp shOp with phase := .issued }, 0x1000, 7, true, ctxAt ((st (cmds [{ withOp shOp with phase := .issued }])) : State).dev (ctxIdx (({ withOp shOp with phase := .issued }) : Cmd).ctx), by simp only [hot]; decide⟩,
   ⟨st (cmds [{ withOp shOp with phase := .complete, skipped := true }]), k0, { withOp shOp with phase := .complete, skipped := true }, 0x1000, 7, true, ctxAt ((st (cmds [{ withOp shOp with phase := .complete, skipped := true }])) : State).dev (ctxIdx (({ withOp shOp with phase := .complete, skipped := true }) : Cmd).ctx), by simp only [hot]; decide⟩,
   ⟨st (cmds [{ withOp shOp with phase := .complete, status := some stOk, ringDone := true }]), k0, { withOp shOp with phase := .complete, status := some stOk, ringDone := true }, 0x1000, 7, true, ctxAt ((st (cmds [{ withOp shOp with phase := .complete, status := some stOk, ringDone := true }])) : State).dev (ctxIdx (({ withOp shOp with phase := .complete, status := some stOk, ringDone := true }) : Cmd).ctx), by simp only [hot]; decide⟩,
   ⟨st (xcDev {} [sight .accepted] (cmds [{ withOp shOp with phase := .complete, status := some stOk, ringDone := true, step := 1 }])), k0, { withOp shOp with phase := .complete, status := some stOk, ringDone := true, step := 1 }, 0x1000, 7, true, ctxAt ((st (xcDev {} [sight .accepted] (cmds [{ withOp shOp with phase := .complete, status := some stOk, ringDone := true, step := 1 }]))) : State).dev (ctxIdx (({ withOp shOp with phase := .complete, status := some stOk, ringDone := true, step := 1 }) : Cmd).ctx), by simp only [hot]; decide⟩⟩

theorem wit_HostWriteFail : ∃ (s : State) (k : CmdId) (x : Cmd) (va : Nat) (v : W64) (irq : Bool), awake s.dev 10 = true ∧ cmdAt s.dev k = some x ∧ x.spec.op = .signalHost va v irq ∧ x.step = 1 ∧ (ctxAt s.dev (ctxIdx x.ctx)).state = .live ∧ tfind s.dev.scu.slots x.berth = none ∧ flag s.dev (fErrValid 7) = false ∧ hot s.dev (berthRecs s.dev x.berth) ∧ (berthAt s.dev x.berth).state = .live :=
  ⟨st (cmds [{ withOp shOp with phase := .complete, status := some stOk, step := 1 }]), k0, { withOp shOp with phase := .complete, status := some stOk, step := 1 }, 0x1000, 7, true, by simp only [hot]; decide⟩

/-- A second command, of berth 6, and a block in which the scheduler may pick. -/
def k1 : CmdId := ⟨6, 1⟩
def cmd1 : Cmd := { cmd0 with key := k1, berth := 6 }
def hms (l : List Cmd) (d : Dev := home) : Dev :=
  sched { d with cmds := l, btc := { d.btc with berth := [(5, berR), (6, { berR with prio := 2 })], hotBerth := [5, 6] } }
def launch0 : Cmd := withOp (.launch lop)
def victim0 : Cmd := { withOp (.launch lop) cmd1 with phase := .issued, mask := [0], level := 2 }
def late (d : Dev) : Dev := { d with now := 10 ^ 12, tide := 10 ^ 12 }
def preDev : Dev := late (fs (hms [launch0, victim0] (atQuay 0 (fun u => { u with queue := [{ desc0 with cmd := k1 }] }) home)) [(fHmsPreemptEn, 1)])
/-- The victim still holds a save slot. -/
def preAgain (n : Nat) : Dev := late (fs (hms [launch0, { victim0 with saveSlot := some n }] (atQuay 0 (fun u => { u with queue := [{ desc0 with cmd := k1 }] }) home)) [(fHmsPreemptEn, 1)])
def lent0 : Cmd := { withOp (.launch lop) cmd1 with phase := .issued, mask := [0], level := 2 }

theorem wit_HmsPick : ∃ (s : State) (a : Cmd) (b : Cmd), awake s.dev 5 = true ∧ hmsMayPick s.dev = true ∧ ((s.dev.cmds = [a, b] ∨ s.dev.cmds = [b, a])) ∧ a.key ≠ b.key ∧ a.berth ≠ b.berth ∧ ready s.dev a = true ∧ ready s.dev b = true ∧ a.spec.op.sequenced = false ∧ b.spec.op.sequenced = false ∧ levelOf s.dev a < levelOf s.dev b ∧ levelOf s.dev b < 4 ∧ hot s.dev (berthRecs s.dev a.berth) ∧ pidOf s.dev a < 16 ∧ ((fld s.dev (fHmsWeight (pidOf s.dev a)) = 0 ∨ 0 < deficitAt s.dev (levelOf s.dev a) (pidOf s.dev a))) :=
  ⟨st (fs (hms [cmd0, cmd1]) [(fHmsWeight 2, 0)]), cmd0, cmd1, by simp only [hot]; decide⟩

theorem wit_HmsHeld : ∃ (s : State), awake s.dev 5 = true ∧ hmsMayPick s.dev = false :=
  ⟨st up, by decide⟩

theorem wit_PreemptDecision :
    (∃ (s : State) (k : CmdId) (c : Cmd) (v : Cmd), awake s.dev 5 = true ∧ cmdAt s.dev k = some c ∧ flag s.dev fHmsPreemptEn = true ∧ hmsMayPick s.dev = true ∧ waitsLong s.dev c = true ∧ pickVictim (victims s.dev c) = some v ∧ coveredCmds s.dev v.berth = [v] ∧ v.saveSlot = none ∧ s.dev.hms.save.length < 256 ∧ (ctxAt s.dev (ctxIdx v.ctx)).save.length < 64 ∧ cmdAt s.dev v.key = some v ∧ tfind s.dev.hms.save 0 = none) ∧
    (∃ (s : State) (k : CmdId) (c : Cmd) (v : Cmd) (n : _), awake s.dev 5 = true ∧ cmdAt s.dev k = some c ∧ flag s.dev fHmsPreemptEn = true ∧ hmsMayPick s.dev = true ∧ waitsLong s.dev c = true ∧ pickVictim (victims s.dev c) = some v ∧ coveredCmds s.dev v.berth = [v] ∧ v.saveSlot = some n ∧ s.dev.hms.save.length ≤ 256 ∧ (ctxAt s.dev (ctxIdx v.ctx)).save.length ≤ 64 ∧ cmdAt s.dev v.key = some v) ∧
    (∃ (s : State) (k : CmdId) (c : Cmd) (v : Cmd), awake s.dev 5 = true ∧ cmdAt s.dev k = some c ∧ flag s.dev fHmsPreemptEn = true ∧ hmsMayPick s.dev = true ∧ waitsLong s.dev c = true ∧ pickVictim (victims s.dev c) = some v ∧ coveredCmds s.dev v.berth = [v] ∧ v.saveSlot = none ∧ (256 ≤ s.dev.hms.save.length ∨ 64 ≤ (ctxAt s.dev (ctxIdx v.ctx)).save.length)) :=
  ⟨⟨st preDev, k0, launch0, victim0, by decide⟩,
   ⟨st (preAgain 7), k0, launch0, { victim0 with saveSlot := some 7 }, 7, by decide⟩,
   ⟨st { preDev with hms := { preDev.hms with save := (List.range 256).map fun i => (i, k1) } }, k0, launch0, victim0, by decide⟩⟩

theorem wit_PreemptComplete :
    (∃ (s : State) (c : Cmd) (c' : Cmd), awake s.dev 5 = true ∧ s.dev.cmds = [c] ∧ c.phase = .preempting ∧ c' = { c with phase := .preempted, readySince := s.dev.now, launched := false, listed := c.slices.flatMap (·.redo) } ∧ berthDrains s.dev c.berth .preempt = false ∧ tilesOut s.dev c.key = 0) ∧
    (∃ (s : State) (c : Cmd) (c' : Cmd), awake s.dev 5 = true ∧ s.dev.cmds = [c] ∧ c.phase = .preempting ∧ c' = { c with phase := .preempted, readySince := s.dev.now, launched := false, listed := c.slices.flatMap (·.redo) } ∧ (berthDrains s.dev c.berth .preempt = true ∨ tilesOut s.dev c.key ≠ 0)) :=
  ⟨⟨st (cmds [{ cmd0 with phase := .preempting }]), { cmd0 with phase := .preempting }, { (({ cmd0 with phase := .preempting }) : Cmd) with phase := .preempted, readySince := ((st (cmds [{ cmd0 with phase := .preempting }])) : State).dev.now, launched := false, listed := (({ cmd0 with phase := .preempting }) : Cmd).slices.flatMap (·.redo) }, by decide⟩,
   ⟨st (outAt 0 (cmds [{ cmd0 with phase := .preempting }])), { cmd0 with phase := .preempting }, { (({ cmd0 with phase := .preempting }) : Cmd) with phase := .preempted, readySince := ((st (outAt 0 (cmds [{ cmd0 with phase := .preempting }]))) : State).dev.now, launched := false, listed := (({ cmd0 with phase := .preempting }) : Cmd).slices.flatMap (·.redo) }, by decide⟩⟩

theorem wit_Reclaim :
    (∃ (s : State) (q : BitVec 6) (b : Nat), awake s.dev 5 = true ∧ q.toNat < 56 ∧ hmsMayPick s.dev = true ∧ fbit s.dev fHmsRsvQuays q.toNat = true ∧ wantedByZero s.dev q.toNat = true ∧ lentBerths s.dev q.toNat = [b] ∧ fld s.dev (fQptState q.toNat) = 1 ∧ (quayAt s.dev q.toNat).drains = [] ∧ s.dev.quays.length = 56) ∧
    (∃ (s : State) (q : BitVec 6), awake s.dev 5 = true ∧ q.toNat < 56 ∧ hmsMayPick s.dev = true ∧ (fbit s.dev fHmsRsvQuays q.toNat = false ∨ wantedByZero s.dev q.toNat = false)) :=
  ⟨⟨st (fs { hms [launch0, lent0] (atQuay 0 (fun u => { u with queue := [{ desc0 with cmd := k1 }] }) home) with btc := { (hms []).btc with berth := [(5, { berR with prio := 0 }), (6, { berR with prio := 2 })] } } [(fHmsRsvQuays, 1), (fQptState 0, 1)]), 0, 6, by decide⟩,
   ⟨st (hms []), 0, by decide⟩⟩

theorem wit_StallReport :
    (∃ (s : State) (b : BitVec 22) (c : Cmd), awake s.dev 5 = true ∧ flag s.dev fHmsBerthEn = true ∧ s.dev.cmds = [c] ∧ c.berth = b.toNat ∧ c.phase ≠ .complete ∧ max (tget {} s.dev.hms.stallB b.toNat).since s.dev.hms.stallFrom + fld s.dev fHmsStallMs * 1000000 ≤ s.dev.now ∧ (tget {} s.dev.hms.stallB b.toNat).reported = false) ∧
    (∃ (s : State) (b : BitVec 22) (c : Cmd), awake s.dev 5 = true ∧ flag s.dev fHmsBerthEn = true ∧ s.dev.cmds = [c] ∧ c.berth = b.toNat ∧ c.phase ≠ .complete ∧ max (tget {} s.dev.hms.stallB b.toNat).since s.dev.hms.stallFrom + fld s.dev fHmsStallMs * 1000000 ≤ s.dev.now ∧ (tget {} s.dev.hms.stallB b.toNat).reported = true) ∧
    (∃ (s : State) (q : BitVec 6), awake s.dev 5 = true ∧ q.toNat < 56 ∧ flag s.dev fHmsQuayEn = true ∧ (quayAt s.dev q.toNat).out ≠ [] ∧ max (tget {} s.dev.hms.stallQ q.toNat).since s.dev.hms.stallFrom + fld s.dev fHmsStallMs * 1000000 ≤ s.dev.now ∧ (tget {} s.dev.hms.stallQ q.toNat).reported = false) :=
  ⟨⟨st (fs (late (cmds [cmd0])) [(fHmsBerthEn, 1)]), 5, cmd0, by decide⟩,
   ⟨st (fs (late { cmds [cmd0] with hms := { stallB := [(5, { reported := true })] } }) [(fHmsBerthEn, 1)]), 5, cmd0, by decide⟩,
   ⟨st (fs (late (outAt 55 up)) [(fHmsQuayEn, 1)]), 55, by decide⟩⟩

theorem wit_CurrentSample :
    (∃ (s : State) (i : BitVec 16) (b0 : Nat) (b1 : Nat) (bm : Nat) (ticks : Nat) (st0 : Nat) (st1 : Nat) (lim : Nat) (l : Nat) (lo : Nat) (l1 : Nat), awake s.dev 5 = true ∧ s.dev.quays.length = 56 ∧ b0 = fld s.dev fHmsBudget * 8000 + s.dev.hms.frac ∧ bm = (fld s.dev fHmsIPeak - fld s.dev fHmsISus) * 10000 * 8000 ∧ ticks = tideW s.dev - s.dev.hms.lastSample ∧ b1 = min bm (b0 + 8 * fld s.dev fHmsISus * ticks - 8 * i.toNat * ticks) ∧ st0 = fld s.dev fHmsPaceState ∧ (st1 = (if st0 = 1 then (if bm ≤ 2 * b1 then 0 else 1) else if bm ≠ 0 ∧ b1 = 0 then 1 else 0)) ∧ (lim = (if st1 = 1 then fld s.dev fHmsISus else fld s.dev fHmsIPeak)) ∧ l = fld s.dev fHmsLambda ∧ lo = fld s.dev fHmsLambdaMin ∧ (l1 = (if lim < i.toNat ∨ fld s.dev fHmsIPeak < i.toNat then max lo (l - fld s.dev fHmsStepDn) else if i.toNat + 10 * fld s.dev fHmsHyst < lim then min 256 (max lo l + fld s.dev fHmsStepUp) else max lo l)) ∧ flag s.dev fHmsPaceEn = false) ∧
    (∃ (s : State) (i : BitVec 16) (b0 : Nat) (b1 : Nat) (bm : Nat) (ticks : Nat) (st0 : Nat) (st1 : Nat) (lim : Nat) (l : Nat) (lo : Nat) (l1 : Nat), awake s.dev 5 = true ∧ s.dev.quays.length = 56 ∧ b0 = fld s.dev fHmsBudget * 8000 + s.dev.hms.frac ∧ bm = (fld s.dev fHmsIPeak - fld s.dev fHmsISus) * 10000 * 8000 ∧ ticks = tideW s.dev - s.dev.hms.lastSample ∧ b1 = min bm (b0 + 8 * fld s.dev fHmsISus * ticks - 8 * i.toNat * ticks) ∧ st0 = fld s.dev fHmsPaceState ∧ (st1 = (if st0 = 1 then (if bm ≤ 2 * b1 then 0 else 1) else if bm ≠ 0 ∧ b1 = 0 then 1 else 0)) ∧ (lim = (if st1 = 1 then fld s.dev fHmsISus else fld s.dev fHmsIPeak)) ∧ l = fld s.dev fHmsLambda ∧ lo = fld s.dev fHmsLambdaMin ∧ (l1 = (if lim < i.toNat ∨ fld s.dev fHmsIPeak < i.toNat then max lo (l - fld s.dev fHmsStepDn) else if i.toNat + 10 * fld s.dev fHmsHyst < lim then min 256 (max lo l + fld s.dev fHmsStepUp) else max lo l)) ∧ flag s.dev fHmsPaceEn = true ∧ s.dev.hms.therm = 0) :=
  ⟨⟨st (fs (late up) [(fHmsIPeak, 900), (fHmsISus, 600), (fHmsPaceEn, 0)]), 700, fld ((st (fs (late up) [(fHmsIPeak, 900), (fHmsISus, 600), (fHmsPaceEn, 0)])) : State).dev fHmsBudget * 8000 + ((st (fs (late up) [(fHmsIPeak, 900), (fHmsISus, 600), (fHmsPaceEn, 0)])) : State).dev.hms.frac, min (((fld ((st (fs (late up) [(fHmsIPeak, 900), (fHmsISus, 600), (fHmsPaceEn, 0)])) : State).dev fHmsIPeak - fld ((st (fs (late up) [(fHmsIPeak, 900), (fHmsISus, 600), (fHmsPaceEn, 0)])) : State).dev fHmsISus) * 10000 * 8000) : Nat) (((fld ((st (fs (late up) [(fHmsIPeak, 900), (fHmsISus, 600), (fHmsPaceEn, 0)])) : State).dev fHmsBudget * 8000 + ((st (fs (late up) [(fHmsIPeak, 900), (fHmsISus, 600), (fHmsPaceEn, 0)])) : State).dev.hms.frac) : Nat) + 8 * fld ((st (fs (late up) [(fHmsIPeak, 900), (fHmsISus, 600), (fHmsPaceEn, 0)])) : State).dev fHmsISus * ((tideW ((st (fs (late up) [(fHmsIPeak, 900), (fHmsISus, 600), (fHmsPaceEn, 0)])) : State).dev - ((st (fs (late up) [(fHmsIPeak, 900), (fHmsISus, 600), (fHmsPaceEn, 0)])) : State).dev.hms.lastSample) : Nat) - 8 * ((700) : BitVec 16).toNat * ((tideW ((st (fs (late up) [(fHmsIPeak, 900), (fHmsISus, 600), (fHmsPaceEn, 0)])) : State).dev - ((st (fs (late up) [(fHmsIPeak, 900), (fHmsISus, 600), (fHmsPaceEn, 0)])) : State).dev.hms.lastSample) : Nat)), (fld ((st (fs (late up) [(fHmsIPeak, 900), (fHmsISus, 600), (fHmsPaceEn, 0)])) : State).dev fHmsIPeak - fld ((st (fs (late up) [(fHmsIPeak, 900), (fHmsISus, 600), (fHmsPaceEn, 0)])) : State).dev fHmsISus) * 10000 * 8000, tideW ((st (fs (late up) [(fHmsIPeak, 900), (fHmsISus, 600), (fHmsPaceEn, 0)])) : State).dev - ((st (fs (late up) [(fHmsIPeak, 900), (fHmsISus, 600), (fHmsPaceEn, 0)])) : State).dev.hms.lastSample, fld ((st (fs (late up) [(fHmsIPeak, 900), (fHmsISus, 600), (fHmsPaceEn, 0)])) : State).dev fHmsPaceState, (if ((fld ((st (fs (late up) [(fHmsIPeak, 900), (fHmsISus, 600), (fHmsPaceEn, 0)])) : State).dev fHmsPaceState) : Nat) = 1 then (if (((fld ((st (fs (late up) [(fHmsIPeak, 900), (fHmsISus, 600), (fHmsPaceEn, 0)])) : State).dev fHmsIPeak - fld ((st (fs (late up) [(fHmsIPeak, 900), (fHmsISus, 600), (fHmsPaceEn, 0)])) : State).dev fHmsISus) * 10000 * 8000) : Nat) ≤ 2 * ((min (((fld ((st (fs (late up) [(fHmsIPeak, 900), (fHmsISus, 600), (fHmsPaceEn, 0)])) : State).dev fHmsIPeak - fld ((st (fs (late up) [(fHmsIPeak, 900), (fHmsISus, 600), (fHmsPaceEn, 0)])) : State).dev fHmsISus) * 10000 * 8000) : Nat) (((fld ((st (fs (late up) [(fHmsIPeak, 900), (fHmsISus, 600), (fHmsPaceEn, 0)])) : State).dev fHmsBudget * 8000 + ((st (fs (late up) [(fHmsIPeak, 900), (fHmsISus, 600), (fHmsPaceEn, 0)])) : State).dev.hms.frac) : Nat) + 8 * fld ((st (fs (late up) [(fHmsIPeak, 900), (fHmsISus, 600), (fHmsPaceEn, 0)])) : State).dev fHmsISus * ((tideW ((st (fs (late up) [(fHmsIPeak, 900), (fHmsISus, 600), (fHmsPaceEn, 0)])) : State).dev - ((st (fs (late up) [(fHmsIPeak, 900), (fHmsISus, 600), (fHmsPaceEn, 0)])) : State).dev.hms.lastSample) : Nat) - 8 * ((700) : BitVec 16).toNat * ((tideW ((st (fs (late up) [(fHmsIPeak, 900), (fHmsISus, 600), (fHmsPaceEn, 0)])) : State).dev - ((st (fs (late up) [(fHmsIPeak, 900), (fHmsISus, 600), (fHmsPaceEn, 0)])) : State).dev.hms.lastSample) : Nat))) : Nat) then 0 else 1) else if (((fld ((st (fs (late up) [(fHmsIPeak, 900), (fHmsISus, 600), (fHmsPaceEn, 0)])) : State).dev fHmsIPeak - fld ((st (fs (late up) [(fHmsIPeak, 900), (fHmsISus, 600), (fHmsPaceEn, 0)])) : State).dev fHmsISus) * 10000 * 8000) : Nat) ≠ 0 ∧ ((min (((fld ((st (fs (late up) [(fHmsIPeak, 900), (fHmsISus, 600), (fHmsPaceEn, 0)])) : State).dev fHmsIPeak - fld ((st (fs (late up) [(fHmsIPeak, 900), (fHmsISus, 600), (fHmsPaceEn, 0)])) : State).dev fHmsISus) * 10000 * 8000) : Nat) (((fld ((st (fs (late up) [(fHmsIPeak, 900), (fHmsISus, 600), (fHmsPaceEn, 0)])) : State).dev fHmsBudget * 8000 + ((st (fs (late up) [(fHmsIPeak, 900), (fHmsISus, 600), (fHmsPaceEn, 0)])) : State).dev.hms.frac) : Nat) + 8 * fld ((st (fs (late up) [(fHmsIPeak, 900), (fHmsISus, 600), (fHmsPaceEn, 0)])) : State).dev fHmsISus * ((tideW ((st (fs (late up) [(fHmsIPeak, 900), (fHmsISus, 600), (fHmsPaceEn, 0)])) : State).dev - ((st (fs (late up) [(fHmsIPeak, 900), (fHmsISus, 600), (fHmsPaceEn, 0)])) : State).dev.hms.lastSample) : Nat) - 8 * ((700) : BitVec 16).toNat * ((tideW ((st (fs (late up) [(fHmsIPeak, 900), (fHmsISus, 600), (fHmsPaceEn, 0)])) : State).dev - ((st (fs (late up) [(fHmsIPeak, 900), (fHmsISus, 600), (fHmsPaceEn, 0)])) : State).dev.hms.lastSample) : Nat))) : Nat) = 0 then 1 else 0), (if (((if ((fld ((st (fs (late up) [(fHmsIPeak, 900), (fHmsISus, 600), (fHmsPaceEn, 0)])) : State).dev fHmsPaceState) : Nat) = 1 then (if (((fld ((st (fs (late up) [(fHmsIPeak, 900), (fHmsISus, 600), (fHmsPaceEn, 0)])) : State).dev fHmsIPeak - fld ((st (fs (late up) [(fHmsIPeak, 900), (fHmsISus, 600), (fHmsPaceEn, 0)])) : State).dev fHmsISus) * 10000 * 8000) : Nat) ≤ 2 * ((min (((fld ((st (fs (late up) [(fHmsIPeak, 900), (fHmsISus, 600), (fHmsPaceEn, 0)])) : State).dev fHmsIPeak - fld ((st (fs (late up) [(fHmsIPeak, 900), (fHmsISus, 600), (fHmsPaceEn, 0)])) : State).dev fHmsISus) * 10000 * 8000) : Nat) (((fld ((st (fs (late up) [(fHmsIPeak, 900), (fHmsISus, 600), (fHmsPaceEn, 0)])) : State).dev fHmsBudget * 8000 + ((st (fs (late up) [(fHmsIPeak, 900), (fHmsISus, 600), (fHmsPaceEn, 0)])) : State).dev.hms.frac) : Nat) + 8 * fld ((st (fs (late up) [(fHmsIPeak, 900), (fHmsISus, 600), (fHmsPaceEn, 0)])) : State).dev fHmsISus * ((tideW ((st (fs (late up) [(fHmsIPeak, 900), (fHmsISus, 600), (fHmsPaceEn, 0)])) : State).dev - ((st (fs (late up) [(fHmsIPeak, 900), (fHmsISus, 600), (fHmsPaceEn, 0)])) : State).dev.hms.lastSample) : Nat) - 8 * ((700) : BitVec 16).toNat * ((tideW ((st (fs (late up) [(fHmsIPeak, 900), (fHmsISus, 600), (fHmsPaceEn, 0)])) : State).dev - ((st (fs (late up) [(fHmsIPeak, 900), (fHmsISus, 600), (fHmsPaceEn, 0)])) : State).dev.hms.lastSample) : Nat))) : Nat) then 0 else 1) else if (((fld ((st (fs (late up) [(fHmsIPeak, 900), (fHmsISus, 600), (fHmsPaceEn, 0)])) : State).dev fHmsIPeak - fld ((st (fs (late up) [(fHmsIPeak, 900), (fHmsISus, 600), (fHmsPaceEn, 0)])) : State).dev fHmsISus) * 10000 * 8000) : Nat) ≠ 0 ∧ ((min (((fld ((st (fs (late up) [(fHmsIPeak, 900), (fHmsISus, 600), (fHmsPaceEn, 0)])) : State).dev fHmsIPeak - fld ((st (fs (late up) [(fHmsIPeak, 900), (fHmsISus, 600), (fHmsPaceEn, 0)])) : State).dev fHmsISus) * 10000 * 8000) : Nat) (((fld ((st (fs (late up) [(fHmsIPeak, 900), (fHmsISus, 600), (fHmsPaceEn, 0)])) : State).dev fHmsBudget * 8000 + ((st (fs (late up) [(fHmsIPeak, 900), (fHmsISus, 600), (fHmsPaceEn, 0)])) : State).dev.hms.frac) : Nat) + 8 * fld ((st (fs (late up) [(fHmsIPeak, 900), (fHmsISus, 600), (fHmsPaceEn, 0)])) : State).dev fHmsISus * ((tideW ((st (fs (late up) [(fHmsIPeak, 900), (fHmsISus, 600), (fHmsPaceEn, 0)])) : State).dev - ((st (fs (late up) [(fHmsIPeak, 900), (fHmsISus, 600), (fHmsPaceEn, 0)])) : State).dev.hms.lastSample) : Nat) - 8 * ((700) : BitVec 16).toNat * ((tideW ((st (fs (late up) [(fHmsIPeak, 900), (fHmsISus, 600), (fHmsPaceEn, 0)])) : State).dev - ((st (fs (late up) [(fHmsIPeak, 900), (fHmsISus, 600), (fHmsPaceEn, 0)])) : State).dev.hms.lastSample) : Nat))) : Nat) = 0 then 1 else 0)) : Nat) = 1 then fld ((st (fs (late up) [(fHmsIPeak, 900), (fHmsISus, 600), (fHmsPaceEn, 0)])) : State).dev fHmsISus else fld ((st (fs (late up) [(fHmsIPeak, 900), (fHmsISus, 600), (fHmsPaceEn, 0)])) : State).dev fHmsIPeak), fld ((st (fs (late up) [(fHmsIPeak, 900), (fHmsISus, 600), (fHmsPaceEn, 0)])) : State).dev fHmsLambda, fld ((st (fs (late up) [(fHmsIPeak, 900), (fHmsISus, 600), (fHmsPaceEn, 0)])) : State).dev fHmsLambdaMin, (if (((if (((if ((fld ((st (fs (late up) [(fHmsIPeak, 900), (fHmsISus, 600), (fHmsPaceEn, 0)])) : State).dev fHmsPaceState) : Nat) = 1 then (if (((fld ((st (fs (late up) [(fHmsIPeak, 900), (fHmsISus, 600), (fHmsPaceEn, 0)])) : State).dev fHmsIPeak - fld ((st (fs (late up) [(fHmsIPeak, 900), (fHmsISus, 600), (fHmsPaceEn, 0)])) : State).dev fHmsISus) * 10000 * 8000) : Nat) ≤ 2 * ((min (((fld ((st (fs (late up) [(fHmsIPeak, 900), (fHmsISus, 600), (fHmsPaceEn, 0)])) : State).dev fHmsIPeak - fld ((st (fs (late up) [(fHmsIPeak, 900), (fHmsISus, 600), (fHmsPaceEn, 0)])) : State).dev fHmsISus) * 10000 * 8000) : Nat) (((fld ((st (fs (late up) [(fHmsIPeak, 900), (fHmsISus, 600), (fHmsPaceEn, 0)])) : State).dev fHmsBudget * 8000 + ((st (fs (late up) [(fHmsIPeak, 900), (fHmsISus, 600), (fHmsPaceEn, 0)])) : State).dev.hms.frac) : Nat) + 8 * fld ((st (fs (late up) [(fHmsIPeak, 900), (fHmsISus, 600), (fHmsPaceEn, 0)])) : State).dev fHmsISus * ((tideW ((st (fs (late up) [(fHmsIPeak, 900), (fHmsISus, 600), (fHmsPaceEn, 0)])) : State).dev - ((st (fs (late up) [(fHmsIPeak, 900), (fHmsISus, 600), (fHmsPaceEn, 0)])) : State).dev.hms.lastSample) : Nat) - 8 * ((700) : BitVec 16).toNat * ((tideW ((st (fs (late up) [(fHmsIPeak, 900), (fHmsISus, 600), (fHmsPaceEn, 0)])) : State).dev - ((st (fs (late up) [(fHmsIPeak, 900), (fHmsISus, 600), (fHmsPaceEn, 0)])) : State).dev.hms.lastSample) : Nat))) : Nat) then 0 else 1) else if (((fld ((st (fs (late up) [(fHmsIPeak, 900), (fHmsISus, 600), (fHmsPaceEn, 0)])) : State).dev fHmsIPeak - fld ((st (fs (late up) [(fHmsIPeak, 900), (fHmsISus, 600), (fHmsPaceEn, 0)])) : State).dev fHmsISus) * 10000 * 8000) : Nat) ≠ 0 ∧ ((min (((fld ((st (fs (late up) [(fHmsIPeak, 900), (fHmsISus, 600), (fHmsPaceEn, 0)])) : State).dev fHmsIPeak - fld ((st (fs (late up) [(fHmsIPeak, 900), (fHmsISus, 600), (fHmsPaceEn, 0)])) : State).dev fHmsISus) * 10000 * 8000) : Nat) (((fld ((st (fs (late up) [(fHmsIPeak, 900), (fHmsISus, 600), (fHmsPaceEn, 0)])) : State).dev fHmsBudget * 8000 + ((st (fs (late up) [(fHmsIPeak, 900), (fHmsISus, 600), (fHmsPaceEn, 0)])) : State).dev.hms.frac) : Nat) + 8 * fld ((st (fs (late up) [(fHmsIPeak, 900), (fHmsISus, 600), (fHmsPaceEn, 0)])) : State).dev fHmsISus * ((tideW ((st (fs (late up) [(fHmsIPeak, 900), (fHmsISus, 600), (fHmsPaceEn, 0)])) : State).dev - ((st (fs (late up) [(fHmsIPeak, 900), (fHmsISus, 600), (fHmsPaceEn, 0)])) : State).dev.hms.lastSample) : Nat) - 8 * ((700) : BitVec 16).toNat * ((tideW ((st (fs (late up) [(fHmsIPeak, 900), (fHmsISus, 600), (fHmsPaceEn, 0)])) : State).dev - ((st (fs (late up) [(fHmsIPeak, 900), (fHmsISus, 600), (fHmsPaceEn, 0)])) : State).dev.hms.lastSample) : Nat))) : Nat) = 0 then 1 else 0)) : Nat) = 1 then fld ((st (fs (late up) [(fHmsIPeak, 900), (fHmsISus, 600), (fHmsPaceEn, 0)])) : State).dev fHmsISus else fld ((st (fs (late up) [(fHmsIPeak, 900), (fHmsISus, 600), (fHmsPaceEn, 0)])) : State).dev fHmsIPeak)) : Nat) < ((700) : BitVec 16).toNat ∨ fld ((st (fs (late up) [(fHmsIPeak, 900), (fHmsISus, 600), (fHmsPaceEn, 0)])) : State).dev fHmsIPeak < ((700) : BitVec 16).toNat then max ((fld ((st (fs (late up) [(fHmsIPeak, 900), (fHmsISus, 600), (fHmsPaceEn, 0)])) : State).dev fHmsLambdaMin) : Nat) (((fld ((st (fs (late up) [(fHmsIPeak, 900), (fHmsISus, 600), (fHmsPaceEn, 0)])) : State).dev fHmsLambda) : Nat) - fld ((st (fs (late up) [(fHmsIPeak, 900), (fHmsISus, 600), (fHmsPaceEn, 0)])) : State).dev fHmsStepDn) else if ((700) : BitVec 16).toNat + 10 * fld ((st (fs (late up) [(fHmsIPeak, 900), (fHmsISus, 600), (fHmsPaceEn, 0)])) : State).dev fHmsHyst < (((if (((if ((fld ((st (fs (late up) [(fHmsIPeak, 900), (fHmsISus, 600), (fHmsPaceEn, 0)])) : State).dev fHmsPaceState) : Nat) = 1 then (if (((fld ((st (fs (late up) [(fHmsIPeak, 900), (fHmsISus, 600), (fHmsPaceEn, 0)])) : State).dev fHmsIPeak - fld ((st (fs (late up) [(fHmsIPeak, 900), (fHmsISus, 600), (fHmsPaceEn, 0)])) : State).dev fHmsISus) * 10000 * 8000) : Nat) ≤ 2 * ((min (((fld ((st (fs (late up) [(fHmsIPeak, 900), (fHmsISus, 600), (fHmsPaceEn, 0)])) : State).dev fHmsIPeak - fld ((st (fs (late up) [(fHmsIPeak, 900), (fHmsISus, 600), (fHmsPaceEn, 0)])) : State).dev fHmsISus) * 10000 * 8000) : Nat) (((fld ((st (fs (late up) [(fHmsIPeak, 900), (fHmsISus, 600), (fHmsPaceEn, 0)])) : State).dev fHmsBudget * 8000 + ((st (fs (late up) [(fHmsIPeak, 900), (fHmsISus, 600), (fHmsPaceEn, 0)])) : State).dev.hms.frac) : Nat) + 8 * fld ((st (fs (late up) [(fHmsIPeak, 900), (fHmsISus, 600), (fHmsPaceEn, 0)])) : State).dev fHmsISus * ((tideW ((st (fs (late up) [(fHmsIPeak, 900), (fHmsISus, 600), (fHmsPaceEn, 0)])) : State).dev - ((st (fs (late up) [(fHmsIPeak, 900), (fHmsISus, 600), (fHmsPaceEn, 0)])) : State).dev.hms.lastSample) : Nat) - 8 * ((700) : BitVec 16).toNat * ((tideW ((st (fs (late up) [(fHmsIPeak, 900), (fHmsISus, 600), (fHmsPaceEn, 0)])) : State).dev - ((st (fs (late up) [(fHmsIPeak, 900), (fHmsISus, 600), (fHmsPaceEn, 0)])) : State).dev.hms.lastSample) : Nat))) : Nat) then 0 else 1) else if (((fld ((st (fs (late up) [(fHmsIPeak, 900), (fHmsISus, 600), (fHmsPaceEn, 0)])) : State).dev fHmsIPeak - fld ((st (fs (late up) [(fHmsIPeak, 900), (fHmsISus, 600), (fHmsPaceEn, 0)])) : State).dev fHmsISus) * 10000 * 8000) : Nat) ≠ 0 ∧ ((min (((fld ((st (fs (late up) [(fHmsIPeak, 900), (fHmsISus, 600), (fHmsPaceEn, 0)])) : State).dev fHmsIPeak - fld ((st (fs (late up) [(fHmsIPeak, 900), (fHmsISus, 600), (fHmsPaceEn, 0)])) : State).dev fHmsISus) * 10000 * 8000) : Nat) (((fld ((st (fs (late up) [(fHmsIPeak, 900), (fHmsISus, 600), (fHmsPaceEn, 0)])) : State).dev fHmsBudget * 8000 + ((st (fs (late up) [(fHmsIPeak, 900), (fHmsISus, 600), (fHmsPaceEn, 0)])) : State).dev.hms.frac) : Nat) + 8 * fld ((st (fs (late up) [(fHmsIPeak, 900), (fHmsISus, 600), (fHmsPaceEn, 0)])) : State).dev fHmsISus * ((tideW ((st (fs (late up) [(fHmsIPeak, 900), (fHmsISus, 600), (fHmsPaceEn, 0)])) : State).dev - ((st (fs (late up) [(fHmsIPeak, 900), (fHmsISus, 600), (fHmsPaceEn, 0)])) : State).dev.hms.lastSample) : Nat) - 8 * ((700) : BitVec 16).toNat * ((tideW ((st (fs (late up) [(fHmsIPeak, 900), (fHmsISus, 600), (fHmsPaceEn, 0)])) : State).dev - ((st (fs (late up) [(fHmsIPeak, 900), (fHmsISus, 600), (fHmsPaceEn, 0)])) : State).dev.hms.lastSample) : Nat))) : Nat) = 0 then 1 else 0)) : Nat) = 1 then fld ((st (fs (late up) [(fHmsIPeak, 900), (fHmsISus, 600), (fHmsPaceEn, 0)])) : State).dev fHmsISus else fld ((st (fs (late up) [(fHmsIPeak, 900), (fHmsISus, 600), (fHmsPaceEn, 0)])) : State).dev fHmsIPeak)) : Nat) then min 256 (max ((fld ((st (fs (late up) [(fHmsIPeak, 900), (fHmsISus, 600), (fHmsPaceEn, 0)])) : State).dev fHmsLambdaMin) : Nat) ((fld ((st (fs (late up) [(fHmsIPeak, 900), (fHmsISus, 600), (fHmsPaceEn, 0)])) : State).dev fHmsLambda) : Nat) + fld ((st (fs (late up) [(fHmsIPeak, 900), (fHmsISus, 600), (fHmsPaceEn, 0)])) : State).dev fHmsStepUp) else max ((fld ((st (fs (late up) [(fHmsIPeak, 900), (fHmsISus, 600), (fHmsPaceEn, 0)])) : State).dev fHmsLambdaMin) : Nat) ((fld ((st (fs (late up) [(fHmsIPeak, 900), (fHmsISus, 600), (fHmsPaceEn, 0)])) : State).dev fHmsLambda) : Nat)), by decide⟩,
   ⟨st (fs { up with tide := 4000 } [(fHmsIPeak, 900), (fHmsISus, 600), (fHmsBudget, 100), (fHmsPaceEn, 1)]), 700, fld ((st (fs { up with tide := 4000 } [(fHmsIPeak, 900), (fHmsISus, 600), (fHmsBudget, 100), (fHmsPaceEn, 1)])) : State).dev fHmsBudget * 8000 + ((st (fs { up with tide := 4000 } [(fHmsIPeak, 900), (fHmsISus, 600), (fHmsBudget, 100), (fHmsPaceEn, 1)])) : State).dev.hms.frac, min (((fld ((st (fs { up with tide := 4000 } [(fHmsIPeak, 900), (fHmsISus, 600), (fHmsBudget, 100), (fHmsPaceEn, 1)])) : State).dev fHmsIPeak - fld ((st (fs { up with tide := 4000 } [(fHmsIPeak, 900), (fHmsISus, 600), (fHmsBudget, 100), (fHmsPaceEn, 1)])) : State).dev fHmsISus) * 10000 * 8000) : Nat) (((fld ((st (fs { up with tide := 4000 } [(fHmsIPeak, 900), (fHmsISus, 600), (fHmsBudget, 100), (fHmsPaceEn, 1)])) : State).dev fHmsBudget * 8000 + ((st (fs { up with tide := 4000 } [(fHmsIPeak, 900), (fHmsISus, 600), (fHmsBudget, 100), (fHmsPaceEn, 1)])) : State).dev.hms.frac) : Nat) + 8 * fld ((st (fs { up with tide := 4000 } [(fHmsIPeak, 900), (fHmsISus, 600), (fHmsBudget, 100), (fHmsPaceEn, 1)])) : State).dev fHmsISus * ((tideW ((st (fs { up with tide := 4000 } [(fHmsIPeak, 900), (fHmsISus, 600), (fHmsBudget, 100), (fHmsPaceEn, 1)])) : State).dev - ((st (fs { up with tide := 4000 } [(fHmsIPeak, 900), (fHmsISus, 600), (fHmsBudget, 100), (fHmsPaceEn, 1)])) : State).dev.hms.lastSample) : Nat) - 8 * ((700) : BitVec 16).toNat * ((tideW ((st (fs { up with tide := 4000 } [(fHmsIPeak, 900), (fHmsISus, 600), (fHmsBudget, 100), (fHmsPaceEn, 1)])) : State).dev - ((st (fs { up with tide := 4000 } [(fHmsIPeak, 900), (fHmsISus, 600), (fHmsBudget, 100), (fHmsPaceEn, 1)])) : State).dev.hms.lastSample) : Nat)), (fld ((st (fs { up with tide := 4000 } [(fHmsIPeak, 900), (fHmsISus, 600), (fHmsBudget, 100), (fHmsPaceEn, 1)])) : State).dev fHmsIPeak - fld ((st (fs { up with tide := 4000 } [(fHmsIPeak, 900), (fHmsISus, 600), (fHmsBudget, 100), (fHmsPaceEn, 1)])) : State).dev fHmsISus) * 10000 * 8000, tideW ((st (fs { up with tide := 4000 } [(fHmsIPeak, 900), (fHmsISus, 600), (fHmsBudget, 100), (fHmsPaceEn, 1)])) : State).dev - ((st (fs { up with tide := 4000 } [(fHmsIPeak, 900), (fHmsISus, 600), (fHmsBudget, 100), (fHmsPaceEn, 1)])) : State).dev.hms.lastSample, fld ((st (fs { up with tide := 4000 } [(fHmsIPeak, 900), (fHmsISus, 600), (fHmsBudget, 100), (fHmsPaceEn, 1)])) : State).dev fHmsPaceState, (if ((fld ((st (fs { up with tide := 4000 } [(fHmsIPeak, 900), (fHmsISus, 600), (fHmsBudget, 100), (fHmsPaceEn, 1)])) : State).dev fHmsPaceState) : Nat) = 1 then (if (((fld ((st (fs { up with tide := 4000 } [(fHmsIPeak, 900), (fHmsISus, 600), (fHmsBudget, 100), (fHmsPaceEn, 1)])) : State).dev fHmsIPeak - fld ((st (fs { up with tide := 4000 } [(fHmsIPeak, 900), (fHmsISus, 600), (fHmsBudget, 100), (fHmsPaceEn, 1)])) : State).dev fHmsISus) * 10000 * 8000) : Nat) ≤ 2 * ((min (((fld ((st (fs { up with tide := 4000 } [(fHmsIPeak, 900), (fHmsISus, 600), (fHmsBudget, 100), (fHmsPaceEn, 1)])) : State).dev fHmsIPeak - fld ((st (fs { up with tide := 4000 } [(fHmsIPeak, 900), (fHmsISus, 600), (fHmsBudget, 100), (fHmsPaceEn, 1)])) : State).dev fHmsISus) * 10000 * 8000) : Nat) (((fld ((st (fs { up with tide := 4000 } [(fHmsIPeak, 900), (fHmsISus, 600), (fHmsBudget, 100), (fHmsPaceEn, 1)])) : State).dev fHmsBudget * 8000 + ((st (fs { up with tide := 4000 } [(fHmsIPeak, 900), (fHmsISus, 600), (fHmsBudget, 100), (fHmsPaceEn, 1)])) : State).dev.hms.frac) : Nat) + 8 * fld ((st (fs { up with tide := 4000 } [(fHmsIPeak, 900), (fHmsISus, 600), (fHmsBudget, 100), (fHmsPaceEn, 1)])) : State).dev fHmsISus * ((tideW ((st (fs { up with tide := 4000 } [(fHmsIPeak, 900), (fHmsISus, 600), (fHmsBudget, 100), (fHmsPaceEn, 1)])) : State).dev - ((st (fs { up with tide := 4000 } [(fHmsIPeak, 900), (fHmsISus, 600), (fHmsBudget, 100), (fHmsPaceEn, 1)])) : State).dev.hms.lastSample) : Nat) - 8 * ((700) : BitVec 16).toNat * ((tideW ((st (fs { up with tide := 4000 } [(fHmsIPeak, 900), (fHmsISus, 600), (fHmsBudget, 100), (fHmsPaceEn, 1)])) : State).dev - ((st (fs { up with tide := 4000 } [(fHmsIPeak, 900), (fHmsISus, 600), (fHmsBudget, 100), (fHmsPaceEn, 1)])) : State).dev.hms.lastSample) : Nat))) : Nat) then 0 else 1) else if (((fld ((st (fs { up with tide := 4000 } [(fHmsIPeak, 900), (fHmsISus, 600), (fHmsBudget, 100), (fHmsPaceEn, 1)])) : State).dev fHmsIPeak - fld ((st (fs { up with tide := 4000 } [(fHmsIPeak, 900), (fHmsISus, 600), (fHmsBudget, 100), (fHmsPaceEn, 1)])) : State).dev fHmsISus) * 10000 * 8000) : Nat) ≠ 0 ∧ ((min (((fld ((st (fs { up with tide := 4000 } [(fHmsIPeak, 900), (fHmsISus, 600), (fHmsBudget, 100), (fHmsPaceEn, 1)])) : State).dev fHmsIPeak - fld ((st (fs { up with tide := 4000 } [(fHmsIPeak, 900), (fHmsISus, 600), (fHmsBudget, 100), (fHmsPaceEn, 1)])) : State).dev fHmsISus) * 10000 * 8000) : Nat) (((fld ((st (fs { up with tide := 4000 } [(fHmsIPeak, 900), (fHmsISus, 600), (fHmsBudget, 100), (fHmsPaceEn, 1)])) : State).dev fHmsBudget * 8000 + ((st (fs { up with tide := 4000 } [(fHmsIPeak, 900), (fHmsISus, 600), (fHmsBudget, 100), (fHmsPaceEn, 1)])) : State).dev.hms.frac) : Nat) + 8 * fld ((st (fs { up with tide := 4000 } [(fHmsIPeak, 900), (fHmsISus, 600), (fHmsBudget, 100), (fHmsPaceEn, 1)])) : State).dev fHmsISus * ((tideW ((st (fs { up with tide := 4000 } [(fHmsIPeak, 900), (fHmsISus, 600), (fHmsBudget, 100), (fHmsPaceEn, 1)])) : State).dev - ((st (fs { up with tide := 4000 } [(fHmsIPeak, 900), (fHmsISus, 600), (fHmsBudget, 100), (fHmsPaceEn, 1)])) : State).dev.hms.lastSample) : Nat) - 8 * ((700) : BitVec 16).toNat * ((tideW ((st (fs { up with tide := 4000 } [(fHmsIPeak, 900), (fHmsISus, 600), (fHmsBudget, 100), (fHmsPaceEn, 1)])) : State).dev - ((st (fs { up with tide := 4000 } [(fHmsIPeak, 900), (fHmsISus, 600), (fHmsBudget, 100), (fHmsPaceEn, 1)])) : State).dev.hms.lastSample) : Nat))) : Nat) = 0 then 1 else 0), (if (((if ((fld ((st (fs { up with tide := 4000 } [(fHmsIPeak, 900), (fHmsISus, 600), (fHmsBudget, 100), (fHmsPaceEn, 1)])) : State).dev fHmsPaceState) : Nat) = 1 then (if (((fld ((st (fs { up with tide := 4000 } [(fHmsIPeak, 900), (fHmsISus, 600), (fHmsBudget, 100), (fHmsPaceEn, 1)])) : State).dev fHmsIPeak - fld ((st (fs { up with tide := 4000 } [(fHmsIPeak, 900), (fHmsISus, 600), (fHmsBudget, 100), (fHmsPaceEn, 1)])) : State).dev fHmsISus) * 10000 * 8000) : Nat) ≤ 2 * ((min (((fld ((st (fs { up with tide := 4000 } [(fHmsIPeak, 900), (fHmsISus, 600), (fHmsBudget, 100), (fHmsPaceEn, 1)])) : State).dev fHmsIPeak - fld ((st (fs { up with tide := 4000 } [(fHmsIPeak, 900), (fHmsISus, 600), (fHmsBudget, 100), (fHmsPaceEn, 1)])) : State).dev fHmsISus) * 10000 * 8000) : Nat) (((fld ((st (fs { up with tide := 4000 } [(fHmsIPeak, 900), (fHmsISus, 600), (fHmsBudget, 100), (fHmsPaceEn, 1)])) : State).dev fHmsBudget * 8000 + ((st (fs { up with tide := 4000 } [(fHmsIPeak, 900), (fHmsISus, 600), (fHmsBudget, 100), (fHmsPaceEn, 1)])) : State).dev.hms.frac) : Nat) + 8 * fld ((st (fs { up with tide := 4000 } [(fHmsIPeak, 900), (fHmsISus, 600), (fHmsBudget, 100), (fHmsPaceEn, 1)])) : State).dev fHmsISus * ((tideW ((st (fs { up with tide := 4000 } [(fHmsIPeak, 900), (fHmsISus, 600), (fHmsBudget, 100), (fHmsPaceEn, 1)])) : State).dev - ((st (fs { up with tide := 4000 } [(fHmsIPeak, 900), (fHmsISus, 600), (fHmsBudget, 100), (fHmsPaceEn, 1)])) : State).dev.hms.lastSample) : Nat) - 8 * ((700) : BitVec 16).toNat * ((tideW ((st (fs { up with tide := 4000 } [(fHmsIPeak, 900), (fHmsISus, 600), (fHmsBudget, 100), (fHmsPaceEn, 1)])) : State).dev - ((st (fs { up with tide := 4000 } [(fHmsIPeak, 900), (fHmsISus, 600), (fHmsBudget, 100), (fHmsPaceEn, 1)])) : State).dev.hms.lastSample) : Nat))) : Nat) then 0 else 1) else if (((fld ((st (fs { up with tide := 4000 } [(fHmsIPeak, 900), (fHmsISus, 600), (fHmsBudget, 100), (fHmsPaceEn, 1)])) : State).dev fHmsIPeak - fld ((st (fs { up with tide := 4000 } [(fHmsIPeak, 900), (fHmsISus, 600), (fHmsBudget, 100), (fHmsPaceEn, 1)])) : State).dev fHmsISus) * 10000 * 8000) : Nat) ≠ 0 ∧ ((min (((fld ((st (fs { up with tide := 4000 } [(fHmsIPeak, 900), (fHmsISus, 600), (fHmsBudget, 100), (fHmsPaceEn, 1)])) : State).dev fHmsIPeak - fld ((st (fs { up with tide := 4000 } [(fHmsIPeak, 900), (fHmsISus, 600), (fHmsBudget, 100), (fHmsPaceEn, 1)])) : State).dev fHmsISus) * 10000 * 8000) : Nat) (((fld ((st (fs { up with tide := 4000 } [(fHmsIPeak, 900), (fHmsISus, 600), (fHmsBudget, 100), (fHmsPaceEn, 1)])) : State).dev fHmsBudget * 8000 + ((st (fs { up with tide := 4000 } [(fHmsIPeak, 900), (fHmsISus, 600), (fHmsBudget, 100), (fHmsPaceEn, 1)])) : State).dev.hms.frac) : Nat) + 8 * fld ((st (fs { up with tide := 4000 } [(fHmsIPeak, 900), (fHmsISus, 600), (fHmsBudget, 100), (fHmsPaceEn, 1)])) : State).dev fHmsISus * ((tideW ((st (fs { up with tide := 4000 } [(fHmsIPeak, 900), (fHmsISus, 600), (fHmsBudget, 100), (fHmsPaceEn, 1)])) : State).dev - ((st (fs { up with tide := 4000 } [(fHmsIPeak, 900), (fHmsISus, 600), (fHmsBudget, 100), (fHmsPaceEn, 1)])) : State).dev.hms.lastSample) : Nat) - 8 * ((700) : BitVec 16).toNat * ((tideW ((st (fs { up with tide := 4000 } [(fHmsIPeak, 900), (fHmsISus, 600), (fHmsBudget, 100), (fHmsPaceEn, 1)])) : State).dev - ((st (fs { up with tide := 4000 } [(fHmsIPeak, 900), (fHmsISus, 600), (fHmsBudget, 100), (fHmsPaceEn, 1)])) : State).dev.hms.lastSample) : Nat))) : Nat) = 0 then 1 else 0)) : Nat) = 1 then fld ((st (fs { up with tide := 4000 } [(fHmsIPeak, 900), (fHmsISus, 600), (fHmsBudget, 100), (fHmsPaceEn, 1)])) : State).dev fHmsISus else fld ((st (fs { up with tide := 4000 } [(fHmsIPeak, 900), (fHmsISus, 600), (fHmsBudget, 100), (fHmsPaceEn, 1)])) : State).dev fHmsIPeak), fld ((st (fs { up with tide := 4000 } [(fHmsIPeak, 900), (fHmsISus, 600), (fHmsBudget, 100), (fHmsPaceEn, 1)])) : State).dev fHmsLambda, fld ((st (fs { up with tide := 4000 } [(fHmsIPeak, 900), (fHmsISus, 600), (fHmsBudget, 100), (fHmsPaceEn, 1)])) : State).dev fHmsLambdaMin, (if (((if (((if ((fld ((st (fs { up with tide := 4000 } [(fHmsIPeak, 900), (fHmsISus, 600), (fHmsBudget, 100), (fHmsPaceEn, 1)])) : State).dev fHmsPaceState) : Nat) = 1 then (if (((fld ((st (fs { up with tide := 4000 } [(fHmsIPeak, 900), (fHmsISus, 600), (fHmsBudget, 100), (fHmsPaceEn, 1)])) : State).dev fHmsIPeak - fld ((st (fs { up with tide := 4000 } [(fHmsIPeak, 900), (fHmsISus, 600), (fHmsBudget, 100), (fHmsPaceEn, 1)])) : State).dev fHmsISus) * 10000 * 8000) : Nat) ≤ 2 * ((min (((fld ((st (fs { up with tide := 4000 } [(fHmsIPeak, 900), (fHmsISus, 600), (fHmsBudget, 100), (fHmsPaceEn, 1)])) : State).dev fHmsIPeak - fld ((st (fs { up with tide := 4000 } [(fHmsIPeak, 900), (fHmsISus, 600), (fHmsBudget, 100), (fHmsPaceEn, 1)])) : State).dev fHmsISus) * 10000 * 8000) : Nat) (((fld ((st (fs { up with tide := 4000 } [(fHmsIPeak, 900), (fHmsISus, 600), (fHmsBudget, 100), (fHmsPaceEn, 1)])) : State).dev fHmsBudget * 8000 + ((st (fs { up with tide := 4000 } [(fHmsIPeak, 900), (fHmsISus, 600), (fHmsBudget, 100), (fHmsPaceEn, 1)])) : State).dev.hms.frac) : Nat) + 8 * fld ((st (fs { up with tide := 4000 } [(fHmsIPeak, 900), (fHmsISus, 600), (fHmsBudget, 100), (fHmsPaceEn, 1)])) : State).dev fHmsISus * ((tideW ((st (fs { up with tide := 4000 } [(fHmsIPeak, 900), (fHmsISus, 600), (fHmsBudget, 100), (fHmsPaceEn, 1)])) : State).dev - ((st (fs { up with tide := 4000 } [(fHmsIPeak, 900), (fHmsISus, 600), (fHmsBudget, 100), (fHmsPaceEn, 1)])) : State).dev.hms.lastSample) : Nat) - 8 * ((700) : BitVec 16).toNat * ((tideW ((st (fs { up with tide := 4000 } [(fHmsIPeak, 900), (fHmsISus, 600), (fHmsBudget, 100), (fHmsPaceEn, 1)])) : State).dev - ((st (fs { up with tide := 4000 } [(fHmsIPeak, 900), (fHmsISus, 600), (fHmsBudget, 100), (fHmsPaceEn, 1)])) : State).dev.hms.lastSample) : Nat))) : Nat) then 0 else 1) else if (((fld ((st (fs { up with tide := 4000 } [(fHmsIPeak, 900), (fHmsISus, 600), (fHmsBudget, 100), (fHmsPaceEn, 1)])) : State).dev fHmsIPeak - fld ((st (fs { up with tide := 4000 } [(fHmsIPeak, 900), (fHmsISus, 600), (fHmsBudget, 100), (fHmsPaceEn, 1)])) : State).dev fHmsISus) * 10000 * 8000) : Nat) ≠ 0 ∧ ((min (((fld ((st (fs { up with tide := 4000 } [(fHmsIPeak, 900), (fHmsISus, 600), (fHmsBudget, 100), (fHmsPaceEn, 1)])) : State).dev fHmsIPeak - fld ((st (fs { up with tide := 4000 } [(fHmsIPeak, 900), (fHmsISus, 600), (fHmsBudget, 100), (fHmsPaceEn, 1)])) : State).dev fHmsISus) * 10000 * 8000) : Nat) (((fld ((st (fs { up with tide := 4000 } [(fHmsIPeak, 900), (fHmsISus, 600), (fHmsBudget, 100), (fHmsPaceEn, 1)])) : State).dev fHmsBudget * 8000 + ((st (fs { up with tide := 4000 } [(fHmsIPeak, 900), (fHmsISus, 600), (fHmsBudget, 100), (fHmsPaceEn, 1)])) : State).dev.hms.frac) : Nat) + 8 * fld ((st (fs { up with tide := 4000 } [(fHmsIPeak, 900), (fHmsISus, 600), (fHmsBudget, 100), (fHmsPaceEn, 1)])) : State).dev fHmsISus * ((tideW ((st (fs { up with tide := 4000 } [(fHmsIPeak, 900), (fHmsISus, 600), (fHmsBudget, 100), (fHmsPaceEn, 1)])) : State).dev - ((st (fs { up with tide := 4000 } [(fHmsIPeak, 900), (fHmsISus, 600), (fHmsBudget, 100), (fHmsPaceEn, 1)])) : State).dev.hms.lastSample) : Nat) - 8 * ((700) : BitVec 16).toNat * ((tideW ((st (fs { up with tide := 4000 } [(fHmsIPeak, 900), (fHmsISus, 600), (fHmsBudget, 100), (fHmsPaceEn, 1)])) : State).dev - ((st (fs { up with tide := 4000 } [(fHmsIPeak, 900), (fHmsISus, 600), (fHmsBudget, 100), (fHmsPaceEn, 1)])) : State).dev.hms.lastSample) : Nat))) : Nat) = 0 then 1 else 0)) : Nat) = 1 then fld ((st (fs { up with tide := 4000 } [(fHmsIPeak, 900), (fHmsISus, 600), (fHmsBudget, 100), (fHmsPaceEn, 1)])) : State).dev fHmsISus else fld ((st (fs { up with tide := 4000 } [(fHmsIPeak, 900), (fHmsISus, 600), (fHmsBudget, 100), (fHmsPaceEn, 1)])) : State).dev fHmsIPeak)) : Nat) < ((700) : BitVec 16).toNat ∨ fld ((st (fs { up with tide := 4000 } [(fHmsIPeak, 900), (fHmsISus, 600), (fHmsBudget, 100), (fHmsPaceEn, 1)])) : State).dev fHmsIPeak < ((700) : BitVec 16).toNat then max ((fld ((st (fs { up with tide := 4000 } [(fHmsIPeak, 900), (fHmsISus, 600), (fHmsBudget, 100), (fHmsPaceEn, 1)])) : State).dev fHmsLambdaMin) : Nat) (((fld ((st (fs { up with tide := 4000 } [(fHmsIPeak, 900), (fHmsISus, 600), (fHmsBudget, 100), (fHmsPaceEn, 1)])) : State).dev fHmsLambda) : Nat) - fld ((st (fs { up with tide := 4000 } [(fHmsIPeak, 900), (fHmsISus, 600), (fHmsBudget, 100), (fHmsPaceEn, 1)])) : State).dev fHmsStepDn) else if ((700) : BitVec 16).toNat + 10 * fld ((st (fs { up with tide := 4000 } [(fHmsIPeak, 900), (fHmsISus, 600), (fHmsBudget, 100), (fHmsPaceEn, 1)])) : State).dev fHmsHyst < (((if (((if ((fld ((st (fs { up with tide := 4000 } [(fHmsIPeak, 900), (fHmsISus, 600), (fHmsBudget, 100), (fHmsPaceEn, 1)])) : State).dev fHmsPaceState) : Nat) = 1 then (if (((fld ((st (fs { up with tide := 4000 } [(fHmsIPeak, 900), (fHmsISus, 600), (fHmsBudget, 100), (fHmsPaceEn, 1)])) : State).dev fHmsIPeak - fld ((st (fs { up with tide := 4000 } [(fHmsIPeak, 900), (fHmsISus, 600), (fHmsBudget, 100), (fHmsPaceEn, 1)])) : State).dev fHmsISus) * 10000 * 8000) : Nat) ≤ 2 * ((min (((fld ((st (fs { up with tide := 4000 } [(fHmsIPeak, 900), (fHmsISus, 600), (fHmsBudget, 100), (fHmsPaceEn, 1)])) : State).dev fHmsIPeak - fld ((st (fs { up with tide := 4000 } [(fHmsIPeak, 900), (fHmsISus, 600), (fHmsBudget, 100), (fHmsPaceEn, 1)])) : State).dev fHmsISus) * 10000 * 8000) : Nat) (((fld ((st (fs { up with tide := 4000 } [(fHmsIPeak, 900), (fHmsISus, 600), (fHmsBudget, 100), (fHmsPaceEn, 1)])) : State).dev fHmsBudget * 8000 + ((st (fs { up with tide := 4000 } [(fHmsIPeak, 900), (fHmsISus, 600), (fHmsBudget, 100), (fHmsPaceEn, 1)])) : State).dev.hms.frac) : Nat) + 8 * fld ((st (fs { up with tide := 4000 } [(fHmsIPeak, 900), (fHmsISus, 600), (fHmsBudget, 100), (fHmsPaceEn, 1)])) : State).dev fHmsISus * ((tideW ((st (fs { up with tide := 4000 } [(fHmsIPeak, 900), (fHmsISus, 600), (fHmsBudget, 100), (fHmsPaceEn, 1)])) : State).dev - ((st (fs { up with tide := 4000 } [(fHmsIPeak, 900), (fHmsISus, 600), (fHmsBudget, 100), (fHmsPaceEn, 1)])) : State).dev.hms.lastSample) : Nat) - 8 * ((700) : BitVec 16).toNat * ((tideW ((st (fs { up with tide := 4000 } [(fHmsIPeak, 900), (fHmsISus, 600), (fHmsBudget, 100), (fHmsPaceEn, 1)])) : State).dev - ((st (fs { up with tide := 4000 } [(fHmsIPeak, 900), (fHmsISus, 600), (fHmsBudget, 100), (fHmsPaceEn, 1)])) : State).dev.hms.lastSample) : Nat))) : Nat) then 0 else 1) else if (((fld ((st (fs { up with tide := 4000 } [(fHmsIPeak, 900), (fHmsISus, 600), (fHmsBudget, 100), (fHmsPaceEn, 1)])) : State).dev fHmsIPeak - fld ((st (fs { up with tide := 4000 } [(fHmsIPeak, 900), (fHmsISus, 600), (fHmsBudget, 100), (fHmsPaceEn, 1)])) : State).dev fHmsISus) * 10000 * 8000) : Nat) ≠ 0 ∧ ((min (((fld ((st (fs { up with tide := 4000 } [(fHmsIPeak, 900), (fHmsISus, 600), (fHmsBudget, 100), (fHmsPaceEn, 1)])) : State).dev fHmsIPeak - fld ((st (fs { up with tide := 4000 } [(fHmsIPeak, 900), (fHmsISus, 600), (fHmsBudget, 100), (fHmsPaceEn, 1)])) : State).dev fHmsISus) * 10000 * 8000) : Nat) (((fld ((st (fs { up with tide := 4000 } [(fHmsIPeak, 900), (fHmsISus, 600), (fHmsBudget, 100), (fHmsPaceEn, 1)])) : State).dev fHmsBudget * 8000 + ((st (fs { up with tide := 4000 } [(fHmsIPeak, 900), (fHmsISus, 600), (fHmsBudget, 100), (fHmsPaceEn, 1)])) : State).dev.hms.frac) : Nat) + 8 * fld ((st (fs { up with tide := 4000 } [(fHmsIPeak, 900), (fHmsISus, 600), (fHmsBudget, 100), (fHmsPaceEn, 1)])) : State).dev fHmsISus * ((tideW ((st (fs { up with tide := 4000 } [(fHmsIPeak, 900), (fHmsISus, 600), (fHmsBudget, 100), (fHmsPaceEn, 1)])) : State).dev - ((st (fs { up with tide := 4000 } [(fHmsIPeak, 900), (fHmsISus, 600), (fHmsBudget, 100), (fHmsPaceEn, 1)])) : State).dev.hms.lastSample) : Nat) - 8 * ((700) : BitVec 16).toNat * ((tideW ((st (fs { up with tide := 4000 } [(fHmsIPeak, 900), (fHmsISus, 600), (fHmsBudget, 100), (fHmsPaceEn, 1)])) : State).dev - ((st (fs { up with tide := 4000 } [(fHmsIPeak, 900), (fHmsISus, 600), (fHmsBudget, 100), (fHmsPaceEn, 1)])) : State).dev.hms.lastSample) : Nat))) : Nat) = 0 then 1 else 0)) : Nat) = 1 then fld ((st (fs { up with tide := 4000 } [(fHmsIPeak, 900), (fHmsISus, 600), (fHmsBudget, 100), (fHmsPaceEn, 1)])) : State).dev fHmsISus else fld ((st (fs { up with tide := 4000 } [(fHmsIPeak, 900), (fHmsISus, 600), (fHmsBudget, 100), (fHmsPaceEn, 1)])) : State).dev fHmsIPeak)) : Nat) then min 256 (max ((fld ((st (fs { up with tide := 4000 } [(fHmsIPeak, 900), (fHmsISus, 600), (fHmsBudget, 100), (fHmsPaceEn, 1)])) : State).dev fHmsLambdaMin) : Nat) ((fld ((st (fs { up with tide := 4000 } [(fHmsIPeak, 900), (fHmsISus, 600), (fHmsBudget, 100), (fHmsPaceEn, 1)])) : State).dev fHmsLambda) : Nat) + fld ((st (fs { up with tide := 4000 } [(fHmsIPeak, 900), (fHmsISus, 600), (fHmsBudget, 100), (fHmsPaceEn, 1)])) : State).dev fHmsStepUp) else max ((fld ((st (fs { up with tide := 4000 } [(fHmsIPeak, 900), (fHmsISus, 600), (fHmsBudget, 100), (fHmsPaceEn, 1)])) : State).dev fHmsLambdaMin) : Nat) ((fld ((st (fs { up with tide := 4000 } [(fHmsIPeak, 900), (fHmsISus, 600), (fHmsBudget, 100), (fHmsPaceEn, 1)])) : State).dev fHmsLambda) : Nat)), by decide⟩⟩

theorem wit_TelemetryLost :
    (∃ (s : State), awake s.dev 5 = true ∧ s.dev.hms.lastSample + 4000 ≤ tideW s.dev) ∧
    (∃ (s : State), awake s.dev 5 = true ∧ tideW s.dev < s.dev.hms.lastSample + 4000) :=
  ⟨⟨st { up with tide := 4000 }, by decide⟩,
   ⟨st { up with tide := 3999 }, by decide⟩⟩

theorem wit_PaceLimitWrite :
    (∃ (s : State) (v : BitVec 64), awake s.dev 5 = true ∧ getBits v 31 16 < getBits v 15 0) ∧
    (∃ (s : State) (v : BitVec 64), awake s.dev 5 = true ∧ getBits v 15 0 ≤ getBits v 31 16) :=
  ⟨⟨st up, 6, by decide⟩,
   ⟨st up, 0x60005, by decide⟩⟩

theorem wit_SpinAndWake :
    (∃ (s : State) (k : CmdId) (x : Cmd), awake s.dev 5 = true ∧ cmdAt s.dev k = some x ∧ x.spin.isSome = true ∧ x.spinEnd ≤ s.dev.now) ∧
    (∃ (s : State) (k : CmdId) (x : Cmd), awake s.dev 5 = true ∧ cmdAt s.dev k = some x ∧ s.dev.now < x.spinEnd) ∧
    (∃ (s : State) (k : CmdId) (x : Cmd), awake s.dev 5 = true ∧ cmdAt s.dev k = some x ∧ x.phase = .waiting ∧ x.skipped = false ∧ x.waitsMet = true ∧ x.woken = false) :=
  ⟨⟨st (cmds [{ cmd0 with spin := some 3 }]), k0, { cmd0 with spin := some 3 }, by decide⟩,
   ⟨st (cmds [{ cmd0 with spin := some 3, spinEnd := 8 }]), k0, { cmd0 with spin := some 3, spinEnd := 8 }, by decide⟩,
   ⟨st (cmds [{ cmd0 with woken := false }]), k0, { cmd0 with woken := false }, by decide⟩⟩

def issued (o : CmdOp) : Cmd := { withOp o with phase := .issued, grant := [0, 1], mask := [32], tcapUs := 1000 }
def stepAt (o : CmdOp) (n : Nat) : Cmd := { issued o with step := n }
def grp : GroupTable := ⟨[⟨1, 0, 0, 0⟩, ⟨0, 0, BitVec.ofNat 32 hBol, 0⟩], 0⟩
def grp1 : GroupTable := ⟨[⟨0, 0, BitVec.ofNat 32 hBol, 0⟩, ⟨1, 0, 0, 0⟩], 0⟩
def ring (n : Nat) : Cmd := { issued (.call 3 []) with step := n, group := if n = 0 then none else some grp }
def counter0 : BolRec := { bol0 with kind := .counter, param := 4 }
/-- A sequencer that works on a launch of one operand at byte `b` of the element of 2 bytes. -/
def lop1 (b : Nat) : LaunchOp := { lop with idxOpnd := 15, opnds := [{ base := 0x2000 + b, send := 0, dir := false, elem := 1, hint := 0, strides := [64], moorKey := 0 }] }
def forming (b : Nat) : Cmd := { issued (.launch (lop1 b)) with step := 1, trips := [2], tileCount := 2, slices := [{ seq := 15, next := 0, stop := 2, runLeft := 2, runDepth := 4 }] }
def formDev (b : Nat) : Dev := modSeq (fs (cmds [forming b]) [(fTsqState 15, 1)]) 15 fun q => { q with jobs := [k0] }
def formW (b : Nat) : FormRes := formTile (formDev b) (seqAt (formDev b) 15) (forming b) 0
def wordsOf : FormRes → List W64 | .ok ws _ _ => ws | _ => []
def bufDev (d : Dev) : Dev := modSeq (fs d [(fQptState 55, 1)]) 15 fun q => { q with buf := [desc0 55] }
def offer (u : Quay) : Quay := { u with offered := some (desc0 55, 3) }
def pkt (stn : BitVec 10) (last fault : Bool) : CplPacket := ⟨stn, 0, last, fault, 0⟩
def runs (q n : Nat) (d : Dev := home) : Dev := fs d [(fQptState q, n)]
def dying : Dev := home up { ctxR with state := .dying }

theorem wit_LaunchTiles :
    (∃ (s : State) (k : CmdId) (x : Cmd) (l : LaunchOp) (ts : List Nat), awake s.dev 8 = true ∧ atIssueOf s.dev k x ∧ x.spec.op = .launch l ∧ faultsNamed s.dev x.level x.spec.op = none ∧ x.unheld = none ∧ tripsOf s.dev x l = some ts ∧ 0 < pieceCount l.tileNs x.tcapUs * ts.foldl (· * ·) 1 ∧ pieceCount l.tileNs x.tcapUs * ts.foldl (· * ·) 1 < 2 ^ 48) ∧
    (∃ (s : State) (k : CmdId) (x : Cmd) (l : LaunchOp) (ts : List Nat), awake s.dev 8 = true ∧ atIssueOf s.dev k x ∧ x.spec.op = .launch l ∧ faultsNamed s.dev x.level x.spec.op = none ∧ x.unheld = none ∧ tripsOf s.dev x l = some ts ∧ pieceCount l.tileNs x.tcapUs * ts.foldl (· * ·) 1 = 0 ∧ x.spec.sigs = []) ∧
    (∃ (s : State) (k : CmdId) (x : Cmd) (l : LaunchOp) (ts : List Nat), awake s.dev 8 = true ∧ atIssueOf s.dev k x ∧ x.spec.op = .launch l ∧ faultsNamed s.dev x.level x.spec.op = none ∧ x.unheld = none ∧ tripsOf s.dev x l = some ts ∧ 2 ^ 48 ≤ pieceCount l.tileNs x.tcapUs * ts.foldl (· * ·) 1) :=
  ⟨⟨st (cmds [issued (.launch lop)]), k0, issued (.launch lop), lop, [2], by simp only [atIssueOf, hot]; decide⟩,
   ⟨st (cmds [issued (.launch { lop with trips := [0] })]), k0, issued (.launch { lop with trips := [0] }), { lop with trips := [0] }, [0], by simp only [atIssueOf, hot]; decide⟩,
   ⟨st (cmds [issued (.launch { lop with nloop := 2, trips := [2 ^ 24, 2 ^ 24] })]), k0, issued (.launch { lop with nloop := 2, trips := [2 ^ 24, 2 ^ 24] }), { lop with nloop := 2, trips := [2 ^ 24, 2 ^ 24] }, [2 ^ 24, 2 ^ 24], by simp only [atIssueOf, hot]; decide⟩⟩

theorem wit_DmaCommands :
    (∃ (s : State) (k : CmdId) (x : Cmd) (src : Nat) (dst : Nat) (len : Nat) (dh : Nat) (sh : Nat), awake s.dev 8 = true ∧ atIssueOf s.dev k x ∧ x.spec.op = .copy src dst len dh sh ∧ 0 < len ∧ len < 2 ^ 48) ∧
    (∃ (s : State) (k : CmdId) (x : Cmd) (a : List W64), awake s.dev 8 = true ∧ atIssueOf s.dev k x ∧ x.spec.op = .call 1 a ∧ 0 < argN a 1 ∧ argN a 1 < 2 ^ 48) ∧
    (∃ (s : State) (k : CmdId) (x : Cmd) (a : List W64), awake s.dev 8 = true ∧ atIssueOf s.dev k x ∧ x.spec.op = .call 6 a ∧ 0 < argN a 3 ∧ 0 < argN a 4 ∧ argN a 3 * argN a 4 < 2 ^ 48) :=
  ⟨⟨st (cmds [issued (.copy 0 64 1 0 0)]), k0, issued (.copy 0 64 1 0 0), 0, 64, 1, 0, 0, by simp only [atIssueOf, hot]; decide⟩,
   ⟨st (cmds [issued (.call 1 [0, 0xFFFFFFFFFFFF])]), k0, issued (.call 1 [0, 0xFFFFFFFFFFFF]), [0, 0xFFFFFFFFFFFF], by simp only [atIssueOf, hot]; decide⟩,
   ⟨st (cmds [issued (.call 6 [0, 0, 0, 3, 64])]), k0, issued (.call 6 [0, 0, 0, 3, 64]), [0, 0, 0, 3, 64], by simp only [atIssueOf, hot]; decide⟩⟩

theorem wit_SlicesPartition : ∃ (g : List Nat) (t : Nat) (n : _), g ≠ [] ∧ n < t :=
  ⟨[4, 7], 3, 2, by decide⟩

theorem wit_PointsDistinct :
    (∃ (p : Nat) (trips : List Nat) (n : _) (i : _), 0 < p ∧ ((∀ x ∈ trips, 0 < x)) ∧ n < p * trips.foldl (· * ·) 1 ∧ i < trips.length) ∧
    (∃ (p : Nat) (trips : List Nat) (n : _) (m : _), 0 < p ∧ ((∀ x ∈ trips, 0 < x)) ∧ n < p * trips.foldl (· * ·) 1 ∧ m < p * trips.foldl (· * ·) 1 ∧ pointOf p trips n = pointOf p trips m) :=
  ⟨⟨2, [3, 2], 11, 1, by decide⟩,
   ⟨2, [3, 2], 11, 11, by decide⟩⟩

theorem wit_Collectives :
    (∃ (s : State) (k : CmdId) (x : Cmd) (g : GroupTable) (r : Nat) (a : List W64) (i : Instr), awake s.dev 8 = true ∧ (i, r) ∈ [(Instr.allReduce k g, 2), (.allGather k g, 3), (.reduceScatter k g, 4), (.broadcast k g, 5)] ∧ cmdAt s.dev k = some x ∧ x.spec.op = .call r a ∧ x.phase = .issued ∧ x.status = none ∧ x.step = 0) ∧
    (∃ (s : State) (k : CmdId) (x : Cmd) (g : GroupTable) (r : Nat) (a : List W64) (i : Instr), awake s.dev 8 = true ∧ (i, r) ∈ [(Instr.allReduce k g, 2), (.allGather k g, 3), (.reduceScatter k g, 4), (.broadcast k g, 5)] ∧ cmdAt s.dev k = some x ∧ x.spec.op = .call r a ∧ x.phase = .issued ∧ x.status = none ∧ 2 ≤ g.members.length ∧ g.members.length ≤ 4096 ∧ g.self.toNat < g.members.length) ∧
    (∃ (s : State) (k : CmdId) (x : Cmd) (g : GroupTable) (r : Nat) (a : List W64) (i : Instr) (g' : _), awake s.dev 8 = true ∧ (i, r) ∈ [(Instr.allReduce k g, 2), (.allGather k g, 3), (.reduceScatter k g, 4), (.broadcast k g, 5)] ∧ cmdAt s.dev k = some x ∧ x.spec.op = .call r a ∧ x.phase = .issued ∧ x.status = none ∧ x.step = 1 ∧ x.group = some g') ∧
    (∃ (s : State) (k : CmdId) (x : Cmd) (g : GroupTable) (r : Nat) (a : List W64) (i : Instr) (g' : _), awake s.dev 8 = true ∧ (i, r) ∈ [(Instr.allReduce k g, 2), (.allGather k g, 3), (.reduceScatter k g, 4), (.broadcast k g, 5)] ∧ cmdAt s.dev k = some x ∧ x.spec.op = .call r a ∧ x.phase = .issued ∧ x.status = none ∧ x.step = 2 ∧ x.group = some g' ∧ tilesDone s.dev x = true) ∧
    (∃ (s : State) (k : CmdId) (x : Cmd) (g : GroupTable) (r : Nat) (a : List W64) (i : Instr) (g' : GroupTable) (h : Nat), awake s.dev 8 = true ∧ (i, r) ∈ [(Instr.allReduce k g, 2), (.allGather k g, 3), (.reduceScatter k g, 4), (.broadcast k g, 5)] ∧ cmdAt s.dev k = some x ∧ x.spec.op = .call r a ∧ x.phase = .issued ∧ x.status = none ∧ x.step = 3 ∧ x.group = some g' ∧ 1 < ringSteps r g' ∧ (nextMember g').node = 0 ∧ h = (nextMember g').counter.toNat ∧ hot s.dev (bolRecs s.dev h) ∧ bolOk s.dev h = true ∧ (bolAt s.dev (bolIdx h)).state = .live ∧ capOk (bolAt s.dev (bolIdx h)) x.ctx (nextMember g').cap = true ∧ (bolAt s.dev (bolIdx h)).kind = .counter ∧ (bolAt s.dev (bolIdx h)).value.toNat < capacityOf (bolAt s.dev (bolIdx h)) ∧ (bolAt s.dev (bolIdx h)).watchArm = false ∧ s.dev.blu.waits = [] ∧ x.applied.contains 257 = false) ∧
    (∃ (s : State) (k : CmdId) (x : Cmd) (g : GroupTable) (r : Nat) (a : List W64) (i : Instr) (g' : GroupTable) (h : Nat), awake s.dev 8 = true ∧ (i, r) ∈ [(Instr.allReduce k g, 2), (.allGather k g, 3), (.reduceScatter k g, 4), (.broadcast k g, 5)] ∧ cmdAt s.dev k = some x ∧ x.spec.op = .call r a ∧ x.phase = .issued ∧ x.status = none ∧ x.step = 4 ∧ x.group = some g' ∧ h = (g'.members.getD g'.self.toNat Member0).counter.toNat ∧ hot s.dev (bolRecs s.dev h) ∧ bolOk s.dev h = true ∧ (bolAt s.dev (bolIdx h)).state = .live ∧ bolOwner (bolAt s.dev (bolIdx h)) = x.ctx ∧ (bolAt s.dev (bolIdx h)).kind = .counter ∧ s.dev.blu.waits = [] ∧ x.applied.contains 258 = false ∧ (bolAt s.dev (bolIdx h)).value ≠ 0 ∧ (bolAt s.dev (bolIdx h)).watchArm = false) ∧
    (∃ (s : State) (k : CmdId) (x : Cmd) (g : GroupTable) (r : Nat) (a : List W64) (i : Instr) (g' : GroupTable) (h : Nat), awake s.dev 8 = true ∧ (i, r) ∈ [(Instr.allReduce k g, 2), (.allGather k g, 3), (.reduceScatter k g, 4), (.broadcast k g, 5)] ∧ cmdAt s.dev k = some x ∧ x.spec.op = .call r a ∧ x.phase = .issued ∧ x.status = none ∧ x.step = 4 ∧ x.group = some g' ∧ h = (g'.members.getD g'.self.toNat Member0).counter.toNat ∧ hot s.dev (bolRecs s.dev h) ∧ bolOk s.dev h = true ∧ (bolAt s.dev (bolIdx h)).state = .live ∧ bolOwner (bolAt s.dev (bolIdx h)) = x.ctx ∧ (bolAt s.dev (bolIdx h)).kind = .counter ∧ s.dev.blu.waits = [] ∧ x.applied.contains 258 = false ∧ (bolAt s.dev (bolIdx h)).value = 0) :=
  ⟨⟨st (cmds [ring 0]), k0, ring 0, ⟨[], 0⟩, 3, [], .allGather k0 ⟨[], 0⟩, by decide⟩,
   ⟨st (cmds [ring 0]), k0, ring 0, grp, 3, [], .allGather k0 grp, by decide⟩,
   ⟨st (cmds [ring 1]), k0, ring 1, grp, 3, [], .allGather k0 grp, grp, by decide⟩,
   ⟨st (cmds [ring 2]), k0, ring 2, grp, 3, [], .allGather k0 grp, grp, by decide⟩,
   ⟨st (cmds [{ ring 3 with spec := { spec0 with op := .call 2 [] } }] (bolDev counter0)), k0, { ring 3 with spec := { spec0 with op := .call 2 [] } }, grp, 2, [], .allReduce k0 grp, grp, hBol, by simp only [hot]; decide⟩,
   ⟨st (cmds [{ ring 4 with group := some grp1 }] (bolDev { counter0 with value := 2 })), k0, { ring 4 with group := some grp1 }, grp, 3, [], .allGather k0 grp, grp1, hBol, by simp only [hot]; decide⟩,
   ⟨st (cmds [{ ring 4 with group := some grp1 }] (bolDev counter0)), k0, { ring 4 with group := some grp1 }, grp, 3, [], .allGather k0 grp, grp1, hBol, by simp only [hot]; decide⟩⟩

theorem wit_TileForm :
    (∃ (s : State) (q : BitVec 4) (c : Cmd) (i : Nat) (sl : Slice) (n : Nat) (ws : _) (ext : _) (a : _), awake s.dev 8 = true ∧ s.dev.seqs.length = 16 ∧ fld s.dev (fTsqState q.toNat) = 1 ∧ formJob s.dev q.toNat = some (c, i) ∧ c.slices[i]? = some sl ∧ n = sliceTile sl ∧ 0 < sl.runLeft ∧ cmdAt s.dev c.key = some c ∧ formTile s.dev (seqAt s.dev q.toNat) c n = .ok ws ext a ∧ descWords ((seqAt s.dev q.toNat).buf ++ [mkDesc s.dev c n a sl.runQuay q.toNat sl.runDepth ws ext]) ≤ 960) ∧
    (∃ (s : State) (q : BitVec 4) (c : Cmd) (i : Nat) (sl : Slice) (n : Nat) (cause : _) (a : _) (slot : _), awake s.dev 8 = true ∧ s.dev.seqs.length = 16 ∧ fld s.dev (fTsqState q.toNat) = 1 ∧ formJob s.dev q.toNat = some (c, i) ∧ c.slices[i]? = some sl ∧ n = sliceTile sl ∧ 0 < sl.runLeft ∧ cmdAt s.dev c.key = some c ∧ formTile s.dev (seqAt s.dev q.toNat) c n = .fault cause a slot ∧ c.completeLsn = none ∧ c.status = none) :=
  ⟨⟨st (formDev 0), 15, forming 0, 0, { seq := 15, next := 0, stop := 2, runLeft := 2, runDepth := 4 }, 0, wordsOf (formW 0), (none : Option (List W64)), 0x1000, by decide⟩,
   ⟨st (formDev 1), 15, forming 1, 0, { seq := 15, next := 0, stop := 2, runLeft := 2, runDepth := 4 }, 0, 0x21, 0x2001, 0, by decide⟩⟩

theorem wit_OperandAddress :
    (∃ (c : Cmd) (l : LaunchOp) (o : Opnd) (n : Nat) (a : Nat), l.opnds = [o] ∧ l.idxOpnd = 15 ∧ o.moorKey = 0 ∧ a = wrap64 (Int.ofNat o.base + Int.ofNat ((pointOf c.pieces c.trips n).2.getD 0 0) * strideAt o 0 + strideSum o 1 ((pointOf c.pieces c.trips n).2.drop 1) + pieceOff (pointOf c.pieces c.trips n).1 c.pieces (strideAt o l.splitLevel) (elemBytes o)) ∧ a < 2 ^ 57 ∧ a % 2 ^ o.elem = 0) ∧
    (∃ (c : Cmd) (l : LaunchOp) (o : Opnd) (n : Nat) (a : Nat), l.opnds = [o] ∧ l.idxOpnd = 15 ∧ o.moorKey = 0 ∧ a = wrap64 (Int.ofNat o.base + Int.ofNat ((pointOf c.pieces c.trips n).2.getD 0 0) * strideAt o 0 + strideSum o 1 ((pointOf c.pieces c.trips n).2.drop 1) + pieceOff (pointOf c.pieces c.trips n).1 c.pieces (strideAt o l.splitLevel) (elemBytes o)) ∧ ¬ (a < 2 ^ 57 ∧ a % 2 ^ o.elem = 0)) :=
  ⟨⟨forming 0, lop1 0, ((lop1 0).opnds.getD 0 ⟨0, 0, false, 0, 0, [], 0⟩), 1, wrap64 (Int.ofNat ((((lop1 0).opnds.getD 0 ⟨0, 0, false, 0, 0, [], 0⟩)) : Opnd).base + Int.ofNat ((pointOf ((forming 0) : Cmd).pieces ((forming 0) : Cmd).trips ((1) : Nat)).2.getD 0 0) * strideAt ((((lop1 0).opnds.getD 0 ⟨0, 0, false, 0, 0, [], 0⟩)) : Opnd) 0 + strideSum ((((lop1 0).opnds.getD 0 ⟨0, 0, false, 0, 0, [], 0⟩)) : Opnd) 1 ((pointOf ((forming 0) : Cmd).pieces ((forming 0) : Cmd).trips ((1) : Nat)).2.drop 1) + pieceOff (pointOf ((forming 0) : Cmd).pieces ((forming 0) : Cmd).trips ((1) : Nat)).1 ((forming 0) : Cmd).pieces (strideAt ((((lop1 0).opnds.getD 0 ⟨0, 0, false, 0, 0, [], 0⟩)) : Opnd) ((lop1 0) : LaunchOp).splitLevel) (elemBytes ((((lop1 0).opnds.getD 0 ⟨0, 0, false, 0, 0, [], 0⟩)) : Opnd))), by decide⟩,
   ⟨forming 1, lop1 1, ((lop1 1).opnds.getD 0 ⟨0, 0, false, 0, 0, [], 0⟩), 1, wrap64 (Int.ofNat ((((lop1 1).opnds.getD 0 ⟨0, 0, false, 0, 0, [], 0⟩)) : Opnd).base + Int.ofNat ((pointOf ((forming 1) : Cmd).pieces ((forming 1) : Cmd).trips ((1) : Nat)).2.getD 0 0) * strideAt ((((lop1 1).opnds.getD 0 ⟨0, 0, false, 0, 0, [], 0⟩)) : Opnd) 0 + strideSum ((((lop1 1).opnds.getD 0 ⟨0, 0, false, 0, 0, [], 0⟩)) : Opnd) 1 ((pointOf ((forming 1) : Cmd).pieces ((forming 1) : Cmd).trips ((1) : Nat)).2.drop 1) + pieceOff (pointOf ((forming 1) : Cmd).pieces ((forming 1) : Cmd).trips ((1) : Nat)).1 ((forming 1) : Cmd).pieces (strideAt ((((lop1 1).opnds.getD 0 ⟨0, 0, false, 0, 0, [], 0⟩)) : Opnd) ((lop1 1) : LaunchOp).splitLevel) (elemBytes ((((lop1 1).opnds.getD 0 ⟨0, 0, false, 0, 0, [], 0⟩)) : Opnd))), by decide⟩⟩

theorem wit_IndexLine :
    (∃ (s : State) (q : BitVec 4) (a : BitVec 57), awake s.dev 8 = true ∧ (seqAt s.dev q.toNat).asked.contains a.toNat = true ∧ s.dev.seqs.length = 16 ∧ (seqAt s.dev q.toNat).lines.length ≤ 64) ∧
    (∃ (s : State) (q : BitVec 4) (a : BitVec 57), awake s.dev 8 = true ∧ (seqAt s.dev q.toNat).asked.contains a.toNat = false) :=
  ⟨⟨st (modSeq up 15 fun q => { q with asked := [64], lines := List.replicate 64 (0, 0) }), 15, 64, by decide⟩,
   ⟨st up, 15, 64, by decide⟩⟩

theorem wit_DescriptorCrossing :
    (∃ (s : State) (sq : BitVec 4) (x : Desc) (rest : List Desc) (c : Cmd), awake s.dev 8 = true ∧ s.dev.seqs.length = 16 ∧ s.dev.quays.length = 56 ∧ (seqAt s.dev sq.toNat).buf = x :: rest ∧ cmdAt s.dev x.cmd = some c ∧ x.quay < 56 ∧ fld s.dev (fQptState x.quay) = 1 ∧ (quayAt s.dev x.quay).drains = [] ∧ (quayAt s.dev x.quay).offered.isSome = true ∧ descWords ((quayAt s.dev x.quay).queue ++ [x]) ≤ 128) ∧
    (∃ (s : State) (sq : BitVec 4) (x : Desc) (rest : List Desc) (c : Cmd), awake s.dev 8 = true ∧ s.dev.seqs.length = 16 ∧ s.dev.quays.length = 56 ∧ (seqAt s.dev sq.toNat).buf = x :: rest ∧ cmdAt s.dev x.cmd = some c ∧ x.quay < 56 ∧ fld s.dev (fQptState x.quay) = 1 ∧ (quayAt s.dev x.quay).drains = [] ∧ (quayAt s.dev x.quay).offered.isSome = true ∧ 128 < descWords ((quayAt s.dev x.quay).queue ++ [x])) :=
  ⟨⟨st (bufDev (atQuay 55 (fun u => { offer u with queue := List.replicate 127 (desc0 55) }) (cmds [issued (.launch lop)]))), 15, desc0 55, [], issued (.launch lop), by decide⟩,
   ⟨st (bufDev (atQuay 55 (fun u => { offer u with queue := List.replicate 128 (desc0 55) }) (cmds [issued (.launch lop)]))), 15, desc0 55, [], issued (.launch lop), by decide⟩⟩

theorem wit_DescriptorLaunch :
    (∃ (s : State) (q : BitVec 6) (x : Desc) (st : Nat), awake s.dev 9 = true ∧ q.toNat < 56 ∧ s.dev.quays.length = 56 ∧ (quayAt s.dev q.toNat).offered = some (x, st) ∧ (quayAt s.dev q.toNat).extNext = false ∧ (quayAt s.dev q.toNat).queue = [] ∧ quayRuns s.dev q.toNat = true ∧ x.ext = none) ∧
    (∃ (s : State) (q : BitVec 6) (x : Desc) (st : Nat), awake s.dev 9 = true ∧ q.toNat < 56 ∧ s.dev.quays.length = 56 ∧ (quayAt s.dev q.toNat).offered = some (x, st) ∧ (quayAt s.dev q.toNat).extNext = false ∧ (quayAt s.dev q.toNat).queue = [] ∧ quayRuns s.dev q.toNat = false) :=
  ⟨⟨st (runs 55 1 (atQuay 55 offer home)), 55, desc0 55, 3, by decide⟩,
   ⟨st (runs 55 3 (atQuay 55 offer home)), 55, desc0 55, 3, by decide⟩⟩

theorem wit_CompletionPacket :
    (∃ (s : State) (q : BitVec 6) (p : CplPacket) (t0 : OutTile), awake s.dev 9 = true ∧ q.toNat < 56 ∧ s.dev.quays.length = 56 ∧ quayRuns s.dev q.toNat = true ∧ (quayAt s.dev q.toNat).cpl = [] ∧ (quayAt s.dev q.toNat).out = [t0] ∧ (quayAt s.dev q.toNat).queue = [] ∧ (quayAt s.dev q.toNat).offered = none ∧ flag s.dev (fErrValid (0x40 + q.toNat)) = false ∧ t0.station = p.stn.toNat ∧ t0.desc.tag = p.tag.toNat ∧ p.fault = false ∧ p.last = false) ∧
    (∃ (s : State) (q : BitVec 6) (p : CplPacket) (t0 : OutTile), awake s.dev 9 = true ∧ q.toNat < 56 ∧ s.dev.quays.length = 56 ∧ quayRuns s.dev q.toNat = true ∧ (quayAt s.dev q.toNat).cpl = [] ∧ (quayAt s.dev q.toNat).out = [t0] ∧ (quayAt s.dev q.toNat).queue = [] ∧ (quayAt s.dev q.toNat).offered = none ∧ flag s.dev (fErrValid (0x40 + q.toNat)) = false ∧ t0.station = p.stn.toNat ∧ t0.desc.tag = p.tag.toNat ∧ p.fault = false ∧ p.last = true ∧ (ctxAt s.dev (ctxIdx t0.desc.ctx)).gen = ctxGen t0.desc.ctx) ∧
    (∃ (s : State) (q : BitVec 6) (p : CplPacket) (t0 : OutTile), awake s.dev 9 = true ∧ q.toNat < 56 ∧ s.dev.quays.length = 56 ∧ quayRuns s.dev q.toNat = true ∧ (quayAt s.dev q.toNat).cpl = [] ∧ (quayAt s.dev q.toNat).out = [t0] ∧ (quayAt s.dev q.toNat).queue = [] ∧ (quayAt s.dev q.toNat).offered = none ∧ flag s.dev (fErrValid (0x40 + q.toNat)) = false ∧ (t0.station ≠ p.stn.toNat ∨ t0.desc.tag ≠ p.tag.toNat)) :=
  ⟨⟨st (runs 55 1 (outAt 55 home)), 55, pkt 0 false false, { desc := desc0 55, station := 0, launched := 0 }, by decide⟩,
   ⟨st (runs 55 2 (outAt 55 home)), 55, pkt 0 true false, { desc := desc0 55, station := 0, launched := 0 }, by decide⟩,
   ⟨st (runs 55 1 (outAt 55 home)), 55, pkt 1 true false, { desc := desc0 55, station := 0, launched := 0 }, by decide⟩⟩

theorem wit_CommandTilesDone :
    (∃ (s : State) (k : CmdId) (x : Cmd), awake s.dev 6 = true ∧ cmdAt s.dev k = some x ∧ x.phase = .issued ∧ x.status = none ∧ x.completeLsn = none ∧ x.spec.op.sequenced = true ∧ x.spec.op.collective = false ∧ tilesDone s.dev x = true ∧ x.spec.sigs = []) ∧
    (∃ (s : State) (k : CmdId) (x : Cmd), awake s.dev 6 = true ∧ cmdAt s.dev k = some x ∧ x.phase = .issued ∧ x.status = none ∧ x.completeLsn = none ∧ x.spec.op.sequenced = true ∧ x.spec.op.collective = false ∧ tilesDone s.dev x = false) :=
  ⟨⟨st (cmds [stepAt (.launch lop) 1]), k0, stepAt (.launch lop) 1, by decide⟩,
   ⟨st (outAt 0 (cmds [stepAt (.launch lop) 1])), k0, stepAt (.launch lop) 1, by decide⟩⟩

theorem wit_CommandFault : ∃ (s : State) (k : CmdId) (c : Cmd) (q : Nat) (x : Desc) (p : CplPacket) (rest : List (Nat × Desc × CplPacket)), awake s.dev 6 = true ∧ cmdAt s.dev k = some c ∧ c.status = none ∧ c.completeLsn = none ∧ heldFaults s.dev k = (q, x, p) :: rest ∧ tfind s.dev.scu.slots c.berth = none ∧ (ctxAt s.dev (ctxIdx c.ctx)).state = .live ∧ (berthAt s.dev c.berth).state = .live :=
  ⟨st (atQuay 55 (fun u => { u with cpl := [(desc0 55, pkt 0 true true)] }) (cmds [stepAt (.launch lop) 1])), k0, stepAt (.launch lop) 1, 55, desc0 55, pkt 0 true true, [], by decide⟩

theorem wit_DrainRequest :
    (∃ (s : State) (q : BitVec 6) (h : W32), awake s.dev 9 = true ∧ q.toNat < 56 ∧ s.dev.quays.length = 56 ∧ ctxOk s.dev h.toNat = true ∧ (ctxAt s.dev (ctxIdx h.toNat)).state = .dying ∧ (quayAt s.dev q.toNat).drains = [] ∧ quayRuns s.dev q.toNat = true) ∧
    (∃ (s : State) (q : BitVec 6) (h : W32), awake s.dev 9 = true ∧ q.toNat < 56 ∧ s.dev.quays.length = 56 ∧ ctxOk s.dev h.toNat = true ∧ (ctxAt s.dev (ctxIdx h.toNat)).state = .dying ∧ (quayAt s.dev q.toNat).drains = [] ∧ quayRuns s.dev q.toNat = false) :=
  ⟨⟨st (runs 55 1 (atQuay 55 (fun u => { u with queue := [desc0 55] }) dying)), 55, BitVec.ofNat 32 hCtx, by decide⟩,
   ⟨st (runs 55 3 dying), 55, BitVec.ofNat 32 hCtx, by decide⟩⟩

theorem wit_DrainEnd :
    (∃ (s : State) (q : BitVec 6), awake s.dev 9 = true ∧ q.toNat < 56 ∧ s.dev.quays.length = 56 ∧ fld s.dev (fQptState q.toNat) = 2 ∧ (quayAt s.dev q.toNat).queue = [] ∧ (quayAt s.dev q.toNat).out = [] ∧ (quayAt s.dev q.toNat).offered = none) ∧
    (∃ (s : State) (q : BitVec 6), awake s.dev 9 = true ∧ q.toNat < 56 ∧ s.dev.quays.length = 56 ∧ fld s.dev (fQptState q.toNat) = 2 ∧ (quayAt s.dev q.toNat).queue = [] ∧ (quayAt s.dev q.toNat).drains ≠ [] ∧ flag s.dev (fErrValid (0x40 + q.toNat)) = false ∧ (quayAt s.dev q.toNat).drainStart + (quayAt s.dev q.toNat).drainTmo * 1000 ≤ s.dev.now) ∧
    (∃ (s : State) (q : BitVec 6), awake s.dev 9 = true ∧ q.toNat < 56 ∧ s.dev.quays.length = 56 ∧ fld s.dev (fQptState q.toNat) = 2 ∧ (quayAt s.dev q.toNat).queue = [] ∧ s.dev.now < (quayAt s.dev q.toNat).drainStart + (quayAt s.dev q.toNat).drainTmo * 1000) :=
  ⟨⟨st (runs 55 2 (atQuay 55 (fun u => { u with drains := [(.all, .host)] }) up)), 55, by decide⟩,
   ⟨st { runs 55 2 (atQuay 55 (fun u => { u with drains := [(.all, .host)], out := [{ desc := desc0 55, station := 0, launched := 0 }] }) up) with now := 10 ^ 9 }, 55, by decide⟩,
   ⟨st (runs 55 2 (atQuay 55 (fun u => { u with drains := [(.all, .host)], drainTmo := 1 }) up)), 55, by decide⟩⟩

theorem wit_QuayStates :
    (∃ (s : State) (q : BitVec 6), awake s.dev 9 = true ∧ awake s.dev 13 = true ∧ q.toNat < 56 ∧ s.dev.quays.length = 56 ∧ fld s.dev (fQptState q.toNat) = 1 ∧ flag s.dev (fErrValid (0x40 + q.toNat)) = false) ∧
    (∃ (s : State) (q : BitVec 6), awake s.dev 9 = true ∧ awake s.dev 13 = true ∧ q.toNat < 56 ∧ s.dev.quays.length = 56 ∧ fld s.dev (fQptState q.toNat) = 4) ∧
    (∃ (s : State) (q : BitVec 6), awake s.dev 9 = true ∧ awake s.dev 13 = true ∧ q.toNat < 56 ∧ s.dev.quays.length = 56 ∧ fld s.dev (fQptState q.toNat) = 3) ∧
    (∃ (s : State) (q : BitVec 6), awake s.dev 9 = true ∧ awake s.dev 13 = true ∧ q.toNat < 56 ∧ s.dev.quays.length = 56 ∧ fld s.dev (fQptState q.toNat) ≠ 3) :=
  ⟨⟨st (runs 55 1 (outAt 55 home)), 55, by decide⟩,
   ⟨st (runs 55 4), 55, by decide⟩,
   ⟨st (runs 55 3), 55, by decide⟩,
   ⟨st (runs 55 1), 55, by decide⟩⟩

/-- The command with one wait, and with one signal that is next. -/
def waiter (e : SyncEnt) : Cmd := { cmd0 with spec := { spec0 with waits := [e] } }
def signaller (e : SyncEnt) : Cmd := { cmd0 with phase := .closing, spec := { spec0 with sigs := [e] } }
def waitOn (r : BolRec) (e : SyncEnt) : State := st (cmds [waiter e] (bolDev r))
def ofKind (k : BolKind) (v param : W64) : BolRec := { bol0 with kind := k, value := v, param := param }
def foreign0 : BolRec := { bol0 with cap := 5 }
def two (d : Dev) : Dev := { d with btc := { d.btc with hotCtx := [3, 4] } }
def remote0 : SyncEnt := ⟨77, hBol, 1, 0, 1, false⟩
def farDev (p : Partner) : Dev := { cmds [{ waiter remote0 with waitSince := 1 }] with fsa := { partners := [(77, p)] } }
def sigOn (r : BolRec) (e : SyncEnt) : State := st (cmds [signaller e] (bolDev r))
def hostCmd (r : BolRec) (v : Nat) (d : Dev := home) : Dev := fs (bolDev r d) [(fBluHcmdSel, hBol), (⟨5, 0x090, 63, 0⟩, v)]

theorem wit_WaitChecks :
    (∃ (s : State) (k : CmdId) (c : Cmd) (e : SyncEnt) (i : Instr) (n : Nat) (r : BolRec), awake s.dev 6 = true ∧ waitTurn s.dev k c e ∧ (i, n) ∈ waitRows k ∧ r = bolAt s.dev (bolIdx e.handle) ∧ e.code ≠ n) ∧
    (∃ (s : State) (k : CmdId) (c : Cmd) (e : SyncEnt) (i : Instr) (n : Nat) (r : BolRec), awake s.dev 6 = true ∧ waitTurn s.dev k c e ∧ (i, n) ∈ waitRows k ∧ r = bolAt s.dev (bolIdx e.handle) ∧ e.code = n ∧ bolOk s.dev e.handle = false) ∧
    (∃ (s : State) (k : CmdId) (c : Cmd) (e : SyncEnt) (i : Instr) (n : Nat) (r : BolRec), awake s.dev 6 = true ∧ waitTurn s.dev k c e ∧ (i, n) ∈ waitRows k ∧ r = bolAt s.dev (bolIdx e.handle) ∧ e.code = n ∧ bolOk s.dev e.handle = true ∧ r.state = .abandoned ∧ e.cont = false) ∧
    (∃ (s : State) (k : CmdId) (c : Cmd) (e : SyncEnt) (i : Instr) (n : Nat) (r : BolRec), awake s.dev 6 = true ∧ waitTurn s.dev k c e ∧ (i, n) ∈ waitRows k ∧ r = bolAt s.dev (bolIdx e.handle) ∧ e.code = n ∧ bolOk s.dev e.handle = true ∧ r.state = .live ∧ capOk r c.ctx e.cap = false) ∧
    (∃ (s : State) (k : CmdId) (c : Cmd) (e : SyncEnt) (i : Instr) (n : Nat) (r : BolRec), awake s.dev 6 = true ∧ waitTurn s.dev k c e ∧ (i, n) ∈ waitRows k ∧ r = bolAt s.dev (bolIdx e.handle) ∧ e.code = n ∧ bolOk s.dev e.handle = true ∧ r.state = .live ∧ capOk r c.ctx e.cap = true ∧ kindOfCode n ≠ some r.kind) :=
  ⟨⟨waitOn bol0 (ent0 1 5), k0, waiter (ent0 1 5), ent0 1 5, .flagIsClear k0, 5, bolAt ((waitOn bol0 (ent0 1 5)) : State).dev (bolIdx ((ent0 1 5) : SyncEnt).handle), by simp only [waitTurn, hot]; decide⟩,
   ⟨waitOn { bol0 with gen := 2 } (ent0 1 5), k0, waiter (ent0 1 5), ent0 1 5, .fenceGe k0, 1, bolAt ((waitOn { bol0 with gen := 2 } (ent0 1 5)) : State).dev (bolIdx ((ent0 1 5) : SyncEnt).handle), by simp only [waitTurn, hot]; decide⟩,
   ⟨waitOn { bol0 with state := .abandoned } (ent0 1 5), k0, waiter (ent0 1 5), ent0 1 5, .fenceGe k0, 1, bolAt ((waitOn { bol0 with state := .abandoned } (ent0 1 5)) : State).dev (bolIdx ((ent0 1 5) : SyncEnt).handle), by simp only [waitTurn, hot]; decide⟩,
   ⟨waitOn bol0 { ent0 1 5 with cap := 1 }, k0, waiter { ent0 1 5 with cap := 1 }, { ent0 1 5 with cap := 1 }, .fenceGe k0, 1, bolAt ((waitOn bol0 { ent0 1 5 with cap := 1 }) : State).dev (bolIdx (({ ent0 1 5 with cap := 1 }) : SyncEnt).handle), by simp only [waitTurn, hot]; decide⟩,
   ⟨waitOn (ofKind .flag 0 0) (ent0 1 5), k0, waiter (ent0 1 5), ent0 1 5, .fenceGe k0, 1, bolAt ((waitOn (ofKind .flag 0 0) (ent0 1 5)) : State).dev (bolIdx ((ent0 1 5) : SyncEnt).handle), by simp only [waitTurn, hot]; decide⟩⟩

theorem wit_WaitLevel :
    (∃ (s : State) (k : CmdId) (c : Cmd) (e : SyncEnt) (i : Instr) (n : Nat) (r : BolRec), awake s.dev 6 = true ∧ waitTurn s.dev k c e ∧ (i, n) ∈ waitRows k ∧ e.code = n ∧ r = bolAt s.dev (bolIdx e.handle) ∧ bolOk s.dev e.handle = true ∧ r.state = .live ∧ capOk r c.ctx e.cap = true ∧ kindOfCode n = some r.kind ∧ (r.kind = .fence ∨ r.kind = .flag) ∧ (r.watchArm && watchHolds r) = false ∧ condHolds r n e.value = true) ∧
    (∃ (s : State) (k : CmdId) (c : Cmd) (e : SyncEnt) (i : Instr) (n : Nat) (r : BolRec), awake s.dev 6 = true ∧ waitTurn s.dev k c e ∧ (i, n) ∈ waitRows k ∧ e.code = n ∧ r = bolAt s.dev (bolIdx e.handle) ∧ bolOk s.dev e.handle = true ∧ r.state = .live ∧ capOk r c.ctx e.cap = true ∧ kindOfCode n = some r.kind ∧ (r.kind = .fence ∨ r.kind = .flag) ∧ (r.watchArm && watchHolds r) = false ∧ condHolds r n e.value = false) :=
  ⟨⟨waitOn (ofKind .fence 5 0) (ent0 1 5), k0, waiter (ent0 1 5), ent0 1 5, .fenceGe k0, 1, bolAt ((waitOn (ofKind .fence 5 0) (ent0 1 5)) : State).dev (bolIdx ((ent0 1 5) : SyncEnt).handle), by simp only [waitTurn, hot]; decide⟩,
   ⟨waitOn (ofKind .flag 0 0) (ent0 4 0), k0, waiter (ent0 4 0), ent0 4 0, .flagIsSet k0, 4, bolAt ((waitOn (ofKind .flag 0 0) (ent0 4 0)) : State).dev (bolIdx ((ent0 4 0) : SyncEnt).handle), by simp only [waitTurn, hot]; decide⟩⟩

theorem wit_CounterTake :
    (∃ (s : State) (k : CmdId) (c : Cmd) (e : SyncEnt) (r : BolRec), awake s.dev 6 = true ∧ waitTurn s.dev k c e ∧ e.code = 2 ∧ r = bolAt s.dev (bolIdx e.handle) ∧ bolOk s.dev e.handle = true ∧ r.state = .live ∧ capOk r c.ctx e.cap = true ∧ r.kind = .counter ∧ (r.watchArm && watchHolds r) = false ∧ capacityOf r < e.value.toNat) ∧
    (∃ (s : State) (k : CmdId) (c : Cmd) (e : SyncEnt) (r : BolRec), awake s.dev 6 = true ∧ waitTurn s.dev k c e ∧ e.code = 2 ∧ r = bolAt s.dev (bolIdx e.handle) ∧ bolOk s.dev e.handle = true ∧ r.state = .live ∧ capOk r c.ctx e.cap = true ∧ r.kind = .counter ∧ (r.watchArm && watchHolds r) = false ∧ e.value.toNat ≤ capacityOf r ∧ e.value.toNat ≤ r.value.toNat) ∧
    (∃ (s : State) (k : CmdId) (c : Cmd) (e : SyncEnt) (r : BolRec), awake s.dev 6 = true ∧ waitTurn s.dev k c e ∧ e.code = 2 ∧ r = bolAt s.dev (bolIdx e.handle) ∧ bolOk s.dev e.handle = true ∧ r.state = .live ∧ capOk r c.ctx e.cap = true ∧ r.kind = .counter ∧ (r.watchArm && watchHolds r) = false ∧ e.value.toNat ≤ capacityOf r ∧ r.value.toNat < e.value.toNat) :=
  ⟨⟨waitOn (ofKind .counter 3 4) (ent0 2 5), k0, waiter (ent0 2 5), ent0 2 5, bolAt ((waitOn (ofKind .counter 3 4) (ent0 2 5)) : State).dev (bolIdx ((ent0 2 5) : SyncEnt).handle), by simp only [waitTurn, hot]; decide⟩,
   ⟨waitOn (ofKind .counter 3 4) (ent0 2 3), k0, waiter (ent0 2 3), ent0 2 3, bolAt ((waitOn (ofKind .counter 3 4) (ent0 2 3)) : State).dev (bolIdx ((ent0 2 3) : SyncEnt).handle), by simp only [waitTurn, hot]; decide⟩,
   ⟨waitOn (ofKind .counter 3 4) (ent0 2 4), k0, waiter (ent0 2 4), ent0 2 4, bolAt ((waitOn (ofKind .counter 3 4) (ent0 2 4)) : State).dev (bolIdx ((ent0 2 4) : SyncEnt).handle), by simp only [waitTurn, hot]; decide⟩⟩

theorem wit_BarrierPass :
    (∃ (s : State) (k : CmdId) (c : Cmd) (e : SyncEnt) (r : BolRec) (v : W64), awake s.dev 6 = true ∧ waitTurn s.dev k c e ∧ e.code = 3 ∧ r = bolAt s.dev (bolIdx e.handle) ∧ bolOk s.dev e.handle = true ∧ r.state = .live ∧ capOk r c.ctx e.cap = true ∧ r.kind = .barrier ∧ arriveOp (participantsOf r) r.value (e.value.toNat % 2 ^ 32) = .ok v ∧ condHolds { r with value := v } 3 e.value = true) ∧
    (∃ (s : State) (k : CmdId) (c : Cmd) (e : SyncEnt) (r : BolRec) (v : W64), awake s.dev 6 = true ∧ waitTurn s.dev k c e ∧ e.code = 3 ∧ r = bolAt s.dev (bolIdx e.handle) ∧ bolOk s.dev e.handle = true ∧ r.state = .live ∧ capOk r c.ctx e.cap = true ∧ r.kind = .barrier ∧ arriveOp (participantsOf r) r.value (e.value.toNat % 2 ^ 32) = .ok v ∧ condHolds { r with value := v } 3 e.value = false) :=
  ⟨⟨waitOn (ofKind .barrier (mkBarrier 7 1 0) 2) (ent0 3 7), k0, waiter (ent0 3 7), ent0 3 7, bolAt ((waitOn (ofKind .barrier (mkBarrier 7 1 0) 2) (ent0 3 7)) : State).dev (bolIdx ((ent0 3 7) : SyncEnt).handle), mkBarrier 8 0 0, by simp only [waitTurn, hot]; decide⟩,
   ⟨waitOn (ofKind .barrier (mkBarrier 7 0 0) 2) (ent0 3 7), k0, waiter (ent0 3 7), ent0 3 7, bolAt ((waitOn (ofKind .barrier (mkBarrier 7 0 0) 2) (ent0 3 7)) : State).dev (bolIdx ((ent0 3 7) : SyncEnt).handle), mkBarrier 7 1 0, by simp only [waitTurn, hot]; decide⟩⟩

theorem wit_RemoteWait :
    (∃ (s : State) (k : CmdId) (c : Cmd) (e : SyncEnt) (i : Instr) (n : Nat), awake s.dev 6 = true ∧ cmdAt s.dev k = some c ∧ hot s.dev (berthRecs s.dev c.berth) ∧ fld s.dev fLoadState = 3 ∧ ctxLive s.dev c.ctx = true ∧ c.phase = .waiting ∧ c.skipped = false ∧ c.regd = false ∧ orderOk s.dev c = true ∧ c.met < c.spec.waits.length ∧ e = c.spec.waits.getD c.met noEnt ∧ e.node ≠ 0 ∧ e.code = n ∧ (i, n) ∈ waitRows k ∧ c.completeLsn = none ∧ c.status = none ∧ reachable s.dev e.node = false) ∧
    (∃ (s : State) (k : CmdId) (c : Cmd) (e : SyncEnt) (i : Instr) (n : Nat), awake s.dev 6 = true ∧ cmdAt s.dev k = some c ∧ hot s.dev (berthRecs s.dev c.berth) ∧ fld s.dev fLoadState = 3 ∧ ctxLive s.dev c.ctx = true ∧ c.phase = .waiting ∧ c.skipped = false ∧ c.regd = false ∧ orderOk s.dev c = true ∧ c.met < c.spec.waits.length ∧ e = c.spec.waits.getD c.met noEnt ∧ e.node ≠ 0 ∧ e.code = n ∧ (i, n) ∈ waitRows k ∧ c.completeLsn = none ∧ c.status = none ∧ reachable s.dev e.node = true ∧ fld s.dev fFsaShare ≤ (partnerAt s.dev e.node).shares) ∧
    (∃ (s : State) (k : CmdId) (c : Cmd) (e : SyncEnt) (i : Instr) (n : Nat), awake s.dev 6 = true ∧ cmdAt s.dev k = some c ∧ hot s.dev (berthRecs s.dev c.berth) ∧ fld s.dev fLoadState = 3 ∧ ctxLive s.dev c.ctx = true ∧ c.phase = .waiting ∧ c.skipped = false ∧ c.regd = false ∧ orderOk s.dev c = true ∧ c.met < c.spec.waits.length ∧ e = c.spec.waits.getD c.met noEnt ∧ e.node ≠ 0 ∧ e.code = n ∧ (i, n) ∈ waitRows k ∧ c.completeLsn = none ∧ c.status = none ∧ reachable s.dev e.node = true ∧ (partnerAt s.dev e.node).shares < fld s.dev fFsaShare ∧ queueRoom s.dev e.node = true) :=
  ⟨⟨st (farDev { st := .absent }), k0, { waiter remote0 with waitSince := 1 }, remote0, .fenceGe k0, 1, by simp only [hot]; decide⟩,
   ⟨st (farDev { primary := some 0, shares := 1 ^ 20 * 2 ^ 20 }), k0, { waiter remote0 with waitSince := 1 }, remote0, .fenceGe k0, 1, by simp only [hot]; decide⟩,
   ⟨st (farDev { primary := some 0 }), k0, { waiter remote0 with waitSince := 1 }, remote0, .fenceGe k0, 1, by simp only [hot]; decide⟩⟩

theorem wit_SignalApplied :
    (∃ (s : State) (k : CmdId) (c : Cmd) (e : SyncEnt) (i : Instr) (j : BitVec 1) (n : Nat), awake s.dev 6 = true ∧ cmdAt s.dev k = some c ∧ hot s.dev (berthRecs s.dev c.berth) ∧ c.phase = .closing ∧ c.status = none ∧ c.completeLsn = none ∧ c.sigNext = j.toNat ∧ j.toNat < c.spec.sigs.length ∧ e = c.spec.sigs.getD j.toNat noEnt ∧ e.node = 0 ∧ hot s.dev (bolRecs s.dev e.handle) ∧ c.applied.contains (4 + j.toNat) = false ∧ c.skipped = false ∧ c.branched = false ∧ (i, n) ∈ signalRows k j ∧ ((∀ w ∈ s.dev.blu.waits, w.bol ≠ bolIdx e.handle)) ∧ ((∀ x ∈ c.sigRes, x.2.1 = stOk)) ∧ e.code ≠ n) ∧
    (∃ (s : State) (k : CmdId) (c : Cmd) (e : SyncEnt) (i : Instr) (j : BitVec 1) (n : Nat) (v : _), awake s.dev 6 = true ∧ cmdAt s.dev k = some c ∧ hot s.dev (berthRecs s.dev c.berth) ∧ c.phase = .closing ∧ c.status = none ∧ c.completeLsn = none ∧ c.sigNext = j.toNat ∧ j.toNat < c.spec.sigs.length ∧ e = c.spec.sigs.getD j.toNat noEnt ∧ e.node = 0 ∧ hot s.dev (bolRecs s.dev e.handle) ∧ c.applied.contains (4 + j.toNat) = false ∧ c.skipped = false ∧ c.branched = false ∧ (i, n) ∈ signalRows k j ∧ ((∀ w ∈ s.dev.blu.waits, w.bol ≠ bolIdx e.handle)) ∧ ((∀ x ∈ c.sigRes, x.2.1 = stOk)) ∧ e.code = n ∧ localTest s.dev c.ctx e = .ok v) ∧
    (∃ (s : State) (k : CmdId) (c : Cmd) (e : SyncEnt) (i : Instr) (j : BitVec 1) (n : Nat) (row : _) (st : _), awake s.dev 6 = true ∧ cmdAt s.dev k = some c ∧ hot s.dev (berthRecs s.dev c.berth) ∧ c.phase = .closing ∧ c.status = none ∧ c.completeLsn = none ∧ c.sigNext = j.toNat ∧ j.toNat < c.spec.sigs.length ∧ e = c.spec.sigs.getD j.toNat noEnt ∧ e.node = 0 ∧ hot s.dev (bolRecs s.dev e.handle) ∧ c.applied.contains (4 + j.toNat) = false ∧ c.skipped = false ∧ c.branched = false ∧ (i, n) ∈ signalRows k j ∧ ((∀ w ∈ s.dev.blu.waits, w.bol ≠ bolIdx e.handle)) ∧ ((∀ x ∈ c.sigRes, x.2.1 = stOk)) ∧ e.code = n ∧ localTest s.dev c.ctx e = .no row ∧ refusalStatus row (ctxAt s.dev (ctxIdx c.ctx)).strictFence = (st, 0) ∧ st ≠ stOk ∧ st ≠ stFaulted ∧ c.spec.sigs.length ≤ j.toNat + 1) :=
  ⟨⟨sigOn bol0 (ent0 1 5), k0, signaller (ent0 1 5), ent0 1 5, .flagSet k0 0, 0, 4, by simp only [hot]; decide⟩,
   ⟨sigOn bol0 (ent0 1 5), k0, signaller (ent0 1 5), ent0 1 5, .fenceSet k0 0, 0, 1, 5, by simp only [hot]; decide⟩,
   ⟨sigOn { bol0 with gen := 2 } (ent0 1 5), k0, signaller (ent0 1 5), ent0 1 5, .fenceSet k0 0, 0, 1, RefuseRow.stale, stStale, by simp only [hot]; decide⟩⟩

theorem wit_SignalOperations :
    (∃ (r : BolRec), r.kind = .fence) ∧
    (∃ (r : BolRec) (v : W64), r.kind = .counter ∧ r.value.toNat + v.toNat ≤ capacityOf r) ∧
    (∃ (r : BolRec) (v : W64), r.kind = .counter ∧ capacityOf r < r.value.toNat + v.toNat) ∧
    (∃ (r : BolRec), r.kind = .flag) ∧
    (∃ (r : BolRec), r.kind = .barrier) ∧
    (∃ (r : BolRec) (n : _), kindOfCode n ≠ some r.kind) :=
  ⟨⟨bol0, by decide⟩,
   ⟨ofKind .counter 1 4, 3, by decide⟩,
   ⟨ofKind .counter 1 4, 4, by decide⟩,
   ⟨ofKind .flag 1 0, by decide⟩,
   ⟨ofKind .barrier (mkBarrier 7 1 0) 2, by decide⟩,
   ⟨bol0, 2, by decide⟩⟩

theorem wit_BarrierTurns : ∃ (n : Nat) (g : Nat) (x : Nat), 0 < n ∧ n < 2 ^ 16 ∧ x < n ∧ g < 2 ^ 32 :=
  ⟨65535, 0xFFFFFFFF, 65534, by decide⟩

theorem wit_HostCommands :
    (∃ (s : State) (i : Instr) (op : Nat) (h : Nat) (v : W64) (r : BolRec), awake s.dev 6 = true ∧ (i, op) ∈ hcmdRows ∧ h = fld s.dev fBluHcmdSel ∧ v = reg s.dev 5 0x090 ∧ r = bolAt s.dev (bolIdx h) ∧ flag s.dev fBluHcmdBusy = true) ∧
    (∃ (s : State) (i : Instr) (op : Nat) (h : Nat) (v : W64) (r : BolRec), awake s.dev 6 = true ∧ (i, op) ∈ hcmdRows ∧ h = fld s.dev fBluHcmdSel ∧ v = reg s.dev 5 0x090 ∧ r = bolAt s.dev (bolIdx h) ∧ flag s.dev fBluHcmdBusy = false ∧ flag s.dev (fQuiesced 5) = false ∧ hot s.dev (bolRecs s.dev h) ∧ (bolOk s.dev h = false ∨ r.state = .abandoned)) ∧
    (∃ (s : State) (i : Instr) (op : Nat) (h : Nat) (v : W64) (r : BolRec), awake s.dev 6 = true ∧ (i, op) ∈ hcmdRows ∧ h = fld s.dev fBluHcmdSel ∧ v = reg s.dev 5 0x090 ∧ r = bolAt s.dev (bolIdx h) ∧ flag s.dev fBluHcmdBusy = false ∧ flag s.dev (fQuiesced 5) = false ∧ hot s.dev (bolRecs s.dev h) ∧ bolOk s.dev h = true ∧ r.state = .live ∧ op ≤ 5 ∧ r.hostSig = false) ∧
    (∃ (s : State) (i : Instr) (op : Nat) (h : Nat) (v : W64) (r : BolRec) (w : _), awake s.dev 6 = true ∧ (i, op) ∈ hcmdRows ∧ h = fld s.dev fBluHcmdSel ∧ v = reg s.dev 5 0x090 ∧ r = bolAt s.dev (bolIdx h) ∧ flag s.dev fBluHcmdBusy = false ∧ flag s.dev (fQuiesced 5) = false ∧ hot s.dev (bolRecs s.dev h) ∧ bolOk s.dev h = true ∧ r.state = .live ∧ op ≤ 5 ∧ r.hostSig = true ∧ hcmdReserved op v = false ∧ sigOp r op v = .ok w ∧ ((∀ x ∈ s.dev.blu.waits, x.bol ≠ bolIdx h))) ∧
    (∃ (s : State) (i : Instr) (op : Nat) (h : Nat) (v : W64) (r : BolRec), awake s.dev 6 = true ∧ (i, op) ∈ hcmdRows ∧ h = fld s.dev fBluHcmdSel ∧ v = reg s.dev 5 0x090 ∧ r = bolAt s.dev (bolIdx h) ∧ flag s.dev fBluHcmdBusy = false ∧ flag s.dev (fQuiesced 5) = false ∧ hot s.dev (bolRecs s.dev h) ∧ bolOk s.dev h = true ∧ r.state = .live ∧ 8 ≤ op ∧ (admits s.dev 2 1 = false ∨ (ctxAt s.dev r.ctxIdx).secrecy = .sealed)) ∧
    (∃ (s : State) (i : Instr) (op : Nat) (h : Nat) (v : W64) (r : BolRec) (w : _), awake s.dev 6 = true ∧ (i, op) ∈ hcmdRows ∧ h = fld s.dev fBluHcmdSel ∧ v = reg s.dev 5 0x090 ∧ r = bolAt s.dev (bolIdx h) ∧ flag s.dev fBluHcmdBusy = false ∧ flag s.dev (fQuiesced 5) = false ∧ hot s.dev (bolRecs s.dev h) ∧ bolOk s.dev h = true ∧ r.state = .live ∧ 8 ≤ op ∧ admits s.dev 2 1 = true ∧ (ctxAt s.dev r.ctxIdx).secrecy ≠ .sealed ∧ forceValue r op v = .ok w ∧ ((∀ x ∈ s.dev.blu.waits, x.bol ≠ bolIdx h))) :=
  ⟨⟨st (fs up [(fBluHcmdBusy, 1)]), .hcmdFenceSet, 1, fld ((st (fs up [(fBluHcmdBusy, 1)])) : State).dev fBluHcmdSel, reg ((st (fs up [(fBluHcmdBusy, 1)])) : State).dev 5 0x090, bolAt ((st (fs up [(fBluHcmdBusy, 1)])) : State).dev (bolIdx ((fld ((st (fs up [(fBluHcmdBusy, 1)])) : State).dev fBluHcmdSel) : Nat)), by decide⟩,
   ⟨st (hostCmd { bol0 with state := .abandoned } 5), .forceBarrier, 9, fld ((st (hostCmd { bol0 with state := .abandoned } 5)) : State).dev fBluHcmdSel, reg ((st (hostCmd { bol0 with state := .abandoned } 5)) : State).dev 5 0x090, bolAt ((st (hostCmd { bol0 with state := .abandoned } 5)) : State).dev (bolIdx ((fld ((st (hostCmd { bol0 with state := .abandoned } 5)) : State).dev fBluHcmdSel) : Nat)), by simp only [hot]; decide⟩,
   ⟨st (hostCmd bol0 5), .hcmdFenceSet, 1, fld ((st (hostCmd bol0 5)) : State).dev fBluHcmdSel, reg ((st (hostCmd bol0 5)) : State).dev 5 0x090, bolAt ((st (hostCmd bol0 5)) : State).dev (bolIdx ((fld ((st (hostCmd bol0 5)) : State).dev fBluHcmdSel) : Nat)), by simp only [hot]; decide⟩,
   ⟨st (hostCmd { bol0 with hostSig := true } 5), .hcmdFenceSet, 1, fld ((st (hostCmd { bol0 with hostSig := true } 5)) : State).dev fBluHcmdSel, reg ((st (hostCmd { bol0 with hostSig := true } 5)) : State).dev 5 0x090, bolAt ((st (hostCmd { bol0 with hostSig := true } 5)) : State).dev (bolIdx ((fld ((st (hostCmd { bol0 with hostSig := true } 5)) : State).dev fBluHcmdSel) : Nat)), 5, by simp only [hot]; decide⟩,
   ⟨st (hostCmd bol0 5), .force, 8, fld ((st (hostCmd bol0 5)) : State).dev fBluHcmdSel, reg ((st (hostCmd bol0 5)) : State).dev 5 0x090, bolAt ((st (hostCmd bol0 5)) : State).dev (bolIdx ((fld ((st (hostCmd bol0 5)) : State).dev fBluHcmdSel) : Nat)), by simp only [hot]; decide⟩,
   ⟨st (hostCmd bol0 5 { home with scu := { home.scu with sec := 1, cfg := { secBase := 1 } } }), .force, 8, fld ((st (hostCmd bol0 5 { home with scu := { home.scu with sec := 1, cfg := { secBase := 1 } } })) : State).dev fBluHcmdSel, reg ((st (hostCmd bol0 5 { home with scu := { home.scu with sec := 1, cfg := { secBase := 1 } } })) : State).dev 5 0x090, bolAt ((st (hostCmd bol0 5 { home with scu := { home.scu with sec := 1, cfg := { secBase := 1 } } })) : State).dev (bolIdx ((fld ((st (hostCmd bol0 5 { home with scu := { home.scu with sec := 1, cfg := { secBase := 1 } } })) : State).dev fBluHcmdSel) : Nat)), 5, by unfold hot; exact ⟨by decide, by decide, rfl, rfl, rfl, by decide, by decide, by decide, by decide, by decide, by decide, by decide, by decide, rfl, by decide⟩⟩⟩

theorem wit_WatchWriteFail :
    (∃ (s : State) (b : BitVec 24) (r : MemResp) (w : _), awake s.dev 6 = true ∧ s.dev.blu.watches = [w] ∧ w.sent = true ∧ bolIdx w.handle = b.toNat ∧ (r = .translation ∨ r = .access)) ∧
    (∃ (s : State) (r : MemResp), awake s.dev 6 = true ∧ (r = .ok ∨ r = .poison)) ∧
    (∃ (s : State), awake s.dev 6 = true ∧ s.dev.blu.watches = []) :=
  ⟨⟨st { up with blu := { watches := [{ handle := hBol, va := 64, value := 0, owner := hCtx, irq := false, need := 0, sent := true }] } }, 9, .access, ({ handle := hBol, va := 64, value := 0, owner := hCtx, irq := false, need := 0, sent := true } : Watch), by decide⟩,
   ⟨st up, .poison, by decide⟩,
   ⟨st up, by decide⟩⟩

def td0 (stopped : Bool) : Teardown := { handle := hCtx, stopped := stopped }
def tdDev (stopped : Bool) (d : Dev) : Dev := { d with btc := { d.btc with teardowns := [(3, td0 stopped)] } }
def dyingHome : Dev := home up { ctxR with state := .dying, bollardCount := 1, berthCount := 1 }
/-- An EVAL of `n` words, and an engine that runs one instruction word. -/
def evOf (prog n pset : Nat) : Cmd := { withOp (.eval prog 0x4000 0x8000 n pset) with phase := .issued }
def wEv (op d a b c imm : Nat) : W64 := mkW [(56, op), (52, d), (48, a), (44, b), (40, c), (0, imm)]
def evRun (w : W64) : EvalRun := { cmd := k0, prog := [w], s := 0 :: 5 :: 2 :: 3 :: List.replicate 12 0, e := [(5, 7), (6, 9)] }
def evDev (r : EvalRun) : Dev := { cmds [{ evOf 0x1000 1 1 with step := 1 }] with lev := { engines := [some r, none, none, none] } }
def evCmd : Cmd := { evOf 0x1000 1 1 with step := 1 }
def staged (d : Dev) : Dev := { d with lev := { d.lev with store := [(k0, none)] } }
def runOf : EvOut → EvalRun | .run r => r | _ => { cmd := k0, prog := [] }
def later0 : Cmd := { cmd0 with key := ⟨5, 2⟩, phase := .issued }
def allocC (cnt : Nat) (nowait : Bool) : Cmd := { withOp (.alloc 4 nowait cnt 0x100 0) with phase := .issued }
def freeC : Cmd := { withOp (.free 4 2 0x200) with phase := .issued }
def pool0 : Pool := { st := .live, owner := hCtx, blocks := 8, stack := [1], fresh := 4, held := [0, 2, 3] }
def poolDev (p : Pool) (l : List Cmd) : Dev := { cmds l with lev := { pools := [(4, p)] } }
def poolSel (d : Dev) : Dev := fs d [(fLevPoolIndex, 4), (fLevPoolOwner, hCtx), (fLevPoolBlocks, 16)]

theorem wit_TeardownStop :
    (∃ (s : State) (i : BitVec 20) (td : Teardown), awake s.dev 2 = true ∧ tfind s.dev.btc.teardowns i.toNat = some td ∧ scopeOut s.dev (.ctx (BitVec.ofNat 32 td.handle)) ≠ 0) ∧
    (∃ (s : State) (i : BitVec 20) (td : Teardown) (c : _), awake s.dev 2 = true ∧ tfind s.dev.btc.teardowns i.toNat = some td ∧ scopeOut s.dev (.ctx (BitVec.ofNat 32 td.handle)) = 0 ∧ ctxCmds s.dev td.handle = [c] ∧ cmdAt s.dev c.key = some c ∧ c.completeLsn = none ∧ c.status = none ∧ c.phase ≠ .closing) :=
  ⟨⟨st (tdDev false (outAt 0 dyingHome)), 3, td0 false, by decide⟩,
   ⟨st (tdDev false (cmds [cmd0] dyingHome)), 3, td0 false, cmd0, by decide⟩⟩

theorem wit_TeardownDone :
    (∃ (s : State) (i : BitVec 20) (td : Teardown) (g : Nat), awake s.dev 2 = true ∧ tfind s.dev.btc.teardowns i.toNat = some td ∧ td.handle < 2 ^ 32 ∧ g = (ctxAt s.dev i.toNat).gen ∧ td.stopped = true ∧ recordsDone s.dev td.handle = true) ∧
    (∃ (s : State) (i : BitVec 20) (td : Teardown) (g : Nat), awake s.dev 2 = true ∧ tfind s.dev.btc.teardowns i.toNat = some td ∧ td.handle < 2 ^ 32 ∧ g = (ctxAt s.dev i.toNat).gen ∧ (td.stopped = false ∨ recordsDone s.dev td.handle = false)) :=
  ⟨⟨st (tdDev true dyingHome), 3, td0 true, (ctxAt ((st (tdDev true dyingHome)) : State).dev ((3) : BitVec 20).toNat).gen, by decide⟩,
   ⟨st (tdDev false dyingHome), 3, td0 false, (ctxAt ((st (tdDev false dyingHome)) : State).dev ((3) : BitVec 20).toNat).gen, by decide⟩⟩

theorem wit_AbandonHoldEnd :
    (∃ (s : State) (i : BitVec 24) (u : Nat) (r : BolRec), awake s.dev 2 = true ∧ tfind s.dev.btc.holds i.toNat = some u ∧ r = bolAt s.dev i.toNat ∧ r.state = .abandoned ∧ s.dev.now < u) ∧
    (∃ (s : State) (i : BitVec 24) (u : Nat) (r : BolRec), awake s.dev 2 = true ∧ tfind s.dev.btc.holds i.toNat = some u ∧ r = bolAt s.dev i.toNat ∧ r.state = .abandoned ∧ u ≤ s.dev.now ∧ (ctxAt s.dev r.ctxIdx).gen = r.ctxGen ∧ (ctxAt s.dev r.ctxIdx).lives = true) :=
  ⟨⟨st { bolDev { bol0 with state := .abandoned } dyingHome with btc := { dyingHome.btc with holds := [(9, 5)] } }, 9, 5, bolAt ((st { bolDev { bol0 with state := .abandoned } dyingHome with btc := { dyingHome.btc with holds := [(9, 5)] } }) : State).dev ((9) : BitVec 24).toNat, by decide⟩,
   ⟨st { bolDev { bol0 with state := .abandoned } dyingHome with btc := { dyingHome.btc with holds := [(9, 0)] } }, 9, 0, bolAt ((st { bolDev { bol0 with state := .abandoned } dyingHome with btc := { dyingHome.btc with holds := [(9, 0)] } }) : State).dev ((9) : BitVec 24).toNat, by decide⟩⟩

theorem wit_BerthDrained :
    (∃ (s : State) (i : BitVec 22) (r : BerthRec), awake s.dev 2 = true ∧ r = berthAt s.dev i.toNat ∧ r.state = .draining ∧ r.done = r.acc ∧ r.fopen = false ∧ ((∀ m ∈ s.dev.mfu.mans, m.berthIdx ≠ i.toNat)) ∧ (ctxAt s.dev r.ctxIdx).gen = r.ctxGen ∧ (ctxAt s.dev r.ctxIdx).lives = true) ∧
    (∃ (s : State) (i : BitVec 22) (r : BerthRec), awake s.dev 2 = true ∧ r = berthAt s.dev i.toNat ∧ (r.state ≠ .draining ∨ r.done ≠ r.acc ∨ r.fopen = true)) :=
  ⟨⟨st (home up { ctxR with berthCount := 1 } { berR with state := .draining, gen := 0x3FF }), 5, berthAt ((st (home up { ctxR with berthCount := 1 } { berR with state := .draining, gen := 0x3FF })) : State).dev ((5) : BitVec 22).toNat, by decide⟩,
   ⟨st home, 5, berthAt ((st home) : State).dev ((5) : BitVec 22).toNat, by decide⟩⟩

theorem wit_RecordFill :
    (∃ (s : State) (r : RecId), awake s.dev 2 = true ∧ s.dev.blu.hcmd = none ∧ s.dev.fsa.expOp = none ∧ s.dev.btc.fills.contains r = false) ∧
    (∃ (s : State) (r : RecId) (a : MemResp) (b : MemResp), awake s.dev 2 = true ∧ s.dev.blu.hcmd = none ∧ s.dev.fsa.expOp = none ∧ s.dev.btc.fills.contains r = true ∧ (a = .ok ∨ b = .ok) ∧ storeFull s.dev r = false ∧ a ≠ .poison ∧ b ≠ .poison) ∧
    (∃ (s : State) (r : RecId) (a : MemResp) (b : MemResp), awake s.dev 2 = true ∧ s.dev.blu.hcmd = none ∧ s.dev.fsa.expOp = none ∧ s.dev.btc.fills.contains r = true ∧ a ≠ .ok ∧ b ≠ .ok ∧ flag s.dev fMcValid = false) :=
  ⟨⟨st up, .ctx 3, by decide⟩,
   ⟨st { home with btc := { home.btc with fills := [.berth 6] } }, .berth 6, .access, .ok, by decide⟩,
   ⟨st { home with btc := { home.btc with fills := [.berth 6] } }, .berth 6, .poison, .access, by decide⟩⟩

theorem wit_EvalStart :
    (∃ (s : State) (k : CmdId) (x : Cmd) (prog : Nat) (src : Nat) (dst : Nat) (n : Nat) (pset : Nat) (c : CtxRec), awake s.dev 7 = true ∧ atIssueOf s.dev k x ∧ x.spec.op = .eval prog src dst n pset ∧ c = ctxAt s.dev (ctxIdx x.ctx) ∧ 1024 ≤ storeUse s.dev) ∧
    (∃ (s : State) (k : CmdId) (x : Cmd) (prog : Nat) (src : Nat) (dst : Nat) (n : Nat) (pset : Nat) (c : CtxRec), awake s.dev 7 = true ∧ atIssueOf s.dev k x ∧ x.spec.op = .eval prog src dst n pset ∧ c = ctxAt s.dev (ctxIdx x.ctx) ∧ storeUse s.dev < 1024 ∧ prog % 8 = 0 ∧ prog + 8 * n ≤ 2 ^ 57 ∧ ((∀ e ∈ s.dev.lev.store, ∀ y, cmdAt s.dev e.1 = some y → y.issueNo ≤ x.issueNo))) ∧
    (∃ (s : State) (k : CmdId) (x : Cmd) (prog : Nat) (src : Nat) (dst : Nat) (n : Nat) (pset : Nat) (c : CtxRec), awake s.dev 7 = true ∧ atIssueOf s.dev k x ∧ x.spec.op = .eval prog src dst n pset ∧ c = ctxAt s.dev (ctxIdx x.ctx) ∧ storeUse s.dev < 1024 ∧ prog % 8 ≠ 0) :=
  ⟨⟨st { cmds [evOf 0x1000 1 1] with lev := { store := List.replicate 1024 (k0, none) } }, k0, evOf 0x1000 1 1, 0x1000, 0x4000, 0x8000, 1, 1, ctxAt ((st { cmds [evOf 0x1000 1 1] with lev := { store := List.replicate 1024 (k0, none) } }) : State).dev (ctxIdx ((evOf 0x1000 1 1) : Cmd).ctx), by simp only [atIssueOf, hot]; decide⟩,
   ⟨st (cmds [evOf 0x1000 1 1]), k0, evOf 0x1000 1 1, 0x1000, 0x4000, 0x8000, 1, 1, ctxAt ((st (cmds [evOf 0x1000 1 1])) : State).dev (ctxIdx ((evOf 0x1000 1 1) : Cmd).ctx), by simp only [atIssueOf, hot]; decide⟩,
   ⟨st (cmds [evOf 0x1001 1 1]), k0, evOf 0x1001 1 1, 0x1001, 0x4000, 0x8000, 1, 1, ctxAt ((st (cmds [evOf 0x1001 1 1])) : State).dev (ctxIdx ((evOf 0x1001 1 1) : Cmd).ctx), by simp only [atIssueOf, hot]; decide⟩⟩

theorem wit_EvalProgramRead :
    (∃ (s : State) (k : CmdId) (x : Cmd) (prog : Nat) (src : Nat) (dst : Nat) (n : Nat) (pset : Nat) (ws : List W64), awake s.dev 7 = true ∧ cmdAt s.dev k = some x ∧ hot s.dev (berthRecs s.dev x.berth) ∧ x.status = none ∧ x.completeLsn = none ∧ x.spec.op = .eval prog src dst n pset ∧ s.dev.lev.store = [(k, none)] ∧ s.dev.lev.engines = [none, none, none, none] ∧ ws.length = n ∧ flag s.dev (fQreq 6) = false) ∧
    (∃ (s : State) (k : CmdId) (x : Cmd) (prog : Nat) (src : Nat) (dst : Nat) (n : Nat) (pset : Nat) (ws : List W64), awake s.dev 7 = true ∧ cmdAt s.dev k = some x ∧ hot s.dev (berthRecs s.dev x.berth) ∧ x.status = none ∧ x.completeLsn = none ∧ x.spec.op = .eval prog src dst n pset ∧ s.dev.lev.store = [(k, none)] ∧ s.dev.lev.engines = [none, none, none, none] ∧ ws.length = n ∧ ((∀ j, j < n → evWordOk pset (ws.getD j 0) = true)) ∧ flag s.dev (fQreq 6) = true) ∧
    (∃ (s : State) (k : CmdId) (x : Cmd) (prog : Nat) (src : Nat) (dst : Nat) (n : Nat) (pset : Nat) (ws : List W64) (j : _), awake s.dev 7 = true ∧ cmdAt s.dev k = some x ∧ hot s.dev (berthRecs s.dev x.berth) ∧ x.status = none ∧ x.completeLsn = none ∧ x.spec.op = .eval prog src dst n pset ∧ s.dev.lev.store = [(k, none)] ∧ s.dev.lev.engines = [none, none, none, none] ∧ ws.length = n ∧ ((List.range n).find? (fun j => !evWordOk pset (ws.getD j 0)) = some j)) :=
  ⟨⟨st (staged (cmds [evCmd])), k0, evCmd, 0x1000, 0x4000, 0x8000, 1, 1, [wEv 1 2 0 0 0 5], by simp only [hot]; decide⟩,
   ⟨st (fs (staged (cmds [evCmd])) [(fQreq 6, 1)]), k0, evCmd, 0x1000, 0x4000, 0x8000, 1, 1, [wEv 1 2 0 0 0 5], by simp only [hot]; decide⟩,
   ⟨st (staged (cmds [evCmd])), k0, evCmd, 0x1000, 0x4000, 0x8000, 1, 1, [wEv 7 0 0 0 0 0], 0, by simp only [hot]; decide⟩⟩

theorem wit_EvalInstruction :
    (∃ (s : State) (e : BitVec 2) (i : Instr) (op : Nat) (r : EvalRun) (w : W64) (c : Cmd) (x : CtxRec) (src : Nat) (dst : Nat), awake s.dev 7 = true ∧ (i, op) ∈ evalRows e ∧ evalAt s.dev e.toNat = some r ∧ r.prog[r.pc]? = some w ∧ r.loading = false ∧ cmdAt s.dev r.cmd = some c ∧ hot s.dev (berthRecs s.dev c.berth) ∧ evalBases c.spec.op = (src, dst) ∧ x = ctxAt s.dev (ctxIdx c.ctx) ∧ evOp w ≠ op) ∧
    (∃ (s : State) (e : BitVec 2) (i : Instr) (op : Nat) (r : EvalRun) (w : W64) (c : Cmd) (x : CtxRec) (src : Nat) (dst : Nat) (r' : _), awake s.dev 7 = true ∧ (i, op) ∈ evalRows e ∧ evalAt s.dev e.toNat = some r ∧ r.prog[r.pc]? = some w ∧ r.loading = false ∧ cmdAt s.dev r.cmd = some c ∧ hot s.dev (berthRecs s.dev c.berth) ∧ evalBases c.spec.op = (src, dst) ∧ x = ctxAt s.dev (ctxIdx c.ctx) ∧ evOp w = op ∧ evStep r w src dst = .run r') ∧
    (∃ (s : State) (e : BitVec 2) (i : Instr) (op : Nat) (r : EvalRun) (w : W64) (c : Cmd) (x : CtxRec) (src : Nat) (dst : Nat) (a : _) (n : _), awake s.dev 7 = true ∧ (i, op) ∈ evalRows e ∧ evalAt s.dev e.toNat = some r ∧ r.prog[r.pc]? = some w ∧ r.loading = false ∧ cmdAt s.dev r.cmd = some c ∧ hot s.dev (berthRecs s.dev c.berth) ∧ evalBases c.spec.op = (src, dst) ∧ x = ctxAt s.dev (ctxIdx c.ctx) ∧ evOp w = op ∧ evStep r w src dst = .load a n) ∧
    (∃ (s : State) (e : BitVec 2) (i : Instr) (op : Nat) (r : EvalRun) (w : W64) (c : Cmd) (x : CtxRec) (src : Nat) (dst : Nat) (a : _) (vs : _), awake s.dev 7 = true ∧ (i, op) ∈ evalRows e ∧ evalAt s.dev e.toNat = some r ∧ r.prog[r.pc]? = some w ∧ r.loading = false ∧ cmdAt s.dev r.cmd = some c ∧ hot s.dev (berthRecs s.dev c.berth) ∧ evalBases c.spec.op = (src, dst) ∧ x = ctxAt s.dev (ctxIdx c.ctx) ∧ evOp w = op ∧ evStep r w src dst = .store a vs) ∧
    (∃ (s : State) (e : BitVec 2) (i : Instr) (op : Nat) (r : EvalRun) (w : W64) (c : Cmd) (x : CtxRec) (src : Nat) (dst : Nat) (n : _) (v : _), awake s.dev 7 = true ∧ (i, op) ∈ evalRows e ∧ evalAt s.dev e.toNat = some r ∧ r.prog[r.pc]? = some w ∧ r.loading = false ∧ cmdAt s.dev r.cmd = some c ∧ hot s.dev (berthRecs s.dev c.berth) ∧ evalBases c.spec.op = (src, dst) ∧ x = ctxAt s.dev (ctxIdx c.ctx) ∧ evOp w = op ∧ evStep r w src dst = .setp n v) ∧
    (∃ (s : State) (e : BitVec 2) (i : Instr) (op : Nat) (r : EvalRun) (w : W64) (c : Cmd) (x : CtxRec) (src : Nat) (dst : Nat) (cause : _) (a : _), awake s.dev 7 = true ∧ (i, op) ∈ evalRows e ∧ evalAt s.dev e.toNat = some r ∧ r.prog[r.pc]? = some w ∧ r.loading = false ∧ cmdAt s.dev r.cmd = some c ∧ hot s.dev (berthRecs s.dev c.berth) ∧ evalBases c.spec.op = (src, dst) ∧ x = ctxAt s.dev (ctxIdx c.ctx) ∧ evOp w = op ∧ evStep r w src dst = .fault cause a ∧ c.status = none ∧ c.completeLsn = none) :=
  ⟨⟨st (evDev (evRun (wEv 1 2 0 0 0 5))), 0, .addi 0, 2, evRun (wEv 1 2 0 0 0 5), wEv 1 2 0 0 0 5, evCmd, ctxAt ((st (evDev (evRun (wEv 1 2 0 0 0 5)))) : State).dev (ctxIdx ((evCmd) : Cmd).ctx), 0x4000, 0x8000, by simp only [hot]; decide⟩,
   ⟨st (evDev (evRun (wEv 1 2 0 0 0 5))), 0, .ldi 0, 1, evRun (wEv 1 2 0 0 0 5), wEv 1 2 0 0 0 5, evCmd, ctxAt ((st (evDev (evRun (wEv 1 2 0 0 0 5)))) : State).dev (ctxIdx ((evCmd) : Cmd).ctx), 0x4000, 0x8000, runOf (evStep (evRun (wEv 1 2 0 0 0 5)) (wEv 1 2 0 0 0 5) 0x4000 0x8000), by simp only [hot]; decide⟩,
   ⟨st (evDev (evRun (wEv 4 2 1 0 0 3))), 0, .ld32 0, 4, evRun (wEv 4 2 1 0 0 3), wEv 4 2 1 0 0 3, evCmd, ctxAt ((st (evDev (evRun (wEv 4 2 1 0 0 3)))) : State).dev (ctxIdx ((evCmd) : Cmd).ctx), 0x4000, 0x8000, 0x4008, 1, by simp only [hot]; decide⟩,
   ⟨st (evDev (evRun (wEv 0x11 0 1 2 0 4))), 0, .astore 0, 0x11, evRun (wEv 0x11 0 1 2 0 4), wEv 0x11 0 1 2 0 4, evCmd, ctxAt ((st (evDev (evRun (wEv 0x11 0 1 2 0 4)))) : State).dev (ctxIdx ((evCmd) : Cmd).ctx), 0x4000, 0x8000, 0x8004, [7, 9], by simp only [hot]; decide⟩,
   ⟨st (evDev (evRun (wEv 6 0 1 0 0 0))), 0, .setp 0, 6, evRun (wEv 6 0 1 0 0 0), wEv 6 0 1 0 0 0, evCmd, ctxAt ((st (evDev (evRun (wEv 6 0 1 0 0 0)))) : State).dev (ctxIdx ((evCmd) : Cmd).ctx), 0x4000, 0x8000, 0, 5, by simp only [hot]; decide⟩,
   ⟨st (evDev (evRun (wEv 3 2 1 0 0 3))), 0, .alu 0, 3, evRun (wEv 3 2 1 0 0 3), wEv 3 2 1 0 0 3, evCmd, ctxAt ((st (evDev (evRun (wEv 3 2 1 0 0 3)))) : State).dev (ctxIdx ((evCmd) : Cmd).ctx), 0x4000, 0x8000, 0x31, 0, by simp only [hot]; decide⟩⟩

theorem wit_EvalAlu : ∃ (b : W64), b ≠ 0 :=
  ⟨0x41, by decide⟩

theorem wit_EvalScalars :
    (∃ (r : EvalRun) (w : W64) (v : Nat), r.s.length = 16 ∧ v < 2 ^ 64 ∧ evOp w = 0x13 ∧ r.sc (evA w) < 4096) ∧
    (∃ (r : EvalRun) (w : W64) (v : Nat), r.s.length = 16 ∧ v < 2 ^ 64 ∧ ((evOp w = 0x01 ∧ v = ((BitVec.ofNat 32 (evImm w)).signExtend 64).toNat ∨ evOp w = 0x02 ∧ v = (BitVec.ofNat 64 (r.sc (evA w)) + (BitVec.ofNat 32 (evImm w)).signExtend 64).toNat ∨ evOp w = 0x03 ∧ evAlu (evImm w) (r.sc (evA w)) (r.sc (evB w)) = some v ∨ evOp w = 0x12 ∧ r.sc (evA w) < 4096 ∧ v = r.el (r.sc (evA w)))) ∧ evD w ≠ 0) ∧
    (∃ (r : EvalRun) (w : W64) (v : Nat), r.s.length = 16 ∧ v < 2 ^ 64 ∧ ((evOp w = 0x01 ∧ v = ((BitVec.ofNat 32 (evImm w)).signExtend 64).toNat ∨ evOp w = 0x02 ∧ v = (BitVec.ofNat 64 (r.sc (evA w)) + (BitVec.ofNat 32 (evImm w)).signExtend 64).toNat ∨ evOp w = 0x03 ∧ evAlu (evImm w) (r.sc (evA w)) (r.sc (evB w)) = some v ∨ evOp w = 0x12 ∧ r.sc (evA w) < 4096 ∧ v = r.el (r.sc (evA w))))) :=
  ⟨⟨evRun (wEv 0x13 0 1 3 0 0), wEv 0x13 0 1 3 0 0, 0, by decide⟩,
   ⟨evRun (wEv 2 4 1 0 0 0xFFFFFFFF), wEv 2 4 1 0 0 0xFFFFFFFF, 4, by decide⟩,
   ⟨evRun (wEv 2 4 1 0 0 0xFFFFFFFF), wEv 2 4 1 0 0 0xFFFFFFFF, 4, by decide⟩⟩

theorem wit_EvalArrays :
    (∃ (r : EvalRun) (w : W64) (a : Nat) (n : Nat) (c : Nat) (j : _), r.s.length = 16 ∧ a = r.sc (evA w) ∧ n = r.sc (evB w) ∧ c = r.sc (evC w) ∧ 0 < n ∧ a + n ≤ 4096 ∧ evOp w = 0x14 ∧ evImm w ≤ 0xD ∧ (¬ (c = 0 ∧ (evImm w = 3 ∨ evImm w = 4 ∨ evImm w = 5))) ∧ j < n) ∧
    (∃ (r : EvalRun) (w : W64) (a : Nat) (n : Nat) (c : Nat) (j : _), r.s.length = 16 ∧ a = r.sc (evA w) ∧ n = r.sc (evB w) ∧ c = r.sc (evC w) ∧ 0 < n ∧ a + n ≤ 4096 ∧ evOp w = 0x14 ∧ evImm w ≤ 0xD ∧ (¬ (c = 0 ∧ (evImm w = 3 ∨ evImm w = 4 ∨ evImm w = 5))) ∧ (j < a ∨ a + n ≤ j)) ∧
    (∃ (r : EvalRun) (w : W64) (a : Nat) (n : Nat) (c : Nat) (j : _), r.s.length = 16 ∧ a = r.sc (evA w) ∧ n = r.sc (evB w) ∧ c = r.sc (evC w) ∧ 0 < n ∧ a + n ≤ 4096 ∧ evOp w = 0x15 ∧ j < n) ∧
    (∃ (r : EvalRun) (w : W64) (a : Nat) (n : Nat) (c : Nat) (j : _), r.s.length = 16 ∧ a = r.sc (evA w) ∧ n = r.sc (evB w) ∧ c = r.sc (evC w) ∧ 0 < n ∧ a + n ≤ 4096 ∧ evOp w = 0x15 ∧ (j < a ∨ a + n ≤ j)) ∧
    (∃ (r : EvalRun) (w : W64) (a : Nat) (n : Nat) (c : Nat) (j : _), r.s.length = 16 ∧ a = r.sc (evA w) ∧ n = r.sc (evB w) ∧ c = r.sc (evC w) ∧ 0 < n ∧ a + n ≤ 4096 ∧ evOp w = 0x16 ∧ evD w ≠ 0 ∧ j < n) ∧
    (∃ (r : EvalRun) (w : W64) (a : Nat) (n : Nat) (c : Nat) (j : _), r.s.length = 16 ∧ a = r.sc (evA w) ∧ n = r.sc (evB w) ∧ c = r.sc (evC w) ∧ 0 < n ∧ a + n ≤ 4096 ∧ evOp w = 0x16 ∧ evD w ≠ 0 ∧ (j < a ∨ a + n ≤ j)) :=
  ⟨⟨evRun (wEv 0x14 0 1 2 3 3), wEv 0x14 0 1 2 3 3, ((evRun (wEv 0x14 0 1 2 3 3)) : EvalRun).sc (evA ((wEv 0x14 0 1 2 3 3) : W64)), ((evRun (wEv 0x14 0 1 2 3 3)) : EvalRun).sc (evB ((wEv 0x14 0 1 2 3 3) : W64)), ((evRun (wEv 0x14 0 1 2 3 3)) : EvalRun).sc (evC ((wEv 0x14 0 1 2 3 3) : W64)), 1, by decide⟩,
   ⟨evRun (wEv 0x14 0 1 2 3 3), wEv 0x14 0 1 2 3 3, ((evRun (wEv 0x14 0 1 2 3 3)) : EvalRun).sc (evA ((wEv 0x14 0 1 2 3 3) : W64)), ((evRun (wEv 0x14 0 1 2 3 3)) : EvalRun).sc (evB ((wEv 0x14 0 1 2 3 3) : W64)), ((evRun (wEv 0x14 0 1 2 3 3)) : EvalRun).sc (evC ((wEv 0x14 0 1 2 3 3) : W64)), 4, by decide⟩,
   ⟨evRun (wEv 0x15 0 1 2 3 0), wEv 0x15 0 1 2 3 0, ((evRun (wEv 0x15 0 1 2 3 0)) : EvalRun).sc (evA ((wEv 0x15 0 1 2 3 0) : W64)), ((evRun (wEv 0x15 0 1 2 3 0)) : EvalRun).sc (evB ((wEv 0x15 0 1 2 3 0) : W64)), ((evRun (wEv 0x15 0 1 2 3 0)) : EvalRun).sc (evC ((wEv 0x15 0 1 2 3 0) : W64)), 1, by decide⟩,
   ⟨evRun (wEv 0x15 0 1 2 3 0), wEv 0x15 0 1 2 3 0, ((evRun (wEv 0x15 0 1 2 3 0)) : EvalRun).sc (evA ((wEv 0x15 0 1 2 3 0) : W64)), ((evRun (wEv 0x15 0 1 2 3 0)) : EvalRun).sc (evB ((wEv 0x15 0 1 2 3 0) : W64)), ((evRun (wEv 0x15 0 1 2 3 0)) : EvalRun).sc (evC ((wEv 0x15 0 1 2 3 0) : W64)), 7, by decide⟩,
   ⟨evRun (wEv 0x16 1 1 2 0 0), wEv 0x16 1 1 2 0 0, ((evRun (wEv 0x16 1 1 2 0 0)) : EvalRun).sc (evA ((wEv 0x16 1 1 2 0 0) : W64)), ((evRun (wEv 0x16 1 1 2 0 0)) : EvalRun).sc (evB ((wEv 0x16 1 1 2 0 0) : W64)), ((evRun (wEv 0x16 1 1 2 0 0)) : EvalRun).sc (evC ((wEv 0x16 1 1 2 0 0) : W64)), 1, by decide⟩,
   ⟨evRun (wEv 0x16 1 1 2 0 0), wEv 0x16 1 1 2 0 0, ((evRun (wEv 0x16 1 1 2 0 0)) : EvalRun).sc (evA ((wEv 0x16 1 1 2 0 0) : W64)), ((evRun (wEv 0x16 1 1 2 0 0)) : EvalRun).sc (evB ((wEv 0x16 1 1 2 0 0) : W64)), ((evRun (wEv 0x16 1 1 2 0 0)) : EvalRun).sc (evC ((wEv 0x16 1 1 2 0 0) : W64)), 7, by decide⟩⟩

theorem wit_EvalLoadData :
    (∃ (s : State) (e : BitVec 2) (r : EvalRun) (w : W64) (c : Cmd) (a : Nat) (n : Nat), awake s.dev 7 = true ∧ evalAt s.dev e.toNat = some r ∧ r.prog[r.pc]? = some w ∧ cmdAt s.dev r.cmd = some c ∧ hot s.dev (berthRecs s.dev c.berth) ∧ loadOf r w (evalBases c.spec.op).1 = (a, n) ∧ r.loading = false) ∧
    (∃ (s : State) (e : BitVec 2) (r : EvalRun) (w : W64) (c : Cmd) (a : Nat) (n : Nat) (ws : List W32), awake s.dev 7 = true ∧ evalAt s.dev e.toNat = some r ∧ r.prog[r.pc]? = some w ∧ cmdAt s.dev r.cmd = some c ∧ hot s.dev (berthRecs s.dev c.berth) ∧ loadOf r w (evalBases c.spec.op).1 = (a, n) ∧ r.loading = true ∧ ws.length = n) ∧
    (∃ (s : State) (e : BitVec 2) (r : EvalRun) (w : W64) (c : Cmd) (a : Nat) (n : Nat) (resp : MemResp), awake s.dev 7 = true ∧ evalAt s.dev e.toNat = some r ∧ r.prog[r.pc]? = some w ∧ cmdAt s.dev r.cmd = some c ∧ hot s.dev (berthRecs s.dev c.berth) ∧ loadOf r w (evalBases c.spec.op).1 = (a, n) ∧ resp ≠ .ok ∧ r.loading = true ∧ c.status = none ∧ c.completeLsn = none) :=
  ⟨⟨st (evDev (evRun (wEv 5 2 1 0 0 3))), 0, evRun (wEv 5 2 1 0 0 3), wEv 5 2 1 0 0 3, evCmd, 0x4008, 2, by simp only [hot]; decide⟩,
   ⟨st (evDev { evRun (wEv 5 2 1 0 0 3) with loading := true }), 0, { evRun (wEv 5 2 1 0 0 3) with loading := true }, wEv 5 2 1 0 0 3, evCmd, 0x4008, 2, [1, 2], by simp only [hot]; decide⟩,
   ⟨st (evDev { evRun (wEv 5 2 1 0 0 3) with loading := true }), 0, { evRun (wEv 5 2 1 0 0 3) with loading := true }, wEv 5 2 1 0 0 3, evCmd, 0x4008, 2, MemResp.access, by simp only [hot]; decide⟩⟩

theorem wit_EvalStoreFault :
    (∃ (s : State) (e : BitVec 2) (a : BitVec 57) (resp : MemResp) (r : EvalRun) (c : Cmd) (q : Nat × Nat), awake s.dev 7 = true ∧ evalAt s.dev e.toNat = some r ∧ cmdAt s.dev r.cmd = some c ∧ hot s.dev (berthRecs s.dev c.berth) ∧ c.status = none ∧ c.completeLsn = none ∧ (r.stores.find? (fun x => x.1 = a.toNat) = some q) ∧ (resp = .translation ∨ resp = .access)) ∧
    (∃ (s : State) (e : BitVec 2) (a : BitVec 57) (resp : MemResp) (r : EvalRun) (c : Cmd), awake s.dev 7 = true ∧ evalAt s.dev e.toNat = some r ∧ cmdAt s.dev r.cmd = some c ∧ hot s.dev (berthRecs s.dev c.berth) ∧ c.status = none ∧ c.completeLsn = none ∧ (r.stores.find? (fun x => x.1 = a.toNat) = none ∨ resp = .ok ∨ resp = .poison)) :=
  ⟨⟨st (evDev { evRun (wEv 1 2 0 0 0 5) with stores := [(0x8004, 0)] }), 0, 0x8004, .access, { evRun (wEv 1 2 0 0 0 5) with stores := [(0x8004, 0)] }, evCmd, (0x8004, 0), by simp only [hot]; decide⟩,
   ⟨st (evDev (evRun (wEv 1 2 0 0 0 5))), 0, 0x8004, .access, evRun (wEv 1 2 0 0 0 5), evCmd, by simp only [hot]; decide⟩⟩

theorem wit_EvalComplete :
    (∃ (s : State) (e : BitVec 2) (r : EvalRun) (c : Cmd), awake s.dev 7 = true ∧ evalAt s.dev e.toNat = some r ∧ cmdAt s.dev r.cmd = some c ∧ hot s.dev (berthRecs s.dev c.berth) ∧ s.dev.lev.store = [] ∧ (r.loading = true ∨ r.pc < r.prog.length)) ∧
    (∃ (s : State) (e : BitVec 2) (r : EvalRun) (c : Cmd), awake s.dev 7 = true ∧ evalAt s.dev e.toNat = some r ∧ cmdAt s.dev r.cmd = some c ∧ hot s.dev (berthRecs s.dev c.berth) ∧ s.dev.lev.store = [] ∧ r.loading = false ∧ r.prog.length ≤ r.pc ∧ c.completeLsn = none ∧ c.status = none ∧ c.spec.sigs = [] ∧ c.spec.brCond ≠ 2) :=
  ⟨⟨st (evDev (evRun (wEv 1 2 0 0 0 5))), 0, evRun (wEv 1 2 0 0 0 5), evCmd, by simp only [hot]; decide⟩,
   ⟨st (evDev { evRun (wEv 1 2 0 0 0 5) with pc := 1 }), 0, { evRun (wEv 1 2 0 0 0 5) with pc := 1 }, evCmd, by simp only [hot]; decide⟩⟩

theorem wit_JoinCommands :
    (∃ (s : State) (k : CmdId) (x : Cmd) (i : Instr) (js : List Cmd), awake s.dev 6 = true ∧ atIssueOf s.dev k x ∧ x.spec.sigs = [] ∧ ((i = .nop k ∧ x.spec.op = .nop ∧ js = [] ∨ i = .barrier k ∧ x.spec.op = .barrier ∧ js = earlier s.dev x ∨ i = .endCmd k ∧ x.spec.op = .endOp ∧ js = (earlier s.dev x).filter fun y => y.headIdx = x.headIdx)) ∧ ((∀ y ∈ js, y.phase = .complete))) ∧
    (∃ (s : State) (k : CmdId) (x : Cmd) (i : Instr) (js : List Cmd) (y : _), awake s.dev 6 = true ∧ atIssueOf s.dev k x ∧ x.spec.sigs = [] ∧ ((i = .nop k ∧ x.spec.op = .nop ∧ js = [] ∨ i = .barrier k ∧ x.spec.op = .barrier ∧ js = earlier s.dev x ∨ i = .endCmd k ∧ x.spec.op = .endOp ∧ js = (earlier s.dev x).filter fun y => y.headIdx = x.headIdx)) ∧ y ∈ js ∧ y.phase ≠ .complete) :=
  ⟨⟨st (cmds [{ cmd0 with phase := .complete }, { later0 with spec := { spec0 with op := .endOp, lineNo := 2 } }]), ⟨5, 2⟩, { later0 with spec := { spec0 with op := .endOp, lineNo := 2 } }, .endCmd ⟨5, 2⟩, [{ cmd0 with phase := .complete }], by simp only [atIssueOf, hot]; decide⟩,
   ⟨st (cmds [cmd0, withOp .barrier later0]), ⟨5, 2⟩, withOp .barrier later0, .barrier ⟨5, 2⟩, [cmd0], cmd0, by simp only [atIssueOf, hot]; decide⟩⟩

theorem wit_AllocBlocks :
    (∃ (s : State) (k : CmdId) (x : Cmd) (p : Nat) (cnt : Nat) (out : Nat) (slot : Nat) (n : Nat) (nowait : Bool), awake s.dev 7 = true ∧ atIssueOf s.dev k x ∧ x.spec.op = .alloc p nowait cnt out slot ∧ flag s.dev (fQreq 6) = false ∧ ctxLive s.dev x.ctx = true ∧ n = countOf s.dev x ∧ (poolAt s.dev p).waiters.contains k = false ∧ n = 0 ∧ x.spec.sigs = []) ∧
    (∃ (s : State) (k : CmdId) (x : Cmd) (p : Nat) (cnt : Nat) (out : Nat) (slot : Nat) (n : Nat) (nowait : Bool), awake s.dev 7 = true ∧ atIssueOf s.dev k x ∧ x.spec.op = .alloc p nowait cnt out slot ∧ flag s.dev (fQreq 6) = false ∧ ctxLive s.dev x.ctx = true ∧ n = countOf s.dev x ∧ (poolAt s.dev p).waiters.contains k = false ∧ n ≠ 0 ∧ allocCause s.dev x n ≠ 0) ∧
    (∃ (s : State) (k : CmdId) (x : Cmd) (p : Nat) (cnt : Nat) (out : Nat) (slot : Nat) (n : Nat) (nowait : Bool), awake s.dev 7 = true ∧ atIssueOf s.dev k x ∧ x.spec.op = .alloc p nowait cnt out slot ∧ flag s.dev (fQreq 6) = false ∧ ctxLive s.dev x.ctx = true ∧ n = countOf s.dev x ∧ (poolAt s.dev p).waiters.contains k = false ∧ n ≠ 0 ∧ allocCause s.dev x n = 0 ∧ servable s.dev p n = true ∧ slot = 0 ∧ out + 4 * n ≤ 2 ^ 57) ∧
    (∃ (s : State) (k : CmdId) (x : Cmd) (p : Nat) (cnt : Nat) (out : Nat) (slot : Nat) (n : Nat) (nowait : Bool), awake s.dev 7 = true ∧ atIssueOf s.dev k x ∧ x.spec.op = .alloc p nowait cnt out slot ∧ flag s.dev (fQreq 6) = false ∧ ctxLive s.dev x.ctx = true ∧ n = countOf s.dev x ∧ (poolAt s.dev p).waiters.contains k = false ∧ n ≠ 0 ∧ allocCause s.dev x n = 0 ∧ servable s.dev p n = false ∧ hoistable s.dev x = [] ∧ nowait = true ∧ x.spec.brCond ≠ 1) ∧
    (∃ (s : State) (k : CmdId) (x : Cmd) (p : Nat) (cnt : Nat) (out : Nat) (slot : Nat) (n : Nat) (nowait : Bool), awake s.dev 7 = true ∧ atIssueOf s.dev k x ∧ x.spec.op = .alloc p nowait cnt out slot ∧ flag s.dev (fQreq 6) = false ∧ ctxLive s.dev x.ctx = true ∧ n = countOf s.dev x ∧ (poolAt s.dev p).waiters.contains k = false ∧ n ≠ 0 ∧ allocCause s.dev x n = 0 ∧ servable s.dev p n = false ∧ hoistable s.dev x = [] ∧ nowait = false) :=
  ⟨⟨st (poolDev pool0 [allocC 0 false]), k0, allocC 0 false, 4, 0, 0x100, 0, countOf ((st (poolDev pool0 [allocC 0 false])) : State).dev ((allocC 0 false) : Cmd), false, by simp only [atIssueOf, hot]; decide⟩,
   ⟨st (poolDev pool0 [allocC 9 false]), k0, allocC 9 false, 4, 9, 0x100, 0, countOf ((st (poolDev pool0 [allocC 9 false])) : State).dev ((allocC 9 false) : Cmd), false, by simp only [atIssueOf, hot]; decide⟩,
   ⟨st (poolDev pool0 [allocC 5 false]), k0, allocC 5 false, 4, 5, 0x100, 0, countOf ((st (poolDev pool0 [allocC 5 false])) : State).dev ((allocC 5 false) : Cmd), false, by simp only [atIssueOf, hot]; decide⟩,
   ⟨st (poolDev pool0 [allocC 6 true]), k0, allocC 6 true, 4, 6, 0x100, 0, countOf ((st (poolDev pool0 [allocC 6 true])) : State).dev ((allocC 6 true) : Cmd), true, by simp only [atIssueOf, hot]; decide⟩,
   ⟨st (poolDev pool0 [allocC 6 false]), k0, allocC 6 false, 4, 6, 0x100, 0, countOf ((st (poolDev pool0 [allocC 6 false])) : State).dev ((allocC 6 false) : Cmd), false, by simp only [atIssueOf, hot]; decide⟩⟩

theorem wit_TakeIndices : ∃ (r : Pool) (n : Nat), poolSound r ∧ n ≤ freeBlocks r :=
  ⟨pool0, 5, by simp only [poolSound]; decide⟩

theorem wit_FreeBlocks :
    (∃ (s : State) (k : CmdId) (x : Cmd) (p : Nat) (cnt : Nat) (va : Nat) (n : Nat) (ix : List W32) (l : List Nat), awake s.dev 7 = true ∧ atIssueOf s.dev k x ∧ x.spec.op = .free p cnt va ∧ x.spec.sigs = [] ∧ flag s.dev (fQreq 6) = false ∧ ctxLive s.dev x.ctx = true ∧ n = countOf s.dev x ∧ n ≠ 0 ∧ freeCause s.dev x n = 0 ∧ va + 4 * n ≤ 2 ^ 57 ∧ ix.length = n ∧ l = ix.map (·.toNat) ∧ (poolAt s.dev p).waiters = [] ∧ badIndex (poolAt s.dev p) l = none) ∧
    (∃ (s : State) (k : CmdId) (x : Cmd) (p : Nat) (cnt : Nat) (va : Nat) (n : Nat) (ix : List W32) (l : List Nat) (i : _), awake s.dev 7 = true ∧ atIssueOf s.dev k x ∧ x.spec.op = .free p cnt va ∧ x.spec.sigs = [] ∧ flag s.dev (fQreq 6) = false ∧ ctxLive s.dev x.ctx = true ∧ n = countOf s.dev x ∧ n ≠ 0 ∧ freeCause s.dev x n = 0 ∧ va + 4 * n ≤ 2 ^ 57 ∧ ix.length = n ∧ l = ix.map (·.toNat) ∧ (poolAt s.dev p).waiters = [] ∧ badIndex (poolAt s.dev p) l = some i) :=
  ⟨⟨st (poolDev pool0 [freeC]), k0, freeC, 4, 2, 0x200, countOf ((st (poolDev pool0 [freeC])) : State).dev ((freeC) : Cmd), [0, 3], (([0, 3]) : List W32).map (·.toNat), by simp only [atIssueOf, hot]; decide⟩,
   ⟨st (poolDev pool0 [freeC]), k0, freeC, 4, 2, 0x200, countOf ((st (poolDev pool0 [freeC])) : State).dev ((freeC) : Cmd), [0, 0], (([0, 0]) : List W32).map (·.toNat), 1, by simp only [atIssueOf, hot]; decide⟩⟩

theorem wit_AllocCommit :
    (∃ (s : State) (k : CmdId) (x : Cmd) (p : Nat) (cnt : Nat) (out : Nat) (nowait : Bool) (a : AllocOpen) (w : List MemResp) (c : CtxRec), awake s.dev 7 = true ∧ cmdAt s.dev k = some x ∧ hot s.dev (berthRecs s.dev x.berth) ∧ x.status = none ∧ x.completeLsn = none ∧ x.spec.sigs = [] ∧ x.spec.op = .alloc p nowait cnt out 0 ∧ s.dev.lev.allocs = [a] ∧ a.cmd = k ∧ out + 4 * a.ix.length ≤ 2 ^ 57 ∧ c = ctxAt s.dev (ctxIdx x.ctx) ∧ (poolAt s.dev a.pool).waiters = [] ∧ ((∀ r ∈ w, r = .ok ∨ r = .poison)) ∧ (outWrites 0 (outAddrs out 0 a.ix.length [])).length ≤ w.length) ∧
    (∃ (s : State) (k : CmdId) (x : Cmd) (p : Nat) (cnt : Nat) (out : Nat) (nowait : Bool) (a : AllocOpen) (w : List MemResp) (c : CtxRec), awake s.dev 7 = true ∧ cmdAt s.dev k = some x ∧ hot s.dev (berthRecs s.dev x.berth) ∧ x.status = none ∧ x.completeLsn = none ∧ x.spec.sigs = [] ∧ x.spec.op = .alloc p nowait cnt out 0 ∧ s.dev.lev.allocs = [a] ∧ a.cmd = k ∧ out + 4 * a.ix.length ≤ 2 ^ 57 ∧ c = ctxAt s.dev (ctxIdx x.ctx) ∧ (poolAt s.dev a.pool).waiters = [] ∧ (w.getD 0 .ok = .access ∨ w.getD 0 .ok = .translation) ∧ a.ix ≠ []) :=
  ⟨⟨st { poolDev pool0 [allocC 1 false] with lev := { pools := [(4, pool0)], allocs := [⟨k0, 4, [3]⟩] } }, k0, allocC 1 false, 4, 1, 0x100, false, ⟨k0, 4, [3]⟩, [.ok], ctxAt ((st { poolDev pool0 [allocC 1 false] with lev := { pools := [(4, pool0)], allocs := [⟨k0, 4, [3]⟩] } }) : State).dev (ctxIdx ((allocC 1 false) : Cmd).ctx), by simp only [hot]; decide⟩,
   ⟨st { poolDev pool0 [allocC 1 false] with lev := { pools := [(4, pool0)], allocs := [⟨k0, 4, [3]⟩] } }, k0, allocC 1 false, 4, 1, 0x100, false, ⟨k0, 4, [3]⟩, [.access], ctxAt ((st { poolDev pool0 [allocC 1 false] with lev := { pools := [(4, pool0)], allocs := [⟨k0, 4, [3]⟩] } }) : State).dev (ctxIdx ((allocC 1 false) : Cmd).ctx), by simp only [hot]; decide⟩⟩

theorem wit_PoolCommands :
    (∃ (s : State) (p : Nat) (owner : Nat) (blocks : Nat) (i : _), awake s.dev 7 = true ∧ p = fld s.dev fLevPoolIndex ∧ owner = fld s.dev fLevPoolOwner ∧ blocks = fld s.dev fLevPoolBlocks ∧ flag s.dev fLevPoolBusy = true ∧ i ∈ [Instr.poolCreate, .poolDestroy, .poolRead]) ∧
    (∃ (s : State) (p : Nat) (owner : Nat) (blocks : Nat) (b : _), awake s.dev 7 = true ∧ p = fld s.dev fLevPoolIndex ∧ owner = fld s.dev fLevPoolOwner ∧ blocks = fld s.dev fLevPoolBlocks ∧ flag s.dev fLevPoolBusy = false ∧ flag s.dev (fQuiesced 6) = false ∧ (poolAt s.dev p).st = .free ∧ 0 < blocks ∧ blocks ≤ 2 ^ 24 ∧ ctxLive s.dev owner = true ∧ firstFit (areaBlocks s.dev) blocks 0 (areaUsed s.dev) = some b) ∧
    (∃ (s : State) (p : Nat) (owner : Nat) (blocks : Nat), awake s.dev 7 = true ∧ p = fld s.dev fLevPoolIndex ∧ owner = fld s.dev fLevPoolOwner ∧ blocks = fld s.dev fLevPoolBlocks ∧ flag s.dev fLevPoolBusy = false ∧ flag s.dev (fQuiesced 6) = false ∧ (poolAt s.dev p).st ≠ .free) ∧
    (∃ (s : State) (p : Nat) (owner : Nat) (blocks : Nat), awake s.dev 7 = true ∧ p = fld s.dev fLevPoolIndex ∧ owner = fld s.dev fLevPoolOwner ∧ blocks = fld s.dev fLevPoolBlocks ∧ flag s.dev fLevPoolBusy = false ∧ flag s.dev (fQuiesced 6) = false ∧ (poolAt s.dev p).st = .live ∧ (poolAt s.dev p).held = [] ∧ (poolAt s.dev p).waiters = []) ∧
    (∃ (s : State) (p : Nat) (owner : Nat) (blocks : Nat), awake s.dev 7 = true ∧ p = fld s.dev fLevPoolIndex ∧ owner = fld s.dev fLevPoolOwner ∧ blocks = fld s.dev fLevPoolBlocks ∧ flag s.dev fLevPoolBusy = false ∧ flag s.dev (fQuiesced 6) = false ∧ (poolAt s.dev p).st = .live ∧ (poolAt s.dev p).held ≠ []) ∧
    (∃ (s : State) (p : Nat) (owner : Nat) (blocks : Nat), awake s.dev 7 = true ∧ p = fld s.dev fLevPoolIndex ∧ owner = fld s.dev fLevPoolOwner ∧ blocks = fld s.dev fLevPoolBlocks ∧ flag s.dev fLevPoolBusy = false ∧ flag s.dev (fQuiesced 6) = false ∧ (poolAt s.dev p).st = .live ∧ (poolAt s.dev p).owner < 2 ^ 32 ∧ freeBlocks (poolAt s.dev p) < 2 ^ 25 ∧ (poolAt s.dev p).blocks < 2 ^ 25) :=
  ⟨⟨st (fs up [(fLevPoolBusy, 1)]), fld ((st (fs up [(fLevPoolBusy, 1)])) : State).dev fLevPoolIndex, fld ((st (fs up [(fLevPoolBusy, 1)])) : State).dev fLevPoolOwner, fld ((st (fs up [(fLevPoolBusy, 1)])) : State).dev fLevPoolBlocks, .poolRead, by decide⟩,
   ⟨st (poolSel home), fld ((st (poolSel home)) : State).dev fLevPoolIndex, fld ((st (poolSel home)) : State).dev fLevPoolOwner, fld ((st (poolSel home)) : State).dev fLevPoolBlocks, 0, by decide⟩,
   ⟨st (poolSel (poolDev pool0 [])), fld ((st (poolSel (poolDev pool0 []))) : State).dev fLevPoolIndex, fld ((st (poolSel (poolDev pool0 []))) : State).dev fLevPoolOwner, fld ((st (poolSel (poolDev pool0 []))) : State).dev fLevPoolBlocks, by decide⟩,
   ⟨st (poolSel (poolDev { pool0 with held := [] } [])), fld ((st (poolSel (poolDev { pool0 with held := [] } []))) : State).dev fLevPoolIndex, fld ((st (poolSel (poolDev { pool0 with held := [] } []))) : State).dev fLevPoolOwner, fld ((st (poolSel (poolDev { pool0 with held := [] } []))) : State).dev fLevPoolBlocks, by decide⟩,
   ⟨st (poolSel (poolDev pool0 [])), fld ((st (poolSel (poolDev pool0 []))) : State).dev fLevPoolIndex, fld ((st (poolSel (poolDev pool0 []))) : State).dev fLevPoolOwner, fld ((st (poolSel (poolDev pool0 []))) : State).dev fLevPoolBlocks, by decide⟩,
   ⟨st (poolSel (poolDev pool0 [])), fld ((st (poolSel (poolDev pool0 []))) : State).dev fLevPoolIndex, fld ((st (poolSel (poolDev pool0 []))) : State).dev fLevPoolOwner, fld ((st (poolSel (poolDev pool0 []))) : State).dev fLevPoolBlocks, by decide⟩⟩

theorem wit_FirstFit : ∃ (cap : Nat) (blocks : Nat) (b : Nat) (at_ : Nat) (used : List (Nat × Nat)), (used.Pairwise (fun x y => x.1 + x.2 ≤ y.1)) ∧ ((∀ x ∈ used, at_ ≤ x.1)) ∧ firstFit cap blocks at_ used = some b ∧ ((∀ x ∈ used, x.1 + x.2 ≤ cap)) :=
  ⟨20, 5, 8, 0, [(0, 4), (5, 3)], by decide⟩

/-- A command of berth 5 that waits on the bollard of slot 9, and one behind it that declares the signal. -/
def blocked : Cmd := { cmd0 with regd := true, spec := { spec0 with waits := [ent0 1 5] } }
def behind : Cmd := { cmd0 with key := ⟨5, 2⟩, spec := { spec0 with lineNo := 2, sigs := [ent0 1 5] } }
def cycDev (l : List Cmd) (en now : Nat) : Dev := { fs (bolDev bol0 (cmds l)) [(fBluCycEn, en)] with now := now }
def key0 : SearchKey := ⟨0, 0, 0⟩
def inDev (p : Payload) (en : Nat) (d : Dev := home) : Dev :=
  { fs d [(fBluFabricEn, en)] with fsa := { partners := [(77, { primary := some 0, inbox := [pktIn p] })] } }
def part0 : Part := { key := key0, lap := 1, src := some 78, node := 0, bol := hBol, gver := 0, outs := [77] }
def moorC (key : W64) (backing size : Nat) : Cmd := { withOp (.moor key backing size) with phase := .issued }
def unmoorC : Cmd := { withOp (.unmoor 5) with phase := .issued }
/-- A block with an arena of `n` granules and one mooring. -/
def mmg (n : Nat) (r : Mooring) (refs : List MoorRef) (d : Dev) : Dev :=
  { d with mmg := { moors := [(4095, r)], refs := refs }, scu := { d.scu with cfg := { arenaSize := n * 0x200000 } } }
def moor0 (st : MoorSt) : Mooring := { key := 5, pid := 2, st := st, size := 128 }
def ref0 : MoorRef := ⟨hCtx, 4095, 0x7000, 0⟩

theorem wit_SearchStart :
    (∃ (s : State) (b : BitVec 22), awake s.dev 6 = true ∧ waiterOf s.dev b.toNat = none) ∧
    (∃ (s : State) (b : BitVec 22) (c : _) (e : _) (u : _), awake s.dev 6 = true ∧ waiterOf s.dev b.toNat = some (c, e) ∧ u = periodStart s.dev b.toNat c + us (fld s.dev fBluConfirmUs) ∧ s.dev.now < u) ∧
    (∃ (s : State) (b : BitVec 22) (c : _) (e : _) (u : _), awake s.dev 6 = true ∧ waiterOf s.dev b.toNat = some (c, e) ∧ u = periodStart s.dev b.toNat c + us (fld s.dev fBluConfirmUs) ∧ u ≤ s.dev.now ∧ s.dev.blu.startQ.contains b.toNat = false ∧ ((s.dev.blu.searches.any fun x => isInitiator s.dev x.key b.toNat) = false) ∧ flag s.dev fBluCycEn = false) ∧
    (∃ (s : State) (b : BitVec 22) (c : _) (e : _) (u : _), awake s.dev 6 = true ∧ waiterOf s.dev b.toNat = some (c, e) ∧ u = periodStart s.dev b.toNat c + us (fld s.dev fBluConfirmUs) ∧ u ≤ s.dev.now ∧ s.dev.blu.startQ.contains b.toNat = false ∧ ((s.dev.blu.searches.any fun x => isInitiator s.dev x.key b.toNat) = false) ∧ flag s.dev fBluCycEn = true ∧ 64 ≤ s.dev.blu.searches.length) :=
  ⟨⟨st up, 5, by decide⟩,
   ⟨st (cycDev [blocked] 1 0), 5, blocked, ent0 1 5, periodStart ((st (cycDev [blocked] 1 0)) : State).dev ((5) : BitVec 22).toNat (blocked) + us (fld ((st (cycDev [blocked] 1 0)) : State).dev fBluConfirmUs), by decide⟩,
   ⟨st (cycDev [blocked] 0 1000000000), 5, blocked, ent0 1 5, periodStart ((st (cycDev [blocked] 0 1000000000)) : State).dev ((5) : BitVec 22).toNat (blocked) + us (fld ((st (cycDev [blocked] 0 1000000000)) : State).dev fBluConfirmUs), by decide⟩,
   ⟨st { cycDev [blocked] 1 1000000000 with blu := { (cycDev [blocked] 1 0).blu with searches := List.replicate 64 ⟨⟨7, 7, 7⟩, 0, true⟩ } }, 5, blocked, ent0 1 5, periodStart ((st { cycDev [blocked] 1 1000000000 with blu := { (cycDev [blocked] 1 0).blu with searches := List.replicate 64 ⟨⟨7, 7, 7⟩, 0, true⟩ } }) : State).dev ((5) : BitVec 22).toNat (blocked) + us (fld ((st { cycDev [blocked] 1 1000000000 with blu := { (cycDev [blocked] 1 0).blu with searches := List.replicate 64 ⟨⟨7, 7, 7⟩, 0, true⟩ } }) : State).dev fBluConfirmUs), by decide⟩⟩

theorem wit_SelfDeadlock : ∃ (s : State) (b : BitVec 22) (c : Cmd) (e : SyncEnt) (es : List Cmd), awake s.dev 6 = true ∧ waiterOf s.dev b.toNat = some (c, e) ∧ cmdAt s.dev c.key = some c ∧ c.completeLsn = none ∧ c.berth = b.toNat ∧ (berthAt s.dev b.toNat).gen < 2 ^ 10 ∧ s.dev.blu.searches = [] ∧ s.dev.blu.parts = [] ∧ s.dev.blu.startQ = [] ∧ periodStart s.dev b.toNat c + us (fld s.dev fBluConfirmUs) ≤ s.dev.now ∧ flag s.dev fBluCycEn = true ∧ e.node = 0 ∧ bolOk s.dev e.handle = true ∧ (bolAt s.dev (bolIdx e.handle)).state = .live ∧ (bolAt s.dev (bolIdx e.handle)).hostSig = false ∧ (bolAt s.dev (bolIdx e.handle)).cap = 0 ∧ es = enablers s.dev 0 e.handle e.code e.value ∧ es ≠ [] ∧ ((∀ x ∈ es, x.berth = b.toNat ∧ blockedAt s.dev x = true)) :=
  ⟨st (cycDev [blocked, behind] 1 1000000000), 5, blocked, ent0 1 5, [behind], by decide⟩

theorem wit_CycleQueries :
    (∃ (s : State) (src : BitVec 32) (k : SearchKey) (lap : BitVec 2) (h : BitVec 32) (w : BitVec 32), awake s.dev 6 = true ∧ reachable s.dev src.toNat = true ∧ firstIn s.dev src.toNat = some (.waitQuery k lap h w) ∧ fabricOn s.dev k = false) ∧
    (∃ (s : State) (src : BitVec 32) (k : SearchKey) (lap : BitVec 2) (h : BitVec 32) (w : BitVec 32), awake s.dev 6 = true ∧ reachable s.dev src.toNat = true ∧ firstIn s.dev src.toNat = some (.waitQuery k lap h w) ∧ fabricOn s.dev k = true ∧ lap ≠ 3 ∧ s.dev.blu.waits = []) ∧
    (∃ (s : State) (src : BitVec 32) (k : SearchKey) (lap : BitVec 2) (h : BitVec 32) (w : BitVec 32) (i : _) (x : _), awake s.dev 6 = true ∧ reachable s.dev src.toNat = true ∧ firstIn s.dev src.toNat = some (.waitQuery k lap h w) ∧ fabricOn s.dev k = true ∧ lap ≠ 3 ∧ (bolAt s.dev (bolIdx h.toNat)).hostSig = true ∧ s.dev.blu.waits = [x] ∧ x.bol = bolIdx h.toNat ∧ x.who = .away src.toNat w.toNat i) ∧
    (∃ (s : State) (src : BitVec 32) (k : SearchKey) (lap : BitVec 2) (h : BitVec 32) (w : BitVec 32), awake s.dev 6 = true ∧ reachable s.dev src.toNat = true ∧ firstIn s.dev src.toNat = some (.waitQuery k lap h w) ∧ fabricOn s.dev k = true ∧ lap = 3 ∧ ((∀ p ∈ s.dev.blu.parts, p.key ≠ k))) ∧
    (∃ (s : State) (src : BitVec 32) (k : SearchKey) (lap : BitVec 2) (h : BitVec 32) (cond : BitVec 4) (v : W64), awake s.dev 6 = true ∧ reachable s.dev src.toNat = true ∧ firstIn s.dev src.toNat = some (.declQuery k lap h cond v) ∧ fabricOn s.dev k = false) ∧
    (∃ (s : State) (src : BitVec 32) (k : SearchKey) (lap : BitVec 2) (h : BitVec 32) (cond : BitVec 4) (v : W64), awake s.dev 6 = true ∧ reachable s.dev src.toNat = true ∧ firstIn s.dev src.toNat = some (.declQuery k lap h cond v) ∧ fabricOn s.dev k = true ∧ lap ≠ 3 ∧ enablers s.dev src.toNat h.toNat cond.toNat v = []) ∧
    (∃ (s : State) (src : BitVec 32) (k : SearchKey) (lap : BitVec 2) (h : BitVec 32) (cond : BitVec 4) (v : W64) (x : _), awake s.dev 6 = true ∧ reachable s.dev src.toNat = true ∧ firstIn s.dev src.toNat = some (.declQuery k lap h cond v) ∧ fabricOn s.dev k = true ∧ lap ≠ 3 ∧ x ∈ enablers s.dev src.toNat h.toNat cond.toNat v ∧ blockedAt s.dev x = false) ∧
    (∃ (s : State) (src : BitVec 32) (k : SearchKey) (lap : BitVec 2) (h : BitVec 32) (cond : BitVec 4) (v : W64), awake s.dev 6 = true ∧ reachable s.dev src.toNat = true ∧ firstIn s.dev src.toNat = some (.declQuery k lap h cond v) ∧ fabricOn s.dev k = true ∧ lap = 3 ∧ ((∀ p ∈ s.dev.blu.parts, p.key ≠ k))) ∧
    (∃ (s : State) (src : BitVec 32), awake s.dev 6 = true ∧ reachable s.dev src.toNat = true ∧ firstIn s.dev src.toNat = none) :=
  ⟨⟨st (inDev (.waitQuery key0 1 9 8) 0), 77, key0, 1, 9, 8, by decide⟩,
   ⟨st (inDev (.waitQuery key0 1 9 8) 1), 77, key0, 1, 9, 8, by decide⟩,
   ⟨st (inDev (.waitQuery key0 1 (BitVec.ofNat 32 hBol) 8) 1 { bolDev { bol0 with hostSig := true } with blu := { (bolDev { bol0 with hostSig := true }).blu with waits := [⟨9, .away 77 8 0, 1, 5, false⟩] } }), 77, key0, 1, BitVec.ofNat 32 hBol, 8, 0, (⟨9, .away 77 8 0, 1, 5, false⟩ : WaitEnt), by decide⟩,
   ⟨st (inDev (.waitQuery key0 3 9 8) 1), 77, key0, 3, 9, 8, by decide⟩,
   ⟨st (inDev (.declQuery key0 1 9 1 5) 0), 77, key0, 1, 9, 1, 5, by decide⟩,
   ⟨st (inDev (.declQuery key0 1 9 1 5) 1), 77, key0, 1, 9, 1, 5, by decide⟩,
   ⟨st (inDev (.declQuery key0 1 9 1 5) 1 (cmds [{ cmd0 with spec := { spec0 with sigs := [⟨77, 9, 5, 0, 1, false⟩] } }])), 77, key0, 1, 9, 1, 5, { cmd0 with spec := { spec0 with sigs := [⟨77, 9, 5, 0, 1, false⟩] } }, by decide⟩,
   ⟨st (inDev (.declQuery key0 3 9 1 5) 1), 77, key0, 3, 9, 1, 5, by decide⟩,
   ⟨st { up with fsa := { partners := [(77, { primary := some 0 })] } }, 77, by decide⟩⟩

theorem wit_CycleReply : ∃ (s : State) (src : BitVec 32) (k : SearchKey) (v : QVerdict) (reach : Bool) (p : Part) (n : Nat), awake s.dev 6 = true ∧ reachable s.dev n = true ∧ firstIn s.dev src.toNat = some (.reply k 1 v reach) ∧ s.dev.blu.searches = [] ∧ s.dev.blu.parts = [p] ∧ p.key = k ∧ p.lap = 1 ∧ p.src = some n ∧ p.kids = [] ∧ p.outs = [src.toNat] ∧ p.done = false :=
  ⟨st { inDev (.reply key0 1 .blocked true) 1 with blu := { parts := [part0] }, fsa := { partners := [(77, { primary := some 0, inbox := [pktIn (.reply key0 1 .blocked true)] }), (78, { primary := some 1 })] } }, 77, key0, .blocked, true, part0, 78, by decide⟩

theorem wit_Moor :
    (∃ (s : State) (k : CmdId) (x : Cmd) (key : W64) (backing : Nat) (size : Nat) (c : CtxRec), awake s.dev 11 = true ∧ atIssueOf s.dev k x ∧ x.spec.op = .moor key backing size ∧ x.spec.sigs = [] ∧ x.moors = [] ∧ c = ctxAt s.dev (ctxIdx x.ctx) ∧ (key = 0 ∨ backing % 64 ≠ 0 ∨ size = 0 ∨ size % 64 ≠ 0)) ∧
    (∃ (s : State) (k : CmdId) (x : Cmd) (key : W64) (backing : Nat) (size : Nat) (c : CtxRec), awake s.dev 11 = true ∧ atIssueOf s.dev k x ∧ x.spec.op = .moor key backing size ∧ x.spec.sigs = [] ∧ x.moors = [] ∧ c = ctxAt s.dev (ctxIdx x.ctx) ∧ key ≠ 0 ∧ backing % 64 = 0 ∧ size ≠ 0 ∧ size % 64 = 0 ∧ arenaGranules s.dev < granulesOf size) ∧
    (∃ (s : State) (k : CmdId) (x : Cmd) (key : W64) (backing : Nat) (size : Nat) (c : CtxRec) (m : _), awake s.dev 11 = true ∧ atIssueOf s.dev k x ∧ x.spec.op = .moor key backing size ∧ x.spec.sigs = [] ∧ x.moors = [] ∧ c = ctxAt s.dev (ctxIdx x.ctx) ∧ key ≠ 0 ∧ backing % 64 = 0 ∧ size ≠ 0 ∧ size % 64 = 0 ∧ granulesOf size ≤ arenaGranules s.dev ∧ mooringOf s.dev x.ctx key = none ∧ refStoreFull s.dev = false ∧ freeMoor s.dev = some m) ∧
    (∃ (s : State) (k : CmdId) (x : Cmd) (key : W64) (backing : Nat) (size : Nat) (c : CtxRec) (m : _), awake s.dev 11 = true ∧ atIssueOf s.dev k x ∧ x.spec.op = .moor key backing size ∧ x.spec.sigs = [] ∧ x.moors = [] ∧ c = ctxAt s.dev (ctxIdx x.ctx) ∧ key ≠ 0 ∧ backing % 64 = 0 ∧ size ≠ 0 ∧ size % 64 = 0 ∧ granulesOf size ≤ arenaGranules s.dev ∧ mooringOf s.dev x.ctx key = some m ∧ (moorAt s.dev m).size ≠ size) ∧
    (∃ (s : State) (k : CmdId) (x : Cmd) (key : W64) (backing : Nat) (size : Nat) (c : CtxRec) (m : _), awake s.dev 11 = true ∧ atIssueOf s.dev k x ∧ x.spec.op = .moor key backing size ∧ x.spec.sigs = [] ∧ x.moors = [] ∧ c = ctxAt s.dev (ctxIdx x.ctx) ∧ key ≠ 0 ∧ backing % 64 = 0 ∧ size ≠ 0 ∧ size % 64 = 0 ∧ granulesOf size ≤ arenaGranules s.dev ∧ mooringOf s.dev x.ctx key = some m ∧ (moorAt s.dev m).size = size ∧ (holdsRef s.dev x.ctx m = true ∨ refStoreFull s.dev = false)) :=
  ⟨⟨st (cmds [moorC 0 0 64]), k0, moorC 0 0 64, 0, 0, 64, ctxAt ((st (cmds [moorC 0 0 64])) : State).dev (ctxIdx ((moorC 0 0 64) : Cmd).ctx), by simp only [atIssueOf, hot]; decide⟩,
   ⟨st (mmg 1 (moor0 .free) [] (cmds [moorC 5 0 0x200040])), k0, moorC 5 0 0x200040, 5, 0, 0x200040, ctxAt ((st (mmg 1 (moor0 .free) [] (cmds [moorC 5 0 0x200040]))) : State).dev (ctxIdx ((moorC 5 0 0x200040) : Cmd).ctx), by simp only [atIssueOf, hot]; decide⟩,
   ⟨st (mmg 1 { moor0 .resident with key := 6 } [] (cmds [moorC 5 0 0x200000])), k0, moorC 5 0 0x200000, 5, 0, 0x200000, ctxAt ((st (mmg 1 { moor0 .resident with key := 6 } [] (cmds [moorC 5 0 0x200000]))) : State).dev (ctxIdx ((moorC 5 0 0x200000) : Cmd).ctx), 0, by simp only [atIssueOf, hot]; decide⟩,
   ⟨st (mmg 1 (moor0 .resident) [] (cmds [moorC 5 0 64])), k0, moorC 5 0 64, 5, 0, 64, ctxAt ((st (mmg 1 (moor0 .resident) [] (cmds [moorC 5 0 64]))) : State).dev (ctxIdx ((moorC 5 0 64) : Cmd).ctx), 4095, by simp only [atIssueOf, hot]; decide⟩,
   ⟨st (mmg 1 (moor0 .resident) [ref0] (cmds [moorC 5 0 128])), k0, moorC 5 0 128, 5, 0, 128, ctxAt ((st (mmg 1 (moor0 .resident) [ref0] (cmds [moorC 5 0 128]))) : State).dev (ctxIdx ((moorC 5 0 128) : Cmd).ctx), 4095, by simp only [atIssueOf, hot]; decide⟩⟩

theorem wit_Unmoor :
    (∃ (s : State) (k : CmdId) (x : Cmd) (key : W64), awake s.dev 11 = true ∧ atIssueOf s.dev k x ∧ x.spec.op = .unmoor key ∧ x.spec.sigs = [] ∧ x.moors = [] ∧ mooringOf s.dev x.ctx key = none) ∧
    (∃ (s : State) (k : CmdId) (x : Cmd) (key : W64) (m : _), awake s.dev 11 = true ∧ atIssueOf s.dev k x ∧ x.spec.op = .unmoor key ∧ x.spec.sigs = [] ∧ x.moors = [] ∧ mooringOf s.dev x.ctx key = some m ∧ holdsRef s.dev x.ctx m = false) ∧
    (∃ (s : State) (k : CmdId) (x : Cmd) (key : W64) (m : _), awake s.dev 11 = true ∧ atIssueOf s.dev k x ∧ x.spec.op = .unmoor key ∧ x.spec.sigs = [] ∧ x.moors = [] ∧ mooringOf s.dev x.ctx key = some m ∧ holdsRef s.dev x.ctx m = true) :=
  ⟨⟨st (cmds [unmoorC]), k0, unmoorC, 5, by simp only [atIssueOf, hot]; decide⟩,
   ⟨st (mmg 1 (moor0 .resident) [] (cmds [unmoorC])), k0, unmoorC, 5, 4095, by simp only [atIssueOf, hot]; decide⟩,
   ⟨st (mmg 1 (moor0 .queued) [ref0] (cmds [unmoorC])), k0, unmoorC, 5, 4095, by simp only [atIssueOf, hot]; decide⟩⟩

theorem wit_LoadStart :
    (∃ (s : State) (m : BitVec 12) (r : Mooring), awake s.dev 11 = true ∧ r = moorAt s.dev m.toNat ∧ r.st ≠ .queued) ∧
    (∃ (s : State) (m : BitVec 12) (r : Mooring) (x : MoorRef) (xs : List MoorRef) (c : CtxRec) (g : _), awake s.dev 11 = true ∧ r = moorAt s.dev m.toNat ∧ r.st = .queued ∧ flag s.dev (fQuiesced 8) = false ∧ ((∀ e ∈ s.dev.mmg.moors, e.2.st = .queued → r.order ≤ e.2.order)) ∧ liveRefs s.dev m.toNat = x :: xs ∧ c = ctxAt s.dev (ctxIdx x.ctx) ∧ fitFor s.dev (granulesOf r.size) = some g ∧ 0 < r.size) ∧
    (∃ (s : State) (m : BitVec 12) (r : Mooring) (x : MoorRef) (xs : List MoorRef) (c : CtxRec), awake s.dev 11 = true ∧ r = moorAt s.dev m.toNat ∧ r.st = .queued ∧ flag s.dev (fQuiesced 8) = false ∧ ((∀ e ∈ s.dev.mmg.moors, e.2.st = .queued → r.order ≤ e.2.order)) ∧ liveRefs s.dev m.toNat = x :: xs ∧ c = ctxAt s.dev (ctxIdx x.ctx) ∧ fitFor s.dev (granulesOf r.size) = none ∧ idleMoor s.dev = none ∧ r.fullReported = true) ∧
    (∃ (s : State) (m : BitVec 12) (r : Mooring) (x : MoorRef) (xs : List MoorRef) (c : CtxRec), awake s.dev 11 = true ∧ r = moorAt s.dev m.toNat ∧ r.st = .queued ∧ flag s.dev (fQuiesced 8) = false ∧ ((∀ e ∈ s.dev.mmg.moors, e.2.st = .queued → r.order ≤ e.2.order)) ∧ liveRefs s.dev m.toNat = x :: xs ∧ c = ctxAt s.dev (ctxIdx x.ctx) ∧ fitFor s.dev (granulesOf r.size) = none ∧ idleMoor s.dev = none ∧ r.fullReported = false) :=
  ⟨⟨st (mmg 1 (moor0 .resident) [ref0] home), 4095, moorAt ((st (mmg 1 (moor0 .resident) [ref0] home)) : State).dev ((4095) : BitVec 12).toNat, by decide⟩,
   ⟨st (mmg 1 (moor0 .queued) [ref0] home), 4095, moorAt ((st (mmg 1 (moor0 .queued) [ref0] home)) : State).dev ((4095) : BitVec 12).toNat, ref0, [], ctxAt ((st (mmg 1 (moor0 .queued) [ref0] home)) : State).dev (ctxIdx ((ref0) : MoorRef).ctx), 0, by decide⟩,
   ⟨st (mmg 0 { moor0 .queued with fullReported := true } [ref0] home), 4095, moorAt ((st (mmg 0 { moor0 .queued with fullReported := true } [ref0] home)) : State).dev ((4095) : BitVec 12).toNat, ref0, [], ctxAt ((st (mmg 0 { moor0 .queued with fullReported := true } [ref0] home)) : State).dev (ctxIdx ((ref0) : MoorRef).ctx), by decide⟩,
   ⟨st (mmg 0 (moor0 .queued) [ref0] home), 4095, moorAt ((st (mmg 0 (moor0 .queued) [ref0] home)) : State).dev ((4095) : BitVec 12).toNat, ref0, [], ctxAt ((st (mmg 0 (moor0 .queued) [ref0] home)) : State).dev (ctxIdx ((ref0) : MoorRef).ctx), by decide⟩⟩

theorem wit_GranulesFit : ∃ (d : Dev) (n : Nat) (g : Nat) (e : _), fitFor d n = some g ∧ e ∈ d.mmg.moors ∧ e.2.placed = true :=
  ⟨mmg 3 { moor0 .resident with off := 0x200000 } [] up, 1, 0, (4095, { moor0 .resident with off := 0x200000 }), by decide⟩

theorem wit_LoadLines :
    (∃ (s : State) (m : BitVec 12) (r : Mooring) (c : CtxRec), awake s.dev 11 = true ∧ r = moorAt s.dev m.toNat ∧ r.st = .loading ∧ c = ctxAt s.dev (ctxIdx r.loader) ∧ r.loaded < r.size ∧ ctxLive s.dev r.loader = true) ∧
    (∃ (s : State) (m : BitVec 12) (r : Mooring) (c : CtxRec), awake s.dev 11 = true ∧ r = moorAt s.dev m.toNat ∧ r.st = .loading ∧ c = ctxAt s.dev (ctxIdx r.loader) ∧ r.loaded < r.size ∧ ctxLive s.dev r.loader = false) ∧
    (∃ (s : State) (m : BitVec 12) (r : Mooring) (c : CtxRec), awake s.dev 11 = true ∧ r = moorAt s.dev m.toNat ∧ r.st = .loading ∧ c = ctxAt s.dev (ctxIdx r.loader) ∧ r.size ≤ r.loaded) :=
  ⟨⟨st (mmg 1 { moor0 .loading with loader := hCtx, loaded := 64 } [ref0] home), 4095, moorAt ((st (mmg 1 { moor0 .loading with loader := hCtx, loaded := 64 } [ref0] home)) : State).dev ((4095) : BitVec 12).toNat, ctxAt ((st (mmg 1 { moor0 .loading with loader := hCtx, loaded := 64 } [ref0] home)) : State).dev (ctxIdx ((moorAt ((st (mmg 1 { moor0 .loading with loader := hCtx, loaded := 64 } [ref0] home)) : State).dev ((4095) : BitVec 12).toNat) : Mooring).loader), by decide⟩,
   ⟨st (mmg 1 { moor0 .loading with loader := 5, loaded := 64 } [ref0] home), 4095, moorAt ((st (mmg 1 { moor0 .loading with loader := 5, loaded := 64 } [ref0] home)) : State).dev ((4095) : BitVec 12).toNat, ctxAt ((st (mmg 1 { moor0 .loading with loader := 5, loaded := 64 } [ref0] home)) : State).dev (ctxIdx ((moorAt ((st (mmg 1 { moor0 .loading with loader := 5, loaded := 64 } [ref0] home)) : State).dev ((4095) : BitVec 12).toNat) : Mooring).loader), by decide⟩,
   ⟨st (mmg 1 { moor0 .loading with loader := hCtx, loaded := 128 } [ref0] home), 4095, moorAt ((st (mmg 1 { moor0 .loading with loader := hCtx, loaded := 128 } [ref0] home)) : State).dev ((4095) : BitVec 12).toNat, ctxAt ((st (mmg 1 { moor0 .loading with loader := hCtx, loaded := 128 } [ref0] home)) : State).dev (ctxIdx ((moorAt ((st (mmg 1 { moor0 .loading with loader := hCtx, loaded := 128 } [ref0] home)) : State).dev ((4095) : BitVec 12).toNat) : Mooring).loader), by decide⟩⟩

theorem wit_LoadRestart :
    (∃ (s : State) (m : BitVec 12) (resp : MemResp) (r : Mooring), awake s.dev 11 = true ∧ r = moorAt s.dev m.toNat ∧ r.st = .loading ∧ r.loaded < r.size ∧ resp = .ok ∧ ctxLive s.dev r.loader = true) ∧
    (∃ (s : State) (m : BitVec 12) (resp : MemResp) (r : Mooring) (x : _), awake s.dev 11 = true ∧ r = moorAt s.dev m.toNat ∧ r.st = .loading ∧ r.loaded < r.size ∧ (resp ≠ .ok ∨ ctxLive s.dev r.loader = false) ∧ nextRef s.dev m.toNat = some x) ∧
    (∃ (s : State) (m : BitVec 12) (resp : MemResp) (r : Mooring), awake s.dev 11 = true ∧ r = moorAt s.dev m.toNat ∧ r.st = .loading ∧ r.loaded < r.size ∧ (resp ≠ .ok ∨ ctxLive s.dev r.loader = false) ∧ nextRef s.dev m.toNat = none ∧ refsOf s.dev m.toNat ≠ 0) :=
  ⟨⟨st (mmg 1 { moor0 .loading with loader := hCtx } [ref0] home), 4095, .ok, moorAt ((st (mmg 1 { moor0 .loading with loader := hCtx } [ref0] home)) : State).dev ((4095) : BitVec 12).toNat, by decide⟩,
   ⟨st (mmg 1 { moor0 .loading with loader := 5 } [ref0] home), 4095, .poison, moorAt ((st (mmg 1 { moor0 .loading with loader := 5 } [ref0] home)) : State).dev ((4095) : BitVec 12).toNat, ref0, by decide⟩,
   ⟨st (mmg 1 { moor0 .loading with loader := hCtx } [ref0] home), 4095, .poison, moorAt ((st (mmg 1 { moor0 .loading with loader := hCtx } [ref0] home)) : State).dev ((4095) : BitVec 12).toNat, by decide⟩⟩

theorem wit_MooringPoison :
    (∃ (s : State), awake s.dev 11 = true ∧ s.dev.mmg.poison = []) ∧
    (∃ (s : State) (k : _) (a : _) (rest : _) (m : _) (r : _) (g : _) (c : _), awake s.dev 11 = true ∧ s.dev.mmg.poison = (k, a) :: rest ∧ moorAtAddr s.dev a = some m ∧ m < 4096 ∧ r = moorAt s.dev m ∧ r.st = .resident ∧ r.repair = [] ∧ liveRefs s.dev m ≠ [] ∧ g = (a - s.dev.scu.cfg.arenaVa - r.off) / granule ∧ g < 2 ^ 20 ∧ cmdAt s.dev k = some c ∧ c.phase = .issued ∧ c.status = none ∧ tilesOut s.dev k ≠ 0) :=
  ⟨⟨st up, by decide⟩,
   ⟨st (outAt 0 { mmg 1 (moor0 .resident) [ref0] (cmds [{ withOp (.launch lop) with phase := .issued }]) with mmg := { moors := [(4095, moor0 .resident)], refs := [ref0], poison := [(k0, 64)] } }), k0, 64, ([] : List (CmdId × Nat)), 4095, moor0 .resident, 0, { withOp (.launch lop) with phase := .issued }, by decide⟩⟩

theorem wit_GranuleRepaired :
    (∃ (s : State) (m : BitVec 12) (r : Mooring) (g : Nat) (rest : List Nat), awake s.dev 11 = true ∧ r = moorAt s.dev m.toNat ∧ r.st = .poisoned ∧ r.repair = g :: rest ∧ g * granule + r.loaded < min r.size ((g + 1) * granule)) ∧
    (∃ (s : State) (m : BitVec 12) (r : Mooring) (g : Nat) (rest : List Nat), awake s.dev 11 = true ∧ r = moorAt s.dev m.toNat ∧ r.st = .poisoned ∧ r.repair = g :: rest ∧ min r.size ((g + 1) * granule) ≤ g * granule + r.loaded ∧ rest = []) ∧
    (∃ (s : State) (m : BitVec 12) (r : Mooring) (g : Nat) (rest : List Nat), awake s.dev 11 = true ∧ r = moorAt s.dev m.toNat ∧ r.st = .poisoned ∧ r.repair = g :: rest ∧ min r.size ((g + 1) * granule) ≤ g * granule + r.loaded ∧ rest ≠ [] ∧ liveRefs s.dev m.toNat ≠ []) :=
  ⟨⟨st (mmg 1 { moor0 .poisoned with repair := [0], loaded := 64 } [ref0] home), 4095, moorAt ((st (mmg 1 { moor0 .poisoned with repair := [0], loaded := 64 } [ref0] home)) : State).dev ((4095) : BitVec 12).toNat, 0, [], by decide⟩,
   ⟨st (mmg 1 { moor0 .poisoned with repair := [0], loaded := 128 } [ref0] home), 4095, moorAt ((st (mmg 1 { moor0 .poisoned with repair := [0], loaded := 128 } [ref0] home)) : State).dev ((4095) : BitVec 12).toNat, 0, [], by decide⟩,
   ⟨st (mmg 2 { moor0 .poisoned with size := 0x200040, repair := [1, 0], loaded := 64 } [ref0] home), 4095, moorAt ((st (mmg 2 { moor0 .poisoned with size := 0x200040, repair := [1, 0], loaded := 64 } [ref0] home)) : State).dev ((4095) : BitVec 12).toNat, 1, [0], by decide⟩⟩

theorem wit_MmgRead :
    (∃ (s : State) (m : Nat) (i : _), awake s.dev 11 = true ∧ ((s.dev.mmg.cmd = some (1, m) ∨ s.dev.mmg.cmd = none ∧ flag s.dev fMmgBusy = false ∧ m = fld s.dev fMmgSel)) ∧ (moorAt s.dev m).sealCtx = 0 ∧ i < 32) ∧
    (∃ (s : State) (m : Nat), awake s.dev 11 = true ∧ ((s.dev.mmg.cmd = some (1, m) ∨ s.dev.mmg.cmd = none ∧ flag s.dev fMmgBusy = false ∧ m = fld s.dev fMmgSel)) ∧ (moorAt s.dev m).sealCtx ≠ 0) :=
  ⟨⟨st (fs (mmg 1 (moor0 .resident) [ref0] home) [(fMmgSel, 4095)]), 4095, 31, by decide⟩,
   ⟨st (fs (mmg 1 { moor0 .resident with sealCtx := hCtx } [ref0] home) [(fMmgSel, 4095)]), 4095, by decide⟩⟩

def lnks (l : LinkRec) : List LinkRec := l :: List.replicate 47 {}
def lUp : LinkRec := { up := true }
def pktL (p : Payload) : Packet := { dest := 0xFFFFFFFF, src := 77, credit := 0, pseq := 0, ack := 0, lowRef := 0, session := 0, body := p }
/-- A packet of enumeration that waits from link 0. -/
def elink (b : Payload) : Fsa := { links := lnks lUp, inbox := [(0, 50, pktL b)] }
def fd (f : Fsa) (d : Dev := up) : Dev := { d with fsa := f }
def own0 (l : List (Fld × Nat)) (d : Dev) : Dev := fs d ((fFsaId, 5) :: l)
def tok (root : W32) : Payload := .enumTok 3 root root 9 1
def pn (p : Partner) (d : Dev := up) : Dev := { d with fsa := { links := lnks lUp, partners := [(77, p)] } }
def linked : Partner := { primary := some 0, session := some 4, rateLim := 10, rateStart := 0, expect := 6 }
def pkt5 (seq : W32) : Packet := { dest := 5, src := 77, credit := 1, pseq := seq, ack := 0, lowRef := 0, session := 4, body := .capNote 9 true }
def sealed0 (p : Packet) : SealedPacket := { pkt := p, key := 1, nonce := 524288, intact := true, e2eOk := true }
def keyed : LinkRec := { up := true, key := some 1 }
def rxDev : Dev := own0 [] { up with fsa := { links := lnks keyed, partners := [(77, linked)] } }
def outP : OutPkt := { pseq := 3, credit := 0, body := .capNote 9 true, of := none, sent := some (100, 0) }
def sigP : Payload := .signal (BitVec.ofNat 32 hBol) 7 8 1 100 2 0
/-- A partner whose first packet is `p`, and a bollard exported to it with capability 8. -/
def sigDev (p : Payload) (r : BolRec := { bol0 with cap := 8 }) (d : Dev := home) : Dev :=
  { bolDev r d with fsa := { links := lnks lUp, partners := [(77, { primary := some 0, inbox := [pktIn p] })], exports := [(hBol, 77)] } }
def expDev (r : BolRec) (ex : List (Nat × Nat)) (n : Nat := 77) : Dev :=
  fs { bolDev r with fsa := { links := lnks lUp, partners := [(77, { primary := some 0 })], exports := ex } } [(fFsaExpNode, n), (fFsaExpHandle, hBol)]
def selDev (p : Partner) : Dev := fs (pn p) [(fFsaPartnerSel, 77)]

theorem wit_EnumStart :
    (∃ (s : State), awake s.dev 12 = true ∧ isRoot s.dev = false) ∧
    (∃ (s : State), awake s.dev 12 = true ∧ isRoot s.dev = true ∧ (flag s.dev fFsaEnumBusy = true ∨ s.dev.fsa.censusOn = true)) ∧
    (∃ (s : State) (k : Nat), awake s.dev 12 = true ∧ isRoot s.dev = true ∧ flag s.dev fFsaEnumBusy = false ∧ s.dev.fsa.censusOn = false ∧ flag s.dev (fQuiesced 9) = false ∧ linkUsable s.dev k = true ∧ (linkAt s.dev k).st ≠ .foreign ∧ k < 48 ∧ ((∀ j, j < k → linkUsable s.dev j = false))) :=
  ⟨⟨st up, by decide⟩,
   ⟨st (fs up [(fFsaRoot, 1), (fFsaEnumBusy, 1)]), by decide⟩,
   ⟨st (own0 [(fFsaRoot, 1)] (fd { links := [{}, { up := true }] ++ List.replicate 46 {} })), 1, by decide⟩⟩

theorem wit_EnumToken :
    (∃ (s : State) (link : BitVec 6), awake s.dev 12 = true ∧ s.dev.fsa.links.length = 48 ∧ link.toNat ≥ 48) ∧
    (∃ (s : State) (link : BitVec 6), awake s.dev 12 = true ∧ s.dev.fsa.links.length = 48 ∧ link.toNat < 48 ∧ nextIn s.dev link.toNat = none) ∧
    (∃ (s : State) (link : BitVec 6) (a : Nat) (p : Packet) (epoch : BitVec 16) (root : W32) (base : W32) (next : W32) (hops : W32), awake s.dev 12 = true ∧ s.dev.fsa.links.length = 48 ∧ link.toNat < 48 ∧ linkUsable s.dev link.toNat = true ∧ nextIn s.dev link.toNat = some (a, p) ∧ p.body = .enumTok epoch root base next hops ∧ s.dev.fsa.rootId ≠ 0 ∧ root.toNat ≠ s.dev.fsa.rootId) ∧
    (∃ (s : State) (link : BitVec 6) (a : Nat) (p : Packet) (epoch : BitVec 16) (root : W32) (base : W32) (next : W32) (hops : W32), awake s.dev 12 = true ∧ s.dev.fsa.links.length = 48 ∧ link.toNat < 48 ∧ linkUsable s.dev link.toNat = true ∧ nextIn s.dev link.toNat = some (a, p) ∧ p.body = .enumTok epoch root base next hops ∧ (s.dev.fsa.rootId = 0 ∨ root.toNat = s.dev.fsa.rootId) ∧ s.dev.fsa.epoch = some epoch.toNat) ∧
    (∃ (s : State) (link : BitVec 6) (a : Nat) (p : Packet) (epoch : BitVec 16) (root : W32) (base : W32) (next : W32) (hops : W32), awake s.dev 12 = true ∧ s.dev.fsa.links.length = 48 ∧ link.toNat < 48 ∧ linkUsable s.dev link.toNat = true ∧ nextIn s.dev link.toNat = some (a, p) ∧ p.body = .enumTok epoch root base next hops ∧ (s.dev.fsa.rootId = 0 ∨ root.toNat = s.dev.fsa.rootId) ∧ s.dev.fsa.epoch ≠ some epoch.toNat ∧ flag s.dev fFsaPinned = false) :=
  ⟨⟨st up, 50, by decide⟩,
   ⟨st up, 0, by decide⟩,
   ⟨st (own0 [] (fd { elink (tok 5) with rootId := 6 })), 0, 50, pktL (tok 5), 3, 5, 5, 9, 1, by decide⟩,
   ⟨st (own0 [] (fd { elink (tok 5) with rootId := 5, epoch := some 3 })), 0, 50, pktL (tok 5), 3, 5, 5, 9, 1, by decide⟩,
   ⟨st (fd (elink (tok 5))), 0, 50, pktL (tok 5), 3, 5, 5, 9, 1, by decide⟩⟩

theorem wit_EnumReply :
    (∃ (s : State) (link : BitVec 6) (a : Nat) (p : Packet) (ans : EnumAns) (next : W32) (id : W32), awake s.dev 12 = true ∧ s.dev.fsa.links.length = 48 ∧ link.toNat < 48 ∧ nextIn s.dev link.toNat = some (a, p) ∧ p.body = .enumReply ans next id ∧ isRoot s.dev = false ∧ s.dev.fsa.tokenAt = some link.toNat) ∧
    (∃ (s : State) (link : BitVec 6) (a : Nat) (p : Packet) (ans : EnumAns) (next : W32) (id : W32), awake s.dev 12 = true ∧ s.dev.fsa.links.length = 48 ∧ link.toNat < 48 ∧ nextIn s.dev link.toNat = some (a, p) ∧ p.body = .enumReply ans next id ∧ isRoot s.dev = false ∧ s.dev.fsa.tokenAt ≠ some link.toNat) :=
  ⟨⟨st (own0 [] (fd { elink (.enumReply .done 12 77) with tokenAt := some 0, tokenLeft := [1, 0], epoch := some 3 })), 0, 50, pktL (.enumReply .done 12 77), .done, 12, 77, by decide⟩,
   ⟨st (own0 [] (fd { elink (.enumReply .done 12 77) with tokenAt := none, tokenLeft := [1, 0], epoch := some 3 })), 0, 50, pktL (.enumReply .done 12 77), .done, 12, 77, by decide⟩⟩

theorem wit_Census :
    (∃ (s : State) (link : BitVec 6) (a : Nat) (p : Packet) (m : CensusMsg), awake s.dev 12 = true ∧ link.toNat < 48 ∧ nextIn s.dev link.toNat = some (a, p) ∧ p.body = .census m ∧ isRoot s.dev = false ∧ m = .ask ∧ s.dev.fsa.parent = some link.toNat ∧ linkUsable s.dev link.toNat = true ∧ ((∀ k, k < 48 → (linkAt s.dev k).st ≠ .child))) ∧
    (∃ (s : State) (link : BitVec 6) (a : Nat) (p : Packet) (m : CensusMsg) (id : _), awake s.dev 12 = true ∧ link.toNat < 48 ∧ nextIn s.dev link.toNat = some (a, p) ∧ p.body = .census m ∧ isRoot s.dev = false ∧ m = .newId [] id) ∧
    (∃ (s : State) (link : BitVec 6) (a : Nat) (p : Packet) (m : CensusMsg) (k : _) (r : _) (id : _), awake s.dev 12 = true ∧ link.toNat < 48 ∧ nextIn s.dev link.toNat = some (a, p) ∧ p.body = .census m ∧ isRoot s.dev = false ∧ m = .newId (k :: r) id ∧ linkUsable s.dev k.toNat = true) ∧
    (∃ (s : State) (link : BitVec 6) (a : Nat) (p : Packet) (m : CensusMsg) (up : _) (k : _), awake s.dev 12 = true ∧ link.toNat < 48 ∧ nextIn s.dev link.toNat = some (a, p) ∧ p.body = .census m ∧ isRoot s.dev = false ∧ m = .change up ∧ s.dev.fsa.parent = some k ∧ linkUsable s.dev k = true) :=
  ⟨⟨st (own0 [] (fd { elink (.census .ask) with parent := some 0 })), 0, 50, pktL (.census .ask), .ask, by decide⟩,
   ⟨st (own0 [] (fd (elink (.census (.newId [] 8))))), 0, 50, pktL (.census (.newId [] 8)), .newId [] 8, (8 : W32), by decide⟩,
   ⟨st (own0 [] (fd (elink (.census (.newId [0] 8))))), 0, 50, pktL (.census (.newId [0] 8)), .newId [0] 8, (0 : BitVec 6), ([] : List (BitVec 6)), (8 : W32), by decide⟩,
   ⟨st (own0 [] (fd { elink (.census (.change true)) with parent := some 0 })), 0, 50, pktL (.census (.change true)), .change true, true, 0, by decide⟩⟩

theorem wit_Route :
    (∃ (s : State) (link : BitVec 6) (a : Nat) (p : Packet) (path : List (BitVec 6)) (dst : W32) (pr : BitVec 6) (al : BitVec 6) (absent : Bool), awake s.dev 12 = true ∧ link.toNat < 48 ∧ nextIn s.dev link.toNat = some (a, p) ∧ p.body = .route path dst pr al absent ∧ dst.toNat ≠ fld s.dev fFsaId ∧ path = [] ∧ absent = false ∧ pr.toNat < 48) ∧
    (∃ (s : State) (link : BitVec 6) (a : Nat) (p : Packet) (path : List (BitVec 6)) (dst : W32) (pr : BitVec 6) (al : BitVec 6) (absent : Bool), awake s.dev 12 = true ∧ link.toNat < 48 ∧ nextIn s.dev link.toNat = some (a, p) ∧ p.body = .route path dst pr al absent ∧ dst.toNat ≠ fld s.dev fFsaId ∧ path = [] ∧ absent = true) ∧
    (∃ (s : State) (link : BitVec 6) (a : Nat) (p : Packet) (path : List (BitVec 6)) (dst : W32) (pr : BitVec 6) (al : BitVec 6) (absent : Bool) (k : _) (r : _), awake s.dev 12 = true ∧ link.toNat < 48 ∧ nextIn s.dev link.toNat = some (a, p) ∧ p.body = .route path dst pr al absent ∧ dst.toNat ≠ fld s.dev fFsaId ∧ path = k :: r ∧ linkUsable s.dev k.toNat = true) :=
  ⟨⟨st (own0 [] (fd (elink (.route [] 77 0 63 false)))), 0, 50, pktL (.route [] 77 0 63 false), [], 77, 0, 63, false, by decide⟩,
   ⟨st (own0 [] (fd (elink (.route [] 77 0 63 true)))), 0, 50, pktL (.route [] 77 0 63 true), [], 77, 0, 63, true, by decide⟩,
   ⟨st (own0 [] (fd (elink (.route [0] 77 0 63 true)))), 0, 50, pktL (.route [0] 77 0 63 true), [0], 77, 0, 63, true, (0 : BitVec 6), ([] : List (BitVec 6)), by decide⟩⟩

theorem wit_Isolate :
    (∃ (s : State) (link : BitVec 6) (a : Nat) (p : Packet) (path : List (BitVec 6)), awake s.dev 12 = true ∧ link.toNat < 48 ∧ nextIn s.dev link.toNat = some (a, p) ∧ p.body = .isolate path ∧ path = []) ∧
    (∃ (s : State) (link : BitVec 6) (a : Nat) (p : Packet) (path : List (BitVec 6)) (k : _) (r : _), awake s.dev 12 = true ∧ link.toNat < 48 ∧ nextIn s.dev link.toNat = some (a, p) ∧ p.body = .isolate path ∧ path = k :: r ∧ linkUsable s.dev k.toNat = true) :=
  ⟨⟨st (own0 [] (fd (elink (.isolate [])))), 0, 50, pktL (.isolate []), [], by decide⟩,
   ⟨st (own0 [] (fd (elink (.isolate [0])))), 0, 50, pktL (.isolate [0]), [0], (0 : BitVec 6), ([] : List (BitVec 6)), by decide⟩⟩

theorem wit_LinkLevels :
    (∃ (s : State) (link : BitVec 6), link.toNat < 48 ∧ s.dev.fsa.links.length = 48 ∧ (linkAt s.dev link.toNat).up = false) ∧
    (∃ (s : State) (link : BitVec 6), link.toNat < 48 ∧ s.dev.fsa.links.length = 48 ∧ (linkAt s.dev link.toNat).up = true) ∧
    (∃ (s : State) (link : BitVec 6), link.toNat < 48 ∧ s.dev.fsa.links.length = 48 ∧ inReset s.dev 12 = true ∧ (linkAt s.dev link.toNat).up = true) ∧
    (∃ (s : State) (link : BitVec 6), link.toNat < 48 ∧ s.dev.fsa.links.length = 48 ∧ inReset s.dev 12 = true ∧ (linkAt s.dev link.toNat).up = false) ∧
    (∃ (s : State) (link : BitVec 6), link.toNat < 48 ∧ s.dev.fsa.links.length = 48 ∧ awake s.dev 12 = true ∧ (linkAt s.dev link.toNat).up = false) ∧
    (∃ (s : State) (link : BitVec 6) (n : _) (p : _) (b : _), link.toNat < 48 ∧ s.dev.fsa.links.length = 48 ∧ awake s.dev 12 = true ∧ (linkAt s.dev link.toNat).up = true ∧ isRoot s.dev = false ∧ s.dev.fsa.partners = [(n, p)] ∧ p.primary = some link.toNat ∧ p.st = .active ∧ p.alternate = some b ∧ b ≠ link.toNat ∧ linkUsable s.dev b = true) ∧
    (∃ (s : State) (link : BitVec 6) (n : _) (p : _), link.toNat < 48 ∧ s.dev.fsa.links.length = 48 ∧ awake s.dev 12 = true ∧ (linkAt s.dev link.toNat).up = true ∧ isRoot s.dev = false ∧ s.dev.fsa.partners = [(n, p)] ∧ p.primary = some link.toNat ∧ p.st = .active ∧ p.alternate = none) :=
  ⟨⟨st up, 0, by decide⟩,
   ⟨st (fd { links := lnks lUp }), 0, by decide⟩,
   ⟨st { fsa := { links := lnks lUp } }, 0, by decide⟩,
   ⟨st {}, 0, by decide⟩,
   ⟨st up, 0, by decide⟩,
   ⟨st (fd { links := [lUp, lUp] ++ List.replicate 46 {}, partners := [(77, { primary := some 0, alternate := some 1 })] }), 0, 77, ({ primary := some 0, alternate := some 1 } : Partner), 1, by decide⟩,
   ⟨st (pn { primary := some 0 }), 0, 77, ({ primary := some 0 } : Partner), by decide⟩⟩

theorem wit_LinkSessionKey :
    (∃ (s : State) (sel : BitVec 16) (j : _), (sel.extractLsb' 0 6).toNat < 48 ∧ (sel.extractLsb' 6 6).toNat < 48 ∧ awake s.dev 12 = true ∧ s.dev.fsa.links.length = 48 ∧ j ≠ (sel.extractLsb' 0 6).toNat) ∧
    (∃ (s : State) (sel : BitVec 16), (sel.extractLsb' 0 6).toNat < 48 ∧ (sel.extractLsb' 6 6).toNat < 48 ∧ inReset s.dev 12 = true) ∧
    (∃ (s : State) (link : BitVec 6), link.toNat < 48 ∧ inReset s.dev 12 = true) ∧
    (∃ (s : State) (sel : BitVec 16), (48 ≤ (sel.extractLsb' 0 6).toNat ∨ 48 ≤ (sel.extractLsb' 6 6).toNat)) :=
  ⟨⟨st up, 0x1041, 2, by decide⟩,
   ⟨st {}, 0x1041, by decide⟩,
   ⟨st {}, 0, by decide⟩,
   ⟨st up, 0x30, by decide⟩⟩

theorem wit_PacketReceive :
    (∃ (s : State) (link : BitVec 6) (p : SealedPacket) (l : LinkRec) (n : Nat) (r : Partner), awake s.dev 12 = true ∧ link.toNat < 48 ∧ s.dev.fsa.links.length = 48 ∧ l = linkAt s.dev link.toNat ∧ n = p.pkt.src.toNat ∧ r = partnerAt s.dev n ∧ linkUsable s.dev link.toNat = false) ∧
    (∃ (s : State) (link : BitVec 6) (p : SealedPacket) (l : LinkRec) (n : Nat) (r : Partner), awake s.dev 12 = true ∧ link.toNat < 48 ∧ s.dev.fsa.links.length = 48 ∧ l = linkAt s.dev link.toNat ∧ n = p.pkt.src.toNat ∧ r = partnerAt s.dev n ∧ linkUsable s.dev link.toNat = true ∧ l.nbr = 0 ∧ ¬ (l.key = some p.key ∧ p.nonce = rxNonce s.dev link.toNat ∧ p.intact = true)) ∧
    (∃ (s : State) (link : BitVec 6) (p : SealedPacket) (l : LinkRec) (n : Nat) (r : Partner), awake s.dev 12 = true ∧ link.toNat < 48 ∧ s.dev.fsa.links.length = 48 ∧ l = linkAt s.dev link.toNat ∧ n = p.pkt.src.toNat ∧ r = partnerAt s.dev n ∧ linkUsable s.dev link.toNat = true ∧ l.key = some p.key ∧ p.nonce = rxNonce s.dev link.toNat ∧ p.intact = true ∧ p.e2eOk = true ∧ ofPartner p.pkt.body = true ∧ p.pkt.body ≠ .ackOnly ∧ fld s.dev fFsaState ≠ 2 ∧ l.st ≠ .foreign ∧ p.pkt.dest.toNat = fld s.dev fFsaId ∧ r.st = .active ∧ r.primary = some link.toNat ∧ r.session = some p.pkt.session.toNat ∧ r.rateLim ≠ 0 ∧ s.dev.now < r.rateStart + 1000 ∧ r.rate < r.rateLim ∧ r.expect < 2 ^ 32 ∧ p.pkt.pseq.toNat = r.expect) ∧
    (∃ (s : State) (link : BitVec 6) (p : SealedPacket) (l : LinkRec) (n : Nat) (r : Partner), awake s.dev 12 = true ∧ link.toNat < 48 ∧ s.dev.fsa.links.length = 48 ∧ l = linkAt s.dev link.toNat ∧ n = p.pkt.src.toNat ∧ r = partnerAt s.dev n ∧ linkUsable s.dev link.toNat = true ∧ l.key = some p.key ∧ p.nonce = rxNonce s.dev link.toNat ∧ p.intact = true ∧ p.e2eOk = true ∧ ofPartner p.pkt.body = true ∧ p.pkt.body ≠ .ackOnly ∧ fld s.dev fFsaState ≠ 2 ∧ l.st ≠ .foreign ∧ p.pkt.dest.toNat = fld s.dev fFsaId ∧ r.st = .active ∧ r.primary = some link.toNat ∧ r.session = some p.pkt.session.toNat ∧ r.rateLim ≠ 0 ∧ s.dev.now < r.rateStart + 1000 ∧ r.rate < r.rateLim ∧ r.expect < 2 ^ 32 ∧ r.expect < p.pkt.pseq.toNat ∧ p.pkt.pseq.toNat < r.expect + 2 ^ 31) :=
  ⟨⟨st up, 0, sealed0 (pkt5 6), linkAt ((st up) : State).dev ((0) : BitVec 6).toNat, ((sealed0 (pkt5 6)) : SealedPacket).pkt.src.toNat, partnerAt ((st up) : State).dev ((((sealed0 (pkt5 6)) : SealedPacket).pkt.src.toNat) : Nat), by decide⟩,
   ⟨st rxDev, 0, { sealed0 (pkt5 6) with key := 2 }, linkAt ((st rxDev) : State).dev ((0) : BitVec 6).toNat, (({ sealed0 (pkt5 6) with key := 2 }) : SealedPacket).pkt.src.toNat, partnerAt ((st rxDev) : State).dev (((({ sealed0 (pkt5 6) with key := 2 }) : SealedPacket).pkt.src.toNat) : Nat), by decide⟩,
   ⟨st rxDev, 0, sealed0 (pkt5 6), linkAt ((st rxDev) : State).dev ((0) : BitVec 6).toNat, ((sealed0 (pkt5 6)) : SealedPacket).pkt.src.toNat, partnerAt ((st rxDev) : State).dev ((((sealed0 (pkt5 6)) : SealedPacket).pkt.src.toNat) : Nat), by decide⟩,
   ⟨st rxDev, 0, sealed0 (pkt5 7), linkAt ((st rxDev) : State).dev ((0) : BitVec 6).toNat, ((sealed0 (pkt5 7)) : SealedPacket).pkt.src.toNat, partnerAt ((st rxDev) : State).dev ((((sealed0 (pkt5 7)) : SealedPacket).pkt.src.toNat) : Nat), by decide⟩⟩

theorem wit_PacketResend :
    (∃ (s : State) (node : BitVec 32), awake s.dev 12 = true ∧ reachable s.dev node.toNat = false) ∧
    (∃ (s : State) (node : BitVec 32) (o : OutPkt) (l : Nat) (u : Nat) (k : Nat), awake s.dev 12 = true ∧ reachable s.dev node.toNat = true ∧ (partnerAt s.dev node.toNat).primary = some l ∧ (partnerAt s.dev node.toNat).queue = [o] ∧ o.sent = some (u, k) ∧ u + us (fld s.dev fFsaResendUs) ≤ s.dev.now) ∧
    (∃ (s : State) (node : BitVec 32) (o : OutPkt) (l : Nat) (u : Nat) (k : Nat), awake s.dev 12 = true ∧ reachable s.dev node.toNat = true ∧ (partnerAt s.dev node.toNat).primary = some l ∧ (partnerAt s.dev node.toNat).queue = [o] ∧ o.sent = some (u, k) ∧ s.dev.now < u + us (fld s.dev fFsaResendUs)) :=
  ⟨⟨st up, 77, by decide⟩,
   ⟨st { pn { primary := some 0, queue := [outP] } with now := 1000000000 }, 77, outP, 0, 100, 0, by decide⟩,
   ⟨st { pn { primary := some 0, queue := [outP] } (fs up [(fFsaResendUs, 50)]) with now := 150 }, 77, outP, 0, 100, 0, by decide⟩⟩

theorem wit_RemoteSignal :
    (∃ (s : State) (src : BitVec 32) (q : Packet) (h : W32) (v : W64) (cap : W64) (op : BitVec 4) (ref : BitVec 40) (line : BitVec 16) (entry : BitVec 3) (i : Nat), awake s.dev 6 = true ∧ headIn s.dev src.toNat = some q ∧ q.body = .signal h v cap op ref line entry ∧ i = bolIdx h.toNat ∧ ((∃ x ∈ s.dev.fsa.idents, x.src = src.toNat ∧ x.ref = ref.toNat ∧ x.line = line.toNat ∧ x.entry = entry.toNat))) ∧
    (∃ (s : State) (src : BitVec 32) (q : Packet) (h : W32) (v : W64) (cap : W64) (op : BitVec 4) (ref : BitVec 40) (line : BitVec 16) (entry : BitVec 3) (i : Nat) (w : _), awake s.dev 6 = true ∧ headIn s.dev src.toNat = some q ∧ q.body = .signal h v cap op ref line entry ∧ i = bolIdx h.toNat ∧ s.dev.fsa.idents = [] ∧ hot s.dev (bolRecs s.dev h.toNat) ∧ ((∀ w ∈ s.dev.blu.waits, w.bol ≠ i)) ∧ remoteTest s.dev src.toNat h.toNat cap = none ∧ sigOp (bolAt s.dev i) op.toNat v = .ok w) ∧
    (∃ (s : State) (src : BitVec 32) (q : Packet) (h : W32) (v : W64) (cap : W64) (op : BitVec 4) (ref : BitVec 40) (line : BitVec 16) (entry : BitVec 3) (i : Nat) (row : _), awake s.dev 6 = true ∧ headIn s.dev src.toNat = some q ∧ q.body = .signal h v cap op ref line entry ∧ i = bolIdx h.toNat ∧ s.dev.fsa.idents = [] ∧ hot s.dev (bolRecs s.dev h.toNat) ∧ ((∀ w ∈ s.dev.blu.waits, w.bol ≠ i)) ∧ remoteTest s.dev src.toNat h.toNat cap = some row ∧ badRow row = false ∧ reachable s.dev src.toNat = true) :=
  ⟨⟨st { sigDev sigP with fsa := { (sigDev sigP).fsa with idents := [⟨77, 100, 2, 0, 3⟩] } }, 77, pktIn sigP, BitVec.ofNat 32 hBol, 7, 8, 1, 100, 2, 0, bolIdx ((BitVec.ofNat 32 hBol) : W32).toNat, by decide⟩,
   ⟨st (sigDev sigP), 77, pktIn sigP, BitVec.ofNat 32 hBol, 7, 8, 1, 100, 2, 0, bolIdx ((BitVec.ofNat 32 hBol) : W32).toNat, 7, by simp only [hot]; decide⟩,
   ⟨st (sigDev sigP { bol0 with state := .abandoned }), 77, pktIn sigP, BitVec.ofNat 32 hBol, 7, 8, 1, 100, 2, 0, bolIdx ((BitVec.ofNat 32 hBol) : W32).toNat, RefuseRow.abandoned, by simp only [hot]; decide⟩⟩

theorem wit_PartnerNotices :
    (∃ (s : State) (src : BitVec 32) (ref : _) (line : _) (entry : _) (h : _) (row : _), awake s.dev 6 = true ∧ awake s.dev 12 = true ∧ firstIn s.dev src.toNat = some (.sigNotice ref line entry h row) ∧ row ≠ .backward) ∧
    (∃ (s : State) (src : BitVec 32) (w : _) (e : _) (time : _) (k : _) (c : _), awake s.dev 6 = true ∧ awake s.dev 12 = true ∧ firstIn s.dev src.toNat = some (.waitMet w e time) ∧ awayOf s.dev src.toNat w.toNat e.toNat = some k ∧ cmdAt s.dev k = some c ∧ c.spin = none) ∧
    (∃ (s : State) (src : BitVec 32) (w : _) (e : _) (st : _) (k : _) (c : _), awake s.dev 6 = true ∧ awake s.dev 12 = true ∧ firstIn s.dev src.toNat = some (.waitEnd w e st) ∧ awayOf s.dev src.toNat w.toNat e.toNat = some k ∧ s.dev.blu.waits = [] ∧ cmdAt s.dev k = some c ∧ c.completeLsn = none) ∧
    (∃ (s : State) (src : BitVec 32) (h : _) (added : _), awake s.dev 6 = true ∧ awake s.dev 12 = true ∧ firstIn s.dev src.toNat = some (.capNote h added)) :=
  ⟨⟨st (sigDev (.sigNotice 1 2 0 9 .stale)), 77, (1 : BitVec 40), (2 : BitVec 16), (0 : BitVec 3), (9 : W32), RefuseRow.stale, by decide⟩,
   ⟨st { sigDev (.waitMet (BitVec.ofNat 32 hBer) 1 50) with cmds := [cmd0], blu := { (sigDev sigP).blu with away := [(77, k0, 1)] } }, 77, BitVec.ofNat 32 hBer, (1 : BitVec 3), (50 : W64), k0, cmd0, by decide⟩,
   ⟨st { sigDev (.waitEnd (BitVec.ofNat 32 hBer) 1 .stale) with cmds := [cmd0], blu := { (sigDev sigP).blu with away := [(77, k0, 1)] } }, 77, BitVec.ofNat 32 hBer, (1 : BitVec 3), WaitEndStatus.stale, k0, cmd0, by decide⟩,
   ⟨st (sigDev (.capNote 9 true)), 77, (9 : W32), true, by decide⟩⟩

theorem wit_RemoteRegister :
    (∃ (s : State) (src : BitVec 32) (q : Packet) (h : W32) (v : W64) (cap : W64) (cond : BitVec 4) (w : W32) (e : BitVec 3) (cont : Bool) (r : BolRec), awake s.dev 6 = true ∧ headIn s.dev src.toNat = some q ∧ q.body = .waitReg h v cap cond w e cont ∧ (partnerAt s.dev src.toNat).kept = [] ∧ r = bolAt s.dev (bolIdx h.toNat) ∧ fld s.dev fFsaShare ≤ sharesOf s.dev src.toNat) ∧
    (∃ (s : State) (src : BitVec 32) (q : Packet) (h : W32) (v : W64) (cap : W64) (cond : BitVec 4) (w : W32) (e : BitVec 3) (cont : Bool) (r : BolRec), awake s.dev 6 = true ∧ headIn s.dev src.toNat = some q ∧ q.body = .waitReg h v cap cond w e cont ∧ (partnerAt s.dev src.toNat).kept = [] ∧ r = bolAt s.dev (bolIdx h.toNat) ∧ sharesOf s.dev src.toNat < fld s.dev fFsaShare ∧ hot s.dev (bolRecs s.dev h.toNat) ∧ reachable s.dev src.toNat = true ∧ ((∀ x ∈ s.dev.blu.waits, x.bol ≠ bolIdx h.toNat)) ∧ remoteTest s.dev src.toNat h.toNat cap = some .stale) ∧
    (∃ (s : State) (src : BitVec 32) (q : Packet) (h : W32) (v : W64) (cap : W64) (cond : BitVec 4) (w : W32) (e : BitVec 3) (cont : Bool) (r : BolRec), awake s.dev 6 = true ∧ headIn s.dev src.toNat = some q ∧ q.body = .waitReg h v cap cond w e cont ∧ (partnerAt s.dev src.toNat).kept = [] ∧ r = bolAt s.dev (bolIdx h.toNat) ∧ sharesOf s.dev src.toNat < fld s.dev fFsaShare ∧ hot s.dev (bolRecs s.dev h.toNat) ∧ reachable s.dev src.toNat = true ∧ ((∀ x ∈ s.dev.blu.waits, x.bol ≠ bolIdx h.toNat)) ∧ remoteTest s.dev src.toNat h.toNat cap = none ∧ kindOfCode cond.toNat = some r.kind ∧ (r.kind = .fence ∨ r.kind = .flag) ∧ condHolds r cond.toNat v = true) ∧
    (∃ (s : State) (src : BitVec 32) (q : Packet) (h : W32) (v : W64) (cap : W64) (cond : BitVec 4) (w : W32) (e : BitVec 3) (cont : Bool) (r : BolRec), awake s.dev 6 = true ∧ headIn s.dev src.toNat = some q ∧ q.body = .waitReg h v cap cond w e cont ∧ (partnerAt s.dev src.toNat).kept = [] ∧ r = bolAt s.dev (bolIdx h.toNat) ∧ sharesOf s.dev src.toNat < fld s.dev fFsaShare ∧ hot s.dev (bolRecs s.dev h.toNat) ∧ reachable s.dev src.toNat = true ∧ ((∀ x ∈ s.dev.blu.waits, x.bol ≠ bolIdx h.toNat)) ∧ remoteTest s.dev src.toNat h.toNat cap = none ∧ kindOfCode cond.toNat = some r.kind ∧ (r.kind = .fence ∨ r.kind = .flag) ∧ condHolds r cond.toNat v = false) :=
  ⟨⟨st (sigDev (.waitReg (BitVec.ofNat 32 hBol) 7 8 1 66 1 false) bol0 (fs home [(fFsaShare, 0)])), 77, pktIn (.waitReg (BitVec.ofNat 32 hBol) 7 8 1 66 1 false), BitVec.ofNat 32 hBol, 7, 8, 1, 66, 1, false, bolAt ((st (sigDev (.waitReg (BitVec.ofNat 32 hBol) 7 8 1 66 1 false) bol0 (fs home [(fFsaShare, 0)]))) : State).dev (bolIdx ((BitVec.ofNat 32 hBol) : W32).toNat), by decide⟩,
   ⟨st (sigDev (.waitReg 9 7 8 1 66 1 false) bol0 (fs home [(fFsaShare, 4)])), 77, pktIn (.waitReg 9 7 8 1 66 1 false), 9, 7, 8, 1, 66, 1, false, bolAt ((st (sigDev (.waitReg 9 7 8 1 66 1 false) bol0 (fs home [(fFsaShare, 4)]))) : State).dev (bolIdx ((9) : W32).toNat), by simp only [hot]; decide⟩,
   ⟨st (sigDev (.waitReg (BitVec.ofNat 32 hBol) 0 8 1 66 1 false) { bol0 with cap := 8 } (fs home [(fFsaShare, 4)])), 77, pktIn (.waitReg (BitVec.ofNat 32 hBol) 0 8 1 66 1 false), BitVec.ofNat 32 hBol, 0, 8, 1, 66, 1, false, bolAt ((st (sigDev (.waitReg (BitVec.ofNat 32 hBol) 0 8 1 66 1 false) { bol0 with cap := 8 } (fs home [(fFsaShare, 4)]))) : State).dev (bolIdx ((BitVec.ofNat 32 hBol) : W32).toNat), by simp only [hot]; decide⟩,
   ⟨st (sigDev (.waitReg (BitVec.ofNat 32 hBol) 7 8 1 66 1 false) { bol0 with cap := 8 } (fs home [(fFsaShare, 4)])), 77, pktIn (.waitReg (BitVec.ofNat 32 hBol) 7 8 1 66 1 false), BitVec.ofNat 32 hBol, 7, 8, 1, 66, 1, false, bolAt ((st (sigDev (.waitReg (BitVec.ofNat 32 hBol) 7 8 1 66 1 false) { bol0 with cap := 8 } (fs home [(fFsaShare, 4)]))) : State).dev (bolIdx ((BitVec.ofNat 32 hBol) : W32).toNat), by simp only [hot]; decide⟩⟩

theorem wit_AckOnly :
    (∃ (s : State) (src : BitVec 32), awake s.dev 12 = true ∧ (partnerAt s.dev src.toNat).inbox = []) ∧
    (∃ (s : State) (src : BitVec 32) (q : _) (o : _) (x : _), awake s.dev 12 = true ∧ (partnerAt s.dev src.toNat).inbox = [q] ∧ q.body = .ackOnly ∧ (partnerAt s.dev src.toNat).queue = [o] ∧ o.sent = some x ∧ 1 ≤ sub32 q.ack.toNat o.pseq ∧ sub32 q.ack.toNat o.pseq < 2 ^ 31 ∧ s.dev.cmds = []) :=
  ⟨⟨st up, 77, by decide⟩,
   ⟨st (pn { primary := some 0, queue := [outP], used := 3, inbox := [{ pktIn .ackOnly with ack := 4, credit := 2 }] }), 77, ({ pktIn .ackOnly with ack := 4, credit := 2 } : Packet), outP, (100, 0), by decide⟩⟩

theorem wit_TideExchange :
    (∃ (s : State) (link : BitVec 6), awake s.dev 12 = true ∧ link.toNat < 48 ∧ s.dev.fsa.parent = none) ∧
    (∃ (s : State) (link : BitVec 6) (k : _), awake s.dev 12 = true ∧ link.toNat < 48 ∧ s.dev.fsa.parent = some k ∧ s.dev.fsa.tideLast ≠ 0 ∧ s.dev.now < s.dev.fsa.tideLast + 100000) ∧
    (∃ (s : State) (link : BitVec 6) (k : _), awake s.dev 12 = true ∧ link.toNat < 48 ∧ s.dev.fsa.parent = some k ∧ s.dev.fsa.tideLast + 100000 ≤ s.dev.now ∧ linkUsable s.dev k = true ∧ fld s.dev fFsaState ≠ 2) ∧
    (∃ (s : State) (link : BitVec 6), awake s.dev 12 = true ∧ link.toNat < 48 ∧ nextIn s.dev link.toNat = none) ∧
    (∃ (s : State) (link : BitVec 6) (a : _) (p : _) (t1 : _) (t2 : _) (t3 : _), awake s.dev 12 = true ∧ link.toNat < 48 ∧ nextIn s.dev link.toNat = some (a, p) ∧ p.body = .tideSync t1 t2 t3 ∧ fld s.dev fFsaState ≠ 2 ∧ s.dev.fsa.parent ≠ some link.toNat ∧ linkUsable s.dev link.toNat = true) ∧
    (∃ (s : State) (link : BitVec 6) (a : _) (p : _) (t1 : _) (t2 : _) (t3 : _), awake s.dev 12 = true ∧ link.toNat < 48 ∧ nextIn s.dev link.toNat = some (a, p) ∧ p.body = .tideSync t1 t2 t3 ∧ fld s.dev fFsaState ≠ 2 ∧ s.dev.fsa.parent = some link.toNat ∧ s.dev.fsa.tideSamples.length < 255) :=
  ⟨⟨st up, 0, by decide⟩,
   ⟨st { fd { links := lnks lUp, parent := some 0, tideLast := 100 } with now := 200 }, 0, 0, by decide⟩,
   ⟨st { fd { links := lnks lUp, parent := some 0, tideLast := 100 } with now := 200000 }, 0, 0, by decide⟩,
   ⟨st up, 0, by decide⟩,
   ⟨st (fd (elink (.tideSync 1 2 3))), 0, 50, pktL (.tideSync 1 2 3), (1 : W64), (2 : W64), (3 : W64), by decide⟩,
   ⟨st (fd { elink (.tideSync 1 2 3) with parent := some 0 }), 0, 50, pktL (.tideSync 1 2 3), (1 : W64), (2 : W64), (3 : W64), by decide⟩⟩

theorem wit_StampExtends : ∃ (d : Dev) (x : Nat), d.tide < 2 ^ 64 ∧ x < 2 ^ 16 :=
  ⟨{ up with tide := 65530 }, 4, by decide⟩

theorem wit_TideLost :
    (∃ (s : State) (k : Nat) (u : Nat), awake s.dev 12 = true ∧ s.dev.fsa.parent = some k ∧ s.dev.fsa.tideHeard = some u ∧ u + 10000000 ≤ s.dev.now) ∧
    (∃ (s : State) (k : Nat) (u : Nat), awake s.dev 12 = true ∧ s.dev.fsa.parent = some k ∧ s.dev.fsa.tideHeard = some u ∧ s.dev.now < u + 10000000) :=
  ⟨⟨st { fd { parent := some 0, tideHeard := some 5 } with now := 10000005 }, 0, 5, by decide⟩,
   ⟨st { fd { parent := some 0, tideHeard := some 5 } with now := 10000004 }, 0, 5, by decide⟩⟩

theorem wit_PartnerCommands :
    (∃ (s : State) (n : Nat) (p : Partner), awake s.dev 12 = true ∧ n = fld s.dev fFsaPartnerSel ∧ p = partnerAt s.dev n ∧ flag s.dev fFsaPartnerBusy = true) ∧
    (∃ (s : State) (n : Nat) (p : Partner) (i : _), awake s.dev 12 = true ∧ n = fld s.dev fFsaPartnerSel ∧ p = partnerAt s.dev n ∧ flag s.dev fFsaPartnerBusy = false ∧ flag s.dev (fQuiesced 9) = false ∧ nodeOk s.dev n = false ∧ i ∈ [Instr.partnerRead, .release, .quarantine]) ∧
    (∃ (s : State) (n : Nat) (p : Partner) (i : _), awake s.dev 12 = true ∧ n = fld s.dev fFsaPartnerSel ∧ p = partnerAt s.dev n ∧ flag s.dev fFsaPartnerBusy = false ∧ flag s.dev (fQuiesced 9) = false ∧ nodeOk s.dev n = true ∧ tfind s.dev.fsa.partners n = none ∧ i ∈ [Instr.partnerRead, .release, .quarantine]) ∧
    (∃ (s : State) (n : Nat) (p : Partner), awake s.dev 12 = true ∧ n = fld s.dev fFsaPartnerSel ∧ p = partnerAt s.dev n ∧ flag s.dev fFsaPartnerBusy = false ∧ flag s.dev (fQuiesced 9) = false ∧ nodeOk s.dev n = true ∧ (tfind s.dev.fsa.partners n).isSome = true ∧ p.st = .quarantined) ∧
    (∃ (s : State) (n : Nat) (p : Partner), awake s.dev 12 = true ∧ n = fld s.dev fFsaPartnerSel ∧ p = partnerAt s.dev n ∧ flag s.dev fFsaPartnerBusy = false ∧ flag s.dev (fQuiesced 9) = false ∧ nodeOk s.dev n = true ∧ (tfind s.dev.fsa.partners n).isSome = true ∧ p.st ≠ .quarantined ∧ ((∀ k, k < 48 → (linkAt s.dev k).nbr ≠ n))) :=
  ⟨⟨st (fs (selDev linked) [(fFsaPartnerBusy, 1)]), fld ((st (fs (selDev linked) [(fFsaPartnerBusy, 1)])) : State).dev fFsaPartnerSel, partnerAt ((st (fs (selDev linked) [(fFsaPartnerBusy, 1)])) : State).dev ((fld ((st (fs (selDev linked) [(fFsaPartnerBusy, 1)])) : State).dev fFsaPartnerSel) : Nat), by decide⟩,
   ⟨st up, fld ((st up) : State).dev fFsaPartnerSel, partnerAt ((st up) : State).dev ((fld ((st up) : State).dev fFsaPartnerSel) : Nat), Instr.release, by decide⟩,
   ⟨st (fs up [(fFsaPartnerSel, 77)]), fld ((st (fs up [(fFsaPartnerSel, 77)])) : State).dev fFsaPartnerSel, partnerAt ((st (fs up [(fFsaPartnerSel, 77)])) : State).dev ((fld ((st (fs up [(fFsaPartnerSel, 77)])) : State).dev fFsaPartnerSel) : Nat), Instr.release, by decide⟩,
   ⟨st (selDev { linked with st := .quarantined }), fld ((st (selDev { linked with st := .quarantined })) : State).dev fFsaPartnerSel, partnerAt ((st (selDev { linked with st := .quarantined })) : State).dev ((fld ((st (selDev { linked with st := .quarantined })) : State).dev fFsaPartnerSel) : Nat), by decide⟩,
   ⟨st (selDev linked), fld ((st (selDev linked)) : State).dev fFsaPartnerSel, partnerAt ((st (selDev linked)) : State).dev ((fld ((st (selDev linked)) : State).dev fFsaPartnerSel) : Nat), by decide⟩⟩

theorem wit_ExportCommands :
    (∃ (s : State) (n : Nat) (h : Nat) (r : BolRec), awake s.dev 12 = true ∧ n = fld s.dev fFsaExpNode ∧ h = fld s.dev fFsaExpHandle ∧ r = bolAt s.dev (bolIdx h) ∧ flag s.dev fFsaExpBusy = true) ∧
    (∃ (s : State) (n : Nat) (h : Nat) (r : BolRec) (i : _), awake s.dev 12 = true ∧ n = fld s.dev fFsaExpNode ∧ h = fld s.dev fFsaExpHandle ∧ r = bolAt s.dev (bolIdx h) ∧ flag s.dev fFsaExpBusy = false ∧ flag s.dev (fQuiesced 9) = false ∧ hot s.dev (bolRecs s.dev h) ∧ bolOk s.dev h = false ∧ i ∈ [Instr.add, .remove, .removeAll]) ∧
    (∃ (s : State) (n : Nat) (h : Nat) (r : BolRec), awake s.dev 12 = true ∧ n = fld s.dev fFsaExpNode ∧ h = fld s.dev fFsaExpHandle ∧ r = bolAt s.dev (bolIdx h) ∧ flag s.dev fFsaExpBusy = false ∧ flag s.dev (fQuiesced 9) = false ∧ hot s.dev (bolRecs s.dev h) ∧ bolOk s.dev h = true ∧ nodeOk s.dev n = true ∧ r.state = .live ∧ r.cap ≠ 0 ∧ s.dev.fsa.exports.contains (h, n) = false ∧ s.dev.fsa.exports.length < 262144 ∧ reachable s.dev n = true) ∧
    (∃ (s : State) (n : Nat) (h : Nat) (r : BolRec), awake s.dev 12 = true ∧ n = fld s.dev fFsaExpNode ∧ h = fld s.dev fFsaExpHandle ∧ r = bolAt s.dev (bolIdx h) ∧ flag s.dev fFsaExpBusy = false ∧ flag s.dev (fQuiesced 9) = false ∧ hot s.dev (bolRecs s.dev h) ∧ bolOk s.dev h = true ∧ nodeOk s.dev n = true ∧ s.dev.fsa.exports.contains (h, n) = true) :=
  ⟨⟨st (fs (expDev bol0 []) [(fFsaExpBusy, 1)]), fld ((st (fs (expDev bol0 []) [(fFsaExpBusy, 1)])) : State).dev fFsaExpNode, fld ((st (fs (expDev bol0 []) [(fFsaExpBusy, 1)])) : State).dev fFsaExpHandle, bolAt ((st (fs (expDev bol0 []) [(fFsaExpBusy, 1)])) : State).dev (bolIdx ((fld ((st (fs (expDev bol0 []) [(fFsaExpBusy, 1)])) : State).dev fFsaExpHandle) : Nat)), by decide⟩,
   ⟨st (expDev { bol0 with gen := 2 } []), fld ((st (expDev { bol0 with gen := 2 } [])) : State).dev fFsaExpNode, fld ((st (expDev { bol0 with gen := 2 } [])) : State).dev fFsaExpHandle, bolAt ((st (expDev { bol0 with gen := 2 } [])) : State).dev (bolIdx ((fld ((st (expDev { bol0 with gen := 2 } [])) : State).dev fFsaExpHandle) : Nat)), Instr.removeAll, by simp only [hot]; decide⟩,
   ⟨st (expDev { bol0 with cap := 8 } []), fld ((st (expDev { bol0 with cap := 8 } [])) : State).dev fFsaExpNode, fld ((st (expDev { bol0 with cap := 8 } [])) : State).dev fFsaExpHandle, bolAt ((st (expDev { bol0 with cap := 8 } [])) : State).dev (bolIdx ((fld ((st (expDev { bol0 with cap := 8 } [])) : State).dev fFsaExpHandle) : Nat)), by simp only [hot]; decide⟩,
   ⟨st (expDev { bol0 with cap := 8 } [(hBol, 77), (hBol, 78)]), fld ((st (expDev { bol0 with cap := 8 } [(hBol, 77), (hBol, 78)])) : State).dev fFsaExpNode, fld ((st (expDev { bol0 with cap := 8 } [(hBol, 77), (hBol, 78)])) : State).dev fFsaExpHandle, bolAt ((st (expDev { bol0 with cap := 8 } [(hBol, 77), (hBol, 78)])) : State).dev (bolIdx ((fld ((st (expDev { bol0 with cap := 8 } [(hBol, 77), (hBol, 78)])) : State).dev fFsaExpHandle) : Nat)), by simp only [hot]; decide⟩⟩

def frec (sq : Nat) : FaultRec := { seq := sq, cause := 0x10, unit := 4, kind := 1, context := hCtx, berth := hBer }
def frec2 (sq : Nat) : FaultRec := { seq := sq, cause := 0x10, unit := 4, kind := 3, context := hCtx, berth := hBer }
def openR (r : FaultRec) (d : Dev := home) : Dev := { d with scu := { d.scu with open_ := [r] } }
def full (d : Dev) : Dev := fs d [(fFqProd, 4097), (fFqCons, 1)]
/-- A FAULTED command of berth 5 whose record is open. -/
def faulted0 : Cmd := { withOp (.launch lop) with phase := .issued, status := some stFaulted, faultSeq := 9 }
def slotD (d : Dev) : Dev := { d with scu := { d.scu with slots := [(5, { frec 9 with slot := true })], pendList := [5] } }
/-- An agent's line, and the queue of requests at the home. -/
def lineD (x : Nat) (st : LSt) (d : Dev := up) : Dev := { d with coh := { d.coh with lines := [(x, 0x680, st, 6)] } }
def reqD (x : Nat) (q : CReq) (dir : Option DirSt := none) : Dev :=
  { home with coh := { queue := [(0x680, x, q)], store := [(0x680, 5)], dir := match dir with | some v => [(0x680, v)] | none => [] } }
def busyD (b : Busy) (dir : List (Nat × DirSt)) (ans : List (Nat × Nat × Option Line × Bool)) : Dev :=
  { up with coh := { busy := [(0x680, b)], dir := dir, answers := ans, store := [(0x680, 5)] } }
def rdsBusy : Busy := { agent := 9, req := .rds, await := [8], granted := false }
def pushBusy : Busy := { agent := 8, req := .push, await := [8], granted := false }
def msgD (ev : CohEv) (st : LSt) : Dev := { up with coh := { msgs := [⟨8, 0x680, ev, 7⟩], lines := [(8, 0x680, st, 6)], store := [(0x680, 5)] } }
def wrD (held : Bool) : Dev := { up with coh := { wrCmp := [(0, 0x680, held)], store := [(0x680, 5)] } }
def lev0 : Dev := fs up [(fIrqRaw 0, 1), (fPageMask 0, 0)]
def pendD (n : Nat) (l : List (Fld × Nat)) : Dev := fs up ((fIrqPend (n / 64), 2 ^ (n % 64)) :: (fIrqMask (n / 64), 0) :: l)
/-- A second fault of a berth whose slot is PENDING. -/
def second (c : Cmd) : Dev :=
  { openR (frec 9) (cmds [c]) with scu := { up.scu with open_ := [frec 9], slots := [(5, { frec 7 with slot := true })], pendList := [5] } }
def atmBusy (d : Dev := up) : Dev := { d with coh := { atmRsp := [(0, 0x680, 7)], busy := [(0x680, { agent := 0, req := .atm (.add 0 1), await := [], granted := true })] } }
/-- The context's record is spilled; a manifest's line that may not be written yet. -/
def spill (d : Dev) : Dev := { d with btc := { d.btc with hotCtx := [] } }
def manReq (x : Nat) (q : CReq) : Dev :=
  { home with coh := { queue := [(0x98000000, x, q)] }, mfu := { up.mfu with mans := [{ man0 with st := .logged, lsn := 5, groupEnd := 9 }] } }

theorem wit_FaultRecordWrite :
    (∃ (s : State) (q : BitVec 32), awake s.dev 13 = true ∧ ((∀ x ∈ s.dev.scu.open_, x.seq ≠ q.toNat))) ∧
    (∃ (s : State) (q : BitVec 32) (r : FaultRec) (rest : List FaultRec), awake s.dev 13 = true ∧ s.dev.scu.open_ = r :: rest ∧ r.seq = q.toNat ∧ recDrained s.dev r = false) ∧
    (∃ (s : State) (q : BitVec 32) (r : FaultRec) (rest : List FaultRec), awake s.dev 13 = true ∧ s.dev.scu.open_ = r :: rest ∧ r.seq = q.toNat ∧ recDrained s.dev r = true ∧ r.counted = false ∧ tfind s.dev.scu.slots (berthIdx r.berth) = none ∧ fqFull s.dev = false) ∧
    (∃ (s : State) (q : BitVec 32) (r : FaultRec) (rest : List FaultRec), awake s.dev 13 = true ∧ s.dev.scu.open_ = r :: rest ∧ r.seq = q.toNat ∧ recDrained s.dev r = true ∧ r.counted = false ∧ tfind s.dev.scu.slots (berthIdx r.berth) = none ∧ fqFull s.dev = true ∧ (berthAt s.dev (berthIdx r.berth)).state = .live) ∧
    (∃ (s : State) (q : BitVec 32) (r : FaultRec) (rest : List FaultRec) (c : _), awake s.dev 13 = true ∧ s.dev.scu.open_ = r :: rest ∧ r.seq = q.toNat ∧ recDrained s.dev r = true ∧ r.counted = false ∧ tfind s.dev.scu.slots (berthIdx r.berth) = none ∧ ((s.dev.cmds.filter fun c => c.status = some stFaulted && c.faultSeq = q.toNat && c.completeLsn.isNone) = [c]) ∧ cmdAt s.dev c.key = some c) ∧
    (∃ (s : State) (q : BitVec 32) (r : FaultRec) (rest : List FaultRec) (p : _), awake s.dev 13 = true ∧ s.dev.scu.open_ = r :: rest ∧ r.seq = q.toNat ∧ recDrained s.dev r = true ∧ r.counted = false ∧ tfind s.dev.scu.slots (berthIdx r.berth) = some p ∧ p.slot = true) ∧
    (∃ (s : State) (q : BitVec 32) (r : FaultRec) (rest : List FaultRec) (p : _) (c : _), awake s.dev 13 = true ∧ s.dev.scu.open_ = r :: rest ∧ r.seq = q.toNat ∧ recDrained s.dev r = true ∧ r.counted = false ∧ tfind s.dev.scu.slots (berthIdx r.berth) = some p ∧ ((s.dev.cmds.filter fun c => c.status = some stFaulted && c.faultSeq = q.toNat && c.completeLsn.isNone) = [c]) ∧ cmdAt s.dev c.key = some c) :=
  ⟨⟨st home, 9, by decide⟩,
   ⟨st { outAt 0 (openR (frec 9) (cmds [faulted0])) with scu := { (openR (frec 9)).scu with open_ := [frec 9] } }, 9, frec 9, ([] : List FaultRec), by decide⟩,
   ⟨st (openR (frec 9)), 9, frec 9, ([] : List FaultRec), by decide⟩,
   ⟨st (full (openR (frec 9))), 9, frec 9, ([] : List FaultRec), by decide⟩,
   ⟨st (openR (frec 9) (cmds [faulted0])), 9, frec 9, ([] : List FaultRec), faulted0, by decide⟩,
   ⟨st (second cmd0), 9, frec 9, ([] : List FaultRec), ({ frec 7 with slot := true } : FaultRec), by decide⟩,
   ⟨st (second faulted0), 9, frec 9, ([] : List FaultRec), ({ frec 7 with slot := true } : FaultRec), faulted0, by decide⟩⟩

theorem wit_FqConsWrite :
    (∃ (s : State) (v : W64), awake s.dev 13 = true ∧ (v.toNat % 2 ^ 32 + 2 ^ 32 - fld s.dev fFqCons) % 2 ^ 32 ≤ (fld s.dev fFqProd + 2 ^ 32 - fld s.dev fFqCons) % 2 ^ 32) ∧
    (∃ (s : State) (v : W64), awake s.dev 13 = true ∧ (fld s.dev fFqProd + 2 ^ 32 - fld s.dev fFqCons) % 2 ^ 32 < (v.toNat % 2 ^ 32 + 2 ^ 32 - fld s.dev fFqCons) % 2 ^ 32) :=
  ⟨⟨st (fs up [(fFqProd, 3)]), 3, by decide⟩,
   ⟨st (fs up [(fFqProd, 3)]), 4, by decide⟩⟩

theorem wit_PendingMove :
    (∃ (s : State), awake s.dev 13 = true ∧ (s.dev.scu.pendList = [] ∨ fqFull s.dev = true)) ∧
    (∃ (s : State) (b : _) (bs : _) (r : _), awake s.dev 13 = true ∧ s.dev.scu.pendList = b :: bs ∧ fqFull s.dev = false ∧ tfind s.dev.scu.slots b = some r) :=
  ⟨⟨st up, by decide⟩,
   ⟨st (slotD home), 5, ([] : List Nat), ({ frec 9 with slot := true } : FaultRec), by decide⟩⟩

theorem wit_FaultCommands :
    (∃ (s : State) (i : Nat) (o : Option FaultRec), awake s.dev 13 = true ∧ i = fld s.dev fFqSelIndex ∧ (o = (if flag s.dev fFqSelSrc then tfind s.dev.scu.slots i else if i < 4096 then tfind s.dev.scu.queue i else none)) ∧ o = none) ∧
    (∃ (s : State) (a : MemResp) (b : MemResp) (i : Nat) (o : Option FaultRec) (r : _), awake s.dev 13 = true ∧ i = fld s.dev fFqSelIndex ∧ (o = (if flag s.dev fFqSelSrc then tfind s.dev.scu.slots i else if i < 4096 then tfind s.dev.scu.queue i else none)) ∧ o = some r ∧ a ≠ .ok ∧ b ≠ .ok) ∧
    (∃ (s : State) (a : MemResp) (b : MemResp) (i : Nat) (o : Option FaultRec) (r : _) (n : _), awake s.dev 13 = true ∧ i = fld s.dev fFqSelIndex ∧ (o = (if flag s.dev fFqSelSrc then tfind s.dev.scu.slots i else if i < 4096 then tfind s.dev.scu.queue i else none)) ∧ o = some r ∧ (a = .ok ∨ b = .ok) ∧ n < 32) ∧
    (∃ (s : State) (i : Nat) (o : Option FaultRec), awake s.dev 13 = true ∧ i = fld s.dev fFqSelIndex ∧ (o = (if flag s.dev fFqSelSrc then tfind s.dev.scu.slots i else if i < 4096 then tfind s.dev.scu.queue i else none)) ∧ flag s.dev fFqSelSrc = false) ∧
    (∃ (s : State) (i : Nat) (o : Option FaultRec), awake s.dev 13 = true ∧ i = fld s.dev fFqSelIndex ∧ (o = (if flag s.dev fFqSelSrc then tfind s.dev.scu.slots i else if i < 4096 then tfind s.dev.scu.queue i else none)) ∧ flag s.dev fFqSelSrc = true ∧ o = none) ∧
    (∃ (s : State) (i : Nat) (o : Option FaultRec) (r : _), awake s.dev 13 = true ∧ i = fld s.dev fFqSelIndex ∧ (o = (if flag s.dev fFqSelSrc then tfind s.dev.scu.slots i else if i < 4096 then tfind s.dev.scu.queue i else none)) ∧ flag s.dev fFqSelSrc = true ∧ o = some r) ∧
    (∃ (s : State) (v : W64) (i : Nat) (o : Option FaultRec), awake s.dev 13 = true ∧ i = fld s.dev fFqSelIndex ∧ (o = (if flag s.dev fFqSelSrc then tfind s.dev.scu.slots i else if i < 4096 then tfind s.dev.scu.queue i else none)) ∧ ((∀ e ∈ s.dev.scu.slots, e.1 < v.toNat % 2 ^ 22))) ∧
    (∃ (s : State) (v : W64) (i : Nat) (o : Option FaultRec) (e : _), awake s.dev 13 = true ∧ i = fld s.dev fFqSelIndex ∧ (o = (if flag s.dev fFqSelSrc then tfind s.dev.scu.slots i else if i < 4096 then tfind s.dev.scu.queue i else none)) ∧ (s.dev.scu.slots.find? (fun e => v.toNat % 2 ^ 22 ≤ e.1) = some e) ∧ e.1 < 2 ^ 22) :=
  ⟨⟨st up, fld ((st up) : State).dev fFqSelIndex, (if flag ((st up) : State).dev fFqSelSrc then tfind ((st up) : State).dev.scu.slots ((fld ((st up) : State).dev fFqSelIndex) : Nat) else if ((fld ((st up) : State).dev fFqSelIndex) : Nat) < 4096 then tfind ((st up) : State).dev.scu.queue ((fld ((st up) : State).dev fFqSelIndex) : Nat) else none), by decide⟩,
   ⟨st (fs (slotD home) [(fFqSelSrc, 1), (fFqSelIndex, 5)]), .poison, .access, fld ((st (fs (slotD home) [(fFqSelSrc, 1), (fFqSelIndex, 5)])) : State).dev fFqSelIndex, (if flag ((st (fs (slotD home) [(fFqSelSrc, 1), (fFqSelIndex, 5)])) : State).dev fFqSelSrc then tfind ((st (fs (slotD home) [(fFqSelSrc, 1), (fFqSelIndex, 5)])) : State).dev.scu.slots ((fld ((st (fs (slotD home) [(fFqSelSrc, 1), (fFqSelIndex, 5)])) : State).dev fFqSelIndex) : Nat) else if ((fld ((st (fs (slotD home) [(fFqSelSrc, 1), (fFqSelIndex, 5)])) : State).dev fFqSelIndex) : Nat) < 4096 then tfind ((st (fs (slotD home) [(fFqSelSrc, 1), (fFqSelIndex, 5)])) : State).dev.scu.queue ((fld ((st (fs (slotD home) [(fFqSelSrc, 1), (fFqSelIndex, 5)])) : State).dev fFqSelIndex) : Nat) else none), { frec 9 with slot := true }, by decide⟩,
   ⟨st (fs (slotD home) [(fFqSelSrc, 1), (fFqSelIndex, 5)]), .poison, .ok, fld ((st (fs (slotD home) [(fFqSelSrc, 1), (fFqSelIndex, 5)])) : State).dev fFqSelIndex, (if flag ((st (fs (slotD home) [(fFqSelSrc, 1), (fFqSelIndex, 5)])) : State).dev fFqSelSrc then tfind ((st (fs (slotD home) [(fFqSelSrc, 1), (fFqSelIndex, 5)])) : State).dev.scu.slots ((fld ((st (fs (slotD home) [(fFqSelSrc, 1), (fFqSelIndex, 5)])) : State).dev fFqSelIndex) : Nat) else if ((fld ((st (fs (slotD home) [(fFqSelSrc, 1), (fFqSelIndex, 5)])) : State).dev fFqSelIndex) : Nat) < 4096 then tfind ((st (fs (slotD home) [(fFqSelSrc, 1), (fFqSelIndex, 5)])) : State).dev.scu.queue ((fld ((st (fs (slotD home) [(fFqSelSrc, 1), (fFqSelIndex, 5)])) : State).dev fFqSelIndex) : Nat) else none), { frec 9 with slot := true }, 31, by decide⟩,
   ⟨st (fs (slotD home) [(fFqSelSrc, 0), (fFqSelIndex, 5)]), fld ((st (fs (slotD home) [(fFqSelSrc, 0), (fFqSelIndex, 5)])) : State).dev fFqSelIndex, (if flag ((st (fs (slotD home) [(fFqSelSrc, 0), (fFqSelIndex, 5)])) : State).dev fFqSelSrc then tfind ((st (fs (slotD home) [(fFqSelSrc, 0), (fFqSelIndex, 5)])) : State).dev.scu.slots ((fld ((st (fs (slotD home) [(fFqSelSrc, 0), (fFqSelIndex, 5)])) : State).dev fFqSelIndex) : Nat) else if ((fld ((st (fs (slotD home) [(fFqSelSrc, 0), (fFqSelIndex, 5)])) : State).dev fFqSelIndex) : Nat) < 4096 then tfind ((st (fs (slotD home) [(fFqSelSrc, 0), (fFqSelIndex, 5)])) : State).dev.scu.queue ((fld ((st (fs (slotD home) [(fFqSelSrc, 0), (fFqSelIndex, 5)])) : State).dev fFqSelIndex) : Nat) else none), by decide⟩,
   ⟨st (fs (slotD home) [(fFqSelSrc, 1), (fFqSelIndex, 6)]), fld ((st (fs (slotD home) [(fFqSelSrc, 1), (fFqSelIndex, 6)])) : State).dev fFqSelIndex, (if flag ((st (fs (slotD home) [(fFqSelSrc, 1), (fFqSelIndex, 6)])) : State).dev fFqSelSrc then tfind ((st (fs (slotD home) [(fFqSelSrc, 1), (fFqSelIndex, 6)])) : State).dev.scu.slots ((fld ((st (fs (slotD home) [(fFqSelSrc, 1), (fFqSelIndex, 6)])) : State).dev fFqSelIndex) : Nat) else if ((fld ((st (fs (slotD home) [(fFqSelSrc, 1), (fFqSelIndex, 6)])) : State).dev fFqSelIndex) : Nat) < 4096 then tfind ((st (fs (slotD home) [(fFqSelSrc, 1), (fFqSelIndex, 6)])) : State).dev.scu.queue ((fld ((st (fs (slotD home) [(fFqSelSrc, 1), (fFqSelIndex, 6)])) : State).dev fFqSelIndex) : Nat) else none), by decide⟩,
   ⟨st (fs (slotD home) [(fFqSelSrc, 1), (fFqSelIndex, 5)]), fld ((st (fs (slotD home) [(fFqSelSrc, 1), (fFqSelIndex, 5)])) : State).dev fFqSelIndex, (if flag ((st (fs (slotD home) [(fFqSelSrc, 1), (fFqSelIndex, 5)])) : State).dev fFqSelSrc then tfind ((st (fs (slotD home) [(fFqSelSrc, 1), (fFqSelIndex, 5)])) : State).dev.scu.slots ((fld ((st (fs (slotD home) [(fFqSelSrc, 1), (fFqSelIndex, 5)])) : State).dev fFqSelIndex) : Nat) else if ((fld ((st (fs (slotD home) [(fFqSelSrc, 1), (fFqSelIndex, 5)])) : State).dev fFqSelIndex) : Nat) < 4096 then tfind ((st (fs (slotD home) [(fFqSelSrc, 1), (fFqSelIndex, 5)])) : State).dev.scu.queue ((fld ((st (fs (slotD home) [(fFqSelSrc, 1), (fFqSelIndex, 5)])) : State).dev fFqSelIndex) : Nat) else none), { frec 9 with slot := true }, by decide⟩,
   ⟨st (slotD home), 6, fld ((st (slotD home)) : State).dev fFqSelIndex, (if flag ((st (slotD home)) : State).dev fFqSelSrc then tfind ((st (slotD home)) : State).dev.scu.slots ((fld ((st (slotD home)) : State).dev fFqSelIndex) : Nat) else if ((fld ((st (slotD home)) : State).dev fFqSelIndex) : Nat) < 4096 then tfind ((st (slotD home)) : State).dev.scu.queue ((fld ((st (slotD home)) : State).dev fFqSelIndex) : Nat) else none), by decide⟩,
   ⟨st (slotD home), 5, fld ((st (slotD home)) : State).dev fFqSelIndex, (if flag ((st (slotD home)) : State).dev fFqSelSrc then tfind ((st (slotD home)) : State).dev.scu.slots ((fld ((st (slotD home)) : State).dev fFqSelIndex) : Nat) else if ((fld ((st (slotD home)) : State).dev fFqSelIndex) : Nat) < 4096 then tfind ((st (slotD home)) : State).dev.scu.queue ((fld ((st (slotD home)) : State).dev fFqSelIndex) : Nat) else none), (5, ({ frec 9 with slot := true } : FaultRec)), by decide⟩⟩

theorem wit_MachineCheck :
    (∃ (s : State) (page : BitVec 8), (pageKind page.toNat = .reserved ∨ inReset s.dev (pageUnit page.toNat) = true)) ∧
    (∃ (s : State) (page : BitVec 8) (code : BitVec 8), pageKind page.toNat ≠ .reserved ∧ awake s.dev (pageUnit page.toNat) = true ∧ pageKind page.toNat ≠ .tsq ∧ code.toNat ∉ [0x10, 0x20, 0x21, 0x22, 0x23]) ∧
    (∃ (s : State) (page : BitVec 8) (code : BitVec 8), pageKind page.toNat ≠ .reserved ∧ awake s.dev (pageUnit page.toNat) = true ∧ (code = 0x20 ∨ code = 0x10) ∧ flag s.dev fMcValid = false ∧ code = 0x20) ∧
    (∃ (s : State) (page : BitVec 8) (code : BitVec 8), pageKind page.toNat ≠ .reserved ∧ awake s.dev (pageUnit page.toNat) = true ∧ (code = 0x20 ∨ code = 0x10) ∧ flag s.dev fMcValid = false ∧ code = 0x10 ∧ s.dev.scu.rst = .none) ∧
    (∃ (s : State) (page : BitVec 8) (code : BitVec 8), pageKind page.toNat ≠ .reserved ∧ awake s.dev (pageUnit page.toNat) = true ∧ code = 0x20 ∧ flag s.dev fMcValid = true) :=
  ⟨⟨st {}, 2, by decide⟩,
   ⟨st up, 2, 0x30, by decide⟩,
   ⟨st up, 2, 0x20, by decide⟩,
   ⟨st up, 2, 0x10, by decide⟩,
   ⟨st (fs up [(fMcValid, 1), (fMcCode, 0x10)]), 2, 0x20, by decide⟩⟩

theorem wit_CoherenceSend :
    (∃ (s : State) (x : BitVec 4), 12 ≤ x.toNat) ∧
    (∃ (s : State) (x : BitVec 4) (l : BitVec 48) (be : BitVec 64) (data : Line) (op : AtmOp) (i : _), x.toNat < 12 ∧ awake s.dev (agentUnit x.toNat) = true ∧ cohLine s.dev l.toNat = false ∧ i ∈ [Instr.rds x l .send, .rdx x l .send, .upg x l .send, .wb x l .send, .evc x l .send, .wrpart x l be data .send, .atm x l op .send]) ∧
    (∃ (s : State) (x : BitVec 4) (l : BitVec 48) (v : Line), x.toNat < 12 ∧ agentRuns s.dev x.toNat ∧ cohLine s.dev l.toNat = true ∧ v = lineData s.dev x.toNat l.toNat ∧ lineSt s.dev x.toNat l.toNat = .i ∧ cacheFull s.dev x.toNat = false ∧ 8 ≤ x.toNat) ∧
    (∃ (s : State) (x : BitVec 4) (l : BitVec 48) (v : Line), x.toNat < 12 ∧ agentRuns s.dev x.toNat ∧ cohLine s.dev l.toNat = true ∧ v = lineData s.dev x.toNat l.toNat ∧ lineSt s.dev x.toNat l.toNat ≠ .i) ∧
    (∃ (s : State) (x : BitVec 4) (l : BitVec 48) (v : Line), x.toNat < 12 ∧ agentRuns s.dev x.toNat ∧ cohLine s.dev l.toNat = true ∧ v = lineData s.dev x.toNat l.toNat ∧ x.toNat < 8) ∧
    (∃ (s : State) (x : BitVec 4) (l : BitVec 48) (v : Line), x.toNat < 12 ∧ agentRuns s.dev x.toNat ∧ cohLine s.dev l.toNat = true ∧ v = lineData s.dev x.toNat l.toNat ∧ 8 ≤ x.toNat ∧ (lineSt s.dev x.toNat l.toNat = .s ∨ lineSt s.dev x.toNat l.toNat = .f)) ∧
    (∃ (s : State) (x : BitVec 4) (l : BitVec 48) (v : Line), x.toNat < 12 ∧ agentRuns s.dev x.toNat ∧ cohLine s.dev l.toNat = true ∧ v = lineData s.dev x.toNat l.toNat ∧ 8 ≤ x.toNat ∧ lineSt s.dev x.toNat l.toNat = .c) ∧
    (∃ (s : State) (x : BitVec 4) (l : BitVec 48) (v : Line), x.toNat < 12 ∧ agentRuns s.dev x.toNat ∧ cohLine s.dev l.toNat = true ∧ v = lineData s.dev x.toNat l.toNat ∧ lineSt s.dev x.toNat l.toNat = .d) ∧
    (∃ (s : State) (x : BitVec 4) (l : BitVec 48) (v : Line), x.toNat < 12 ∧ agentRuns s.dev x.toNat ∧ cohLine s.dev l.toNat = true ∧ v = lineData s.dev x.toNat l.toNat ∧ (lineSt s.dev x.toNat l.toNat = .s ∨ lineSt s.dev x.toNat l.toNat = .f ∨ lineSt s.dev x.toNat l.toNat = .c)) :=
  ⟨⟨st up, 12, by decide⟩,
   ⟨st up, 11, 0x681, 0, 0, .add 0 1, .evc 11 0x681 .send, by decide⟩,
   ⟨st up, 11, 0x680, lineData ((st up) : State).dev ((11) : BitVec 4).toNat ((0x680) : BitVec 48).toNat, by simp only [agentRuns]; decide⟩,
   ⟨st (lineD 8 .s), 8, 0x680, lineData ((st (lineD 8 .s)) : State).dev ((8) : BitVec 4).toNat ((0x680) : BitVec 48).toNat, by simp only [agentRuns]; decide⟩,
   ⟨st (lineD 0 .s), 0, 0x680, lineData ((st (lineD 0 .s)) : State).dev ((0) : BitVec 4).toNat ((0x680) : BitVec 48).toNat, by simp only [agentRuns]; decide⟩,
   ⟨st (lineD 8 .f), 8, 0x680, lineData ((st (lineD 8 .f)) : State).dev ((8) : BitVec 4).toNat ((0x680) : BitVec 48).toNat, by simp only [agentRuns]; decide⟩,
   ⟨st (lineD 8 .c), 8, 0x680, lineData ((st (lineD 8 .c)) : State).dev ((8) : BitVec 4).toNat ((0x680) : BitVec 48).toNat, by simp only [agentRuns]; decide⟩,
   ⟨st (lineD 8 .d), 8, 0x680, lineData ((st (lineD 8 .d)) : State).dev ((8) : BitVec 4).toNat ((0x680) : BitVec 48).toNat, by simp only [agentRuns]; decide⟩,
   ⟨st (lineD 0 .c), 0, 0x680, lineData ((st (lineD 0 .c)) : State).dev ((0) : BitVec 4).toNat ((0x680) : BitVec 48).toNat, by simp only [agentRuns]; decide⟩⟩

theorem wit_CoherenceGrant :
    (∃ (s : State) (x : BitVec 4) (l : BitVec 48) (i : _) (q : _) (r : _), (i, q) ∈ [(Instr.rds x l .grant, CReq.rds), (.rdx x l .grant, .rdx), (.upg x l .grant, .upg)] ∧ grantTurn s.dev x.toNat l.toNat q ∧ lineRec s.dev.scu.cfg l.toNat = some r ∧ onChip s.dev r = false) ∧
    (∃ (s : State) (x : BitVec 4) (l : BitVec 48) (r : _) (be : _) (v : _), grantTurn s.dev x.toNat l.toNat (.wrpart be v) ∧ lineRec s.dev.scu.cfg l.toNat = some r ∧ onChip s.dev r = false) ∧
    (∃ (s : State) (x : BitVec 4) (l : BitVec 48), grantTurn s.dev x.toNat l.toNat .rds ∧ recHere s.dev l.toNat ∧ dirOf s.dev l.toNat = none) ∧
    (∃ (s : State) (x : BitVec 4) (l : BitVec 48) (y : _), grantTurn s.dev x.toNat l.toNat .rds ∧ recHere s.dev l.toNat ∧ dirOf s.dev l.toNat = some (.owner y)) ∧
    (∃ (s : State) (x : BitVec 4) (l : BitVec 48) (y : _) (ys : _), grantTurn s.dev x.toNat l.toNat .rds ∧ recHere s.dev l.toNat ∧ dirOf s.dev l.toNat = some (.shared (y :: ys))) ∧
    (∃ (s : State) (x : BitVec 4) (l : BitVec 48), grantTurn s.dev x.toNat l.toNat .rdx ∧ recHere s.dev l.toNat ∧ dirOf s.dev l.toNat = none) ∧
    (∃ (s : State) (x : BitVec 4) (l : BitVec 48), grantTurn s.dev x.toNat l.toNat .upg ∧ recHere s.dev l.toNat ∧ dirOf s.dev l.toNat = some (.sharedF x.toNat [])) ∧
    (∃ (s : State) (x : BitVec 4) (l : BitVec 48) (v : _), grantTurn s.dev x.toNat l.toNat (.wb v) ∧ lineRec s.dev.scu.cfg l.toNat = none ∧ copyOpen s.dev l.toNat = false) ∧
    (∃ (s : State) (x : BitVec 4) (l : BitVec 48) (v : _), grantTurn s.dev x.toNat l.toNat (.wb v) ∧ copyOpen s.dev l.toNat = true ∧ dirOf s.dev l.toNat = some (.owner x.toNat)) ∧
    (∃ (s : State) (x : BitVec 4) (l : BitVec 48) (v : _), grantTurn s.dev x.toNat l.toNat (.wb v) ∧ copyOpen s.dev l.toNat = true ∧ dirOf s.dev l.toNat ≠ some (.owner x.toNat)) ∧
    (∃ (s : State) (x : BitVec 4) (l : BitVec 48), grantTurn s.dev x.toNat l.toNat .evc ∧ dirOf s.dev l.toNat = some (.owner x.toNat)) ∧
    (∃ (s : State) (x : BitVec 4) (l : BitVec 48) (be : _) (v : _), grantTurn s.dev x.toNat l.toNat (.wrpart be v) ∧ recHere s.dev l.toNat ∧ dirOf s.dev l.toNat = none ∧ manAt s.dev l.toNat = none ∧ lineRec s.dev.scu.cfg l.toNat = none) ∧
    (∃ (s : State) (x : BitVec 4) (l : BitVec 48) (op : _), grantTurn s.dev x.toNat l.toNat (.atm op) ∧ dirOf s.dev l.toNat = none ∧ lineOnChip s.dev l.toNat = true) ∧
    (∃ (s : State) (x : BitVec 4) (l : BitVec 48) (op : _), grantTurn s.dev x.toNat l.toNat (.atm op) ∧ dirOf s.dev l.toNat = none ∧ lineOnChip s.dev l.toNat = false) :=
  ⟨⟨st (spill (reqD 11 .rdx)), 11, 0x680, (Instr.rdx 11 0x680 .grant), CReq.rdx, rCtx 3, by simp only [grantTurn]; decide⟩,
   ⟨st (spill (reqD 0 (.wrpart 1 7))), 0, 0x680, rCtx 3, 1, 7, by simp only [grantTurn]; decide⟩,
   ⟨st (reqD 11 .rds), 11, 0x680, by simp only [grantTurn, recHere]; decide⟩,
   ⟨st (reqD 8 .rds (some (.owner 9))), 8, 0x680, 9, by simp only [grantTurn, recHere]; decide⟩,
   ⟨st (reqD 8 .rds (some (.shared [9]))), 8, 0x680, 9, ([] : List Nat), by simp only [grantTurn, recHere]; decide⟩,
   ⟨st (reqD 8 .rdx), 8, 0x680, by simp only [grantTurn, recHere]; decide⟩,
   ⟨st (reqD 8 .upg (some (.sharedF 8 []))), 8, 0x680, by simp only [grantTurn, recHere]; decide⟩,
   ⟨st (manReq 8 (.wb 7)), 8, 0x98000000, 7, by simp only [grantTurn]; decide⟩,
   ⟨st (reqD 8 (.wb 7) (some (.owner 8))), 8, 0x680, 7, by simp only [grantTurn]; decide⟩,
   ⟨st (reqD 8 (.wb 7) (some (.owner 9))), 8, 0x680, 7, by simp only [grantTurn]; decide⟩,
   ⟨st (reqD 8 .evc (some (.owner 8))), 8, 0x680, by simp only [grantTurn]; decide⟩,
   ⟨st { reqD 0 (.wrpart 1 7) with coh := { queue := [(0x98000000, 0, .wrpart 1 7)] } }, 0, 0x98000000, 1, 7, by simp only [grantTurn, recHere]; decide⟩,
   ⟨st (reqD 0 (.atm (.add 0 1))), 0, 0x680, .add 0 1, by simp only [grantTurn]; decide⟩,
   ⟨st (spill (reqD 0 (.atm (.add 0 1)))), 0, 0x680, .add 0 1, by simp only [grantTurn]; decide⟩⟩

theorem wit_AtomicOperations : ∃ (j : Nat), j < 8 :=
  ⟨7, by decide⟩

theorem wit_PartialWrite : ∃ (i : Nat), i < 64 :=
  ⟨63, by decide⟩

theorem wit_HomeAnswers :
    (∃ (s : State) (x : BitVec 4), awake s.dev 2 = true ∧ x.toNat < 12 ∧ s.dev.coh.answers = []) ∧
    (∃ (s : State) (x : BitVec 4), awake s.dev 2 = true ∧ x.toNat < 12 ∧ s.dev.coh.dones = []) ∧
    (∃ (s : State) (x : BitVec 4) (l : BitVec 48) (a : _) (rest : _), awake s.dev 2 = true ∧ x.toNat < 12 ∧ (takeFirst (fun e => e.1 = x.toNat) s.dev.coh.answers = some (a, rest)) ∧ a.2.1 ≠ l.toNat) ∧
    (∃ (s : State) (x : BitVec 4) (l : BitVec 48) (b : _) (z : _) (v : _), awake s.dev 2 = true ∧ x.toNat < 12 ∧ tfind s.dev.coh.busy l.toNat = some b ∧ b.req = .rds ∧ b.agent = z ∧ z < 12 ∧ b.await = [x.toNat] ∧ dirOf s.dev l.toNat = some (.owner x.toNat) ∧ s.dev.coh.answers = [(x.toNat, l.toNat, some v, false)] ∧ copyOpen s.dev l.toNat = true) ∧
    (∃ (s : State) (x : BitVec 4) (l : BitVec 48) (b : _) (o : _) (miss : _), awake s.dev 2 = true ∧ x.toNat < 12 ∧ tfind s.dev.coh.busy l.toNat = some b ∧ b.req = .push ∧ s.dev.coh.answers = [(x.toNat, l.toNat, o, miss)] ∧ s.dev.coh.queue = [] ∧ miss = false) ∧
    (∃ (s : State) (x : BitVec 4) (l : BitVec 48) (b : _) (o : _) (miss : _), awake s.dev 2 = true ∧ x.toNat < 12 ∧ tfind s.dev.coh.busy l.toNat = some b ∧ b.req = .push ∧ s.dev.coh.answers = [(x.toNat, l.toNat, o, miss)] ∧ s.dev.coh.queue = [] ∧ miss = true) ∧
    (∃ (s : State) (x : BitVec 4) (l : BitVec 48) (b : _), awake s.dev 2 = true ∧ x.toNat < 12 ∧ tfind s.dev.coh.busy l.toNat = some b ∧ b.granted = true ∧ b.agent = x.toNat ∧ s.dev.coh.dones = [(x.toNat, l.toNat)] ∧ s.dev.coh.queue = []) :=
  ⟨⟨st up, 11, by decide⟩,
   ⟨st up, 11, by decide⟩,
   ⟨st (busyD rdsBusy [] [(8, 0x680, some 7, false)]), 8, 0x6C0, ((8, 0x680, some 7, false) : Nat × Nat × Option Line × Bool), ([] : List (Nat × Nat × Option Line × Bool)), by exact ⟨by decide, by decide, rfl, by decide⟩⟩,
   ⟨st (busyD rdsBusy [(0x680, .owner 8)] [(8, 0x680, some 7, false)]), 8, 0x680, rdsBusy, 9, 7, by decide⟩,
   ⟨st (busyD pushBusy [] [(8, 0x680, none, false)]), 8, 0x680, pushBusy, (none : Option Line), false, by decide⟩,
   ⟨st (busyD pushBusy [] [(8, 0x680, none, true)]), 8, 0x680, pushBusy, (none : Option Line), true, by decide⟩,
   ⟨st { up with coh := { busy := [(0x680, { rdsBusy with granted := true })], dones := [(9, 0x680)] } }, 9, 0x680, ({ rdsBusy with granted := true } : Busy), by decide⟩⟩

theorem wit_AgentMessages :
    (∃ (s : State) (x : BitVec 4) (l : BitVec 48) (i : Instr) (evs : List CohEv) (rsp : Bool) (m : CMsg) (rest : List CMsg), x.toNat < 12 ∧ awake s.dev (agentUnit x.toNat) = true ∧ (i, evs, rsp) ∈ msgRows x l ∧ (takeFirst (fun (m : CMsg) => m.dst = x.toNat && isRsp m.ev = rsp) s.dev.coh.msgs = some (m, rest)) ∧ (m.ev ∉ evs ∨ m.line ≠ l.toNat)) ∧
    (∃ (s : State) (x : BitVec 4) (l : BitVec 48) (i : Instr) (evs : List CohEv) (rsp : Bool) (m : CMsg) (rest : List CMsg) (a : _), x.toNat < 12 ∧ awake s.dev (agentUnit x.toNat) = true ∧ (i, evs, rsp) ∈ msgRows x l ∧ (takeFirst (fun (m : CMsg) => m.dst = x.toNat && isRsp m.ev = rsp) s.dev.coh.msgs = some (m, rest)) ∧ m.ev ∈ evs ∧ m.line = l.toNat ∧ agentTable (cacheFull s.dev x.toNat) m.ev (lineSt s.dev x.toNat l.toNat) = some a ∧ a.st.keeps = true) ∧
    (∃ (s : State) (x : BitVec 4) (l : BitVec 48) (i : Instr) (evs : List CohEv) (rsp : Bool) (m : CMsg) (rest : List CMsg) (a : _), x.toNat < 12 ∧ awake s.dev (agentUnit x.toNat) = true ∧ (i, evs, rsp) ∈ msgRows x l ∧ (takeFirst (fun (m : CMsg) => m.dst = x.toNat && isRsp m.ev = rsp) s.dev.coh.msgs = some (m, rest)) ∧ m.ev ∈ evs ∧ m.line = l.toNat ∧ agentTable (cacheFull s.dev x.toNat) m.ev (lineSt s.dev x.toNat l.toNat) = some a ∧ (a.st = .c ∨ a.st = .d)) ∧
    (∃ (s : State) (x : BitVec 4) (l : BitVec 48) (i : Instr) (evs : List CohEv) (rsp : Bool) (m : CMsg) (rest : List CMsg), x.toNat < 12 ∧ awake s.dev (agentUnit x.toNat) = true ∧ (i, evs, rsp) ∈ msgRows x l ∧ (takeFirst (fun (m : CMsg) => m.dst = x.toNat && isRsp m.ev = rsp) s.dev.coh.msgs = some (m, rest)) ∧ m.ev ∈ evs ∧ m.line = l.toNat ∧ agentTable (cacheFull s.dev x.toNat) m.ev (lineSt s.dev x.toNat l.toNat) = none ∧ flag s.dev (fErrValid (agentPage x.toNat)) = false ∧ s.dev.scu.rst = .none) :=
  ⟨⟨st (msgD .snpX .d), 8, 0x680, .snps 8 0x680, [.snpS], false, ⟨8, 0x680, .snpX, 7⟩, ([] : List CMsg), by decide⟩,
   ⟨st (msgD .snpS .d), 8, 0x680, .snps 8 0x680, [.snpS], false, ⟨8, 0x680, .snpS, 7⟩, ([] : List CMsg), ({ st := .f, answer := some (true, false) } : AgentStep), by decide⟩,
   ⟨st (msgD .dataD .sx), 8, 0x680, .dataGrant 8 0x680, [.dataC, .dataF, .dataS, .dataD], true, ⟨8, 0x680, .dataD, 7⟩, ([] : List CMsg), ({ st := .d, done := true, keep := false } : AgentStep), by decide⟩,
   ⟨st (msgD .cmp .d), 8, 0x680, .cmp 8 0x680, [.cmp], true, ⟨8, 0x680, .cmp, 7⟩, ([] : List CMsg), by decide⟩⟩

theorem wit_PilotAnswers :
    (∃ (s : State) (x : BitVec 4), x.toNat < 12 ∧ awake s.dev (agentUnit x.toNat) = true ∧ s.dev.coh.wrCmp = []) ∧
    (∃ (s : State) (x : BitVec 4), x.toNat < 12 ∧ awake s.dev (agentUnit x.toNat) = true ∧ s.dev.coh.atmRsp = []) ∧
    (∃ (s : State) (x : BitVec 4) (l : BitVec 48) (a : _) (rest : _), x.toNat < 12 ∧ awake s.dev (agentUnit x.toNat) = true ∧ (takeFirst (fun e => e.1 = x.toNat) s.dev.coh.wrCmp = some (a, rest)) ∧ a.2.1 ≠ l.toNat) ∧
    (∃ (s : State) (x : BitVec 4) (l : BitVec 48) (held : _), x.toNat < 12 ∧ awake s.dev (agentUnit x.toNat) = true ∧ s.dev.coh.wrCmp = [(x.toNat, l.toNat, held)] ∧ held = true) ∧
    (∃ (s : State) (x : BitVec 4) (l : BitVec 48) (held : _), x.toNat < 12 ∧ awake s.dev (agentUnit x.toNat) = true ∧ s.dev.coh.wrCmp = [(x.toNat, l.toNat, held)] ∧ held = false) ∧
    (∃ (s : State) (x : BitVec 4) (l : BitVec 48) (w : _), x.toNat < 12 ∧ awake s.dev (agentUnit x.toNat) = true ∧ s.dev.coh.atmRsp = [(x.toNat, l.toNat, w)] ∧ lineBusy s.dev l.toNat = false) ∧
    (∃ (s : State) (x : BitVec 4) (l : BitVec 48) (resp : MemResp) (w : _) (b : _) (op : _), x.toNat < 12 ∧ awake s.dev (agentUnit x.toNat) = true ∧ s.dev.coh.atmRsp = [(x.toNat, l.toNat, w)] ∧ tfind s.dev.coh.busy l.toNat = some b ∧ b.req = .atm op ∧ b.granted = true ∧ s.dev.coh.queue = [] ∧ resp = .ok) ∧
    (∃ (s : State) (x : BitVec 4) (l : BitVec 48) (resp : MemResp) (w : _) (b : _) (op : _), x.toNat < 12 ∧ awake s.dev (agentUnit x.toNat) = true ∧ s.dev.coh.atmRsp = [(x.toNat, l.toNat, w)] ∧ tfind s.dev.coh.busy l.toNat = some b ∧ b.req = .atm op ∧ b.granted = true ∧ s.dev.coh.queue = [] ∧ resp ≠ .ok ∧ flag s.dev (fErrValid 2) = false) :=
  ⟨⟨st up, 0, by decide⟩,
   ⟨st up, 0, by decide⟩,
   ⟨st (wrD true), 0, 0x6C0, ((0, 0x680, true) : Nat × Nat × Bool), ([] : List (Nat × Nat × Bool)), by decide⟩,
   ⟨st (wrD true), 0, 0x680, true, by decide⟩,
   ⟨st (wrD false), 0, 0x680, false, by decide⟩,
   ⟨st { up with coh := { atmRsp := [(0, 3, 7)] } }, 0, 3, 7, by decide⟩,
   ⟨st atmBusy, 0, 0x680, .ok, 7, ({ agent := 0, req := .atm (.add 0 1), await := [], granted := true } : Busy), AtmOp.add 0 1, by decide⟩,
   ⟨st atmBusy, 0, 0x680, .poison, 7, ({ agent := 0, req := .atm (.add 0 1), await := [], granted := true } : Busy), AtmOp.add 0 1, by decide⟩⟩

theorem wit_ProtocolError :
    (∃ (s : State) (m : CohMsg), 12 ≤ m.dst.toNat) ∧
    (∃ (s : State) (m : CohMsg), m.dst.toNat < 12 ∧ awake s.dev (agentUnit m.dst.toNat) = true ∧ (agentTable (cacheFull s.dev m.dst.toNat) m.ev (lineSt s.dev m.dst.toNat m.line.toNat)).isSome = true) ∧
    (∃ (s : State) (m : CohMsg), m.dst.toNat < 12 ∧ awake s.dev (agentUnit m.dst.toNat) = true ∧ agentTable (cacheFull s.dev m.dst.toNat) m.ev (lineSt s.dev m.dst.toNat m.line.toNat) = none ∧ flag s.dev (fErrValid (agentPage m.dst.toNat)) = false ∧ s.dev.scu.rst = .none) :=
  ⟨⟨st up, ⟨12, 3, .snpS⟩, by decide⟩,
   ⟨st (lineD 8 .d), ⟨8, 3, .snpS⟩, by decide⟩,
   ⟨st (lineD 8 .d), ⟨8, 3, .cmp⟩, by decide⟩⟩

theorem wit_SourceRise :
    (∃ (s : State) (n : BitVec 7) (m : _), awake s.dev 13 = true ∧ srcLevel s.dev n.toNat = true ∧ levelSeen s.dev n.toNat = false ∧ m < 128 ∧ m ≠ n.toNat) ∧
    (∃ (s : State) (n : BitVec 7), awake s.dev 13 = true ∧ (srcLevel s.dev n.toNat = false ∨ levelSeen s.dev n.toNat = true)) :=
  ⟨⟨st lev0, 0, 5, by decide⟩,
   ⟨st up, 0, by decide⟩⟩

theorem wit_MsixDelivery :
    (∃ (s : State), awake s.dev 13 = true ∧ (deliveryOn s.dev = false ∨ s.dev.scu.crossing ≠ none ∨ (∀ n, n < 128 → eligible s.dev n = false))) ∧
    (∃ (s : State) (n : _) (m : _), awake s.dev 13 = true ∧ deliveryOn s.dev = true ∧ s.dev.scu.crossing = none ∧ n < 128 ∧ eligible s.dev n = true ∧ ((∀ m, m < n → eligible s.dev m = false)) ∧ m < 128 ∧ m ≠ n) :=
  ⟨⟨st up, by decide⟩,
   ⟨st (pendD 40 []), 40, 41, by decide⟩⟩

theorem wit_MsixSend :
    (∃ (s : State), awake s.dev 1 = true ∧ s.dev.scu.crossing = none) ∧
    (∃ (s : State) (n : _), awake s.dev 1 = true ∧ s.dev.scu.crossing = some n ∧ n < 128) :=
  ⟨⟨st up, by decide⟩,
   ⟨st { up with scu := { up.scu with crossing := some 127 } }, 127, by decide⟩⟩

theorem wit_Batches :
    (∃ (s : State) (g : BitVec 4), awake s.dev 13 = true ∧ s.dev.scu.holdoff.length = 16 ∧ ((∀ i, i < 8 → marked s.dev (8 * g.toNat + i) = false))) ∧
    (∃ (s : State) (g : BitVec 4), awake s.dev 13 = true ∧ s.dev.scu.holdoff.length = 16 ∧ ((∃ i, i < 8 ∧ (eligible s.dev (8 * g.toNat + i) = true ∨ mayJoin s.dev (8 * g.toNat + i) = true)))) ∧
    (∃ (s : State) (g : BitVec 4) (i : _), awake s.dev 13 = true ∧ s.dev.scu.holdoff.length = 16 ∧ ((∃ i, i < 8 ∧ marked s.dev (8 * g.toNat + i) = true)) ∧ ((∀ i, i < 8 → eligible s.dev (8 * g.toNat + i) = false ∧ mayJoin s.dev (8 * g.toNat + i) = false)) ∧ i < 8) ∧
    (∃ (s : State) (g : BitVec 4), awake s.dev 13 = true ∧ s.dev.scu.holdoff.length = 16 ∧ ((∃ i, i < 8 ∧ marked s.dev (8 * g.toNat + i) = true)) ∧ ((∀ i, i < 8 → eligible s.dev (8 * g.toNat + i) = false ∧ mayJoin s.dev (8 * g.toNat + i) = false)) ∧ timerLost s.dev g.toNat = false ∧ fld s.dev (fGrpHoldoff g.toNat) ≠ 0) ∧
    (∃ (s : State) (g : BitVec 4), awake s.dev 13 = true ∧ s.dev.scu.holdoff.length = 16 ∧ grpOpen s.dev g.toNat = false ∧ s.dev.scu.holdoff.getD g.toNat 0 ≤ s.dev.now) ∧
    (∃ (s : State) (g : BitVec 4), awake s.dev 13 = true ∧ s.dev.scu.holdoff.length = 16 ∧ (grpOpen s.dev g.toNat = true ∨ s.dev.now < s.dev.scu.holdoff.getD g.toNat 0)) :=
  ⟨⟨st up, 5, by decide⟩,
   ⟨st { pendD 40 [] with scu := { up.scu with marks := 2 ^ 41 } }, 5, by decide⟩,
   ⟨st { fs up [(fGrpHoldoff 5, 3)] with scu := { up.scu with marks := 2 ^ 41 } }, 5, 7, by decide⟩,
   ⟨st { fs up [(fGrpHoldoff 5, 3)] with scu := { up.scu with marks := 2 ^ 41 } }, 5, by decide⟩,
   ⟨st { up with scu := { up.scu with holdoff := List.replicate 16 300 }, now := 300 }, 5, by decide⟩,
   ⟨st { up with scu := { up.scu with holdoff := List.replicate 16 300 }, now := 299 }, 5, by decide⟩⟩

theorem wit_WireJoin :
    (∃ (s : State) (n : BitVec 7), awake s.dev 13 = true ∧ deliveryOn s.dev = true ∧ mayJoin s.dev n.toNat = true) ∧
    (∃ (s : State) (n : BitVec 7), awake s.dev 13 = true ∧ (deliveryOn s.dev = false ∨ mayJoin s.dev n.toNat = false)) :=
  ⟨⟨st (pendD 40 [(fGrpRoute 5, 6)]), 40, by decide⟩,
   ⟨st up, 40, by decide⟩⟩

theorem wit_PendMaskWrite :
    (∃ (s : State) (i : _), awake s.dev 13 = true ∧ i < 64) ∧
    (∃ (s : State) (n : _), awake s.dev 13 = true ∧ n < 128) :=
  ⟨⟨st lev0, 0, by decide⟩,
   ⟨st lev0, 127, by decide⟩⟩

def inScu (f : Scu → Scu) (d : Dev := up) : Dev := { d with scu := f d.scu }
def chunk (a b c e : Nat) : BitVec 256 := BitVec.ofNat 256 (a + b * 2 ^ 64 + c * 2 ^ 128 + e * 2 ^ 192)
/-- A configuration of eight items: two mirrors on stacks 0 and 1, the stacks' ranges, and the areas. -/
def goodCfg : List (BitVec 256) :=
  [chunk (0x00014B43 + 8 * 2 ^ 32) 0 0 0, chunk 0x10 0 (0x10 + 2 ^ 16) (2 ^ 48), chunk 0x17 0 (0x17 + 2 ^ 16) (2 ^ 47),
   chunk (0x17 + 2 * 2 ^ 16) 0 (0x17 + 3 * 2 ^ 16) (2 ^ 47), chunk 0x11 (2 ^ 46) 0x15 8388608]
def pilotReset (d : Dev := up) : Dev := modPilot d 2 fun p => { p with reset := true }
def accUnit (l e : Nat) : LogUnit := ⟨l, l, 0, 0, .acceptEnd 0 e 0 0, [], true⟩
def anch (d : Dev := up) : Dev := { d with lbu := { d.lbu with anchor := (0, crcWords [0]) } }
/-- Two ACCEPT records of different epochs: one of them is not the image's, whatever that is. -/
theorem epochs_differ {d : Dev} (h : d.lbu.journal = [accUnit 0 0, accUnit 1 1]) : epochsOk d = false := by
  simp only [epochsOk, h, List.all_cons, accUnit]
  generalize imgEpoch d = e
  by_cases he : 0 = e
  · subst he; simp
  · simp [he]
def imgD (f : Scu → Scu) (d : Dev := up) : Dev := inScu (fun s => f { s with load := .image }) d
def loading1 (d : Dev) : Dev := fs d [(fLoadState, 1)]
def relD (n : Nat) : Dev := loading1 (inScu (fun s => { s with rst := .release, lastOrder := n, cfgVerified := true }) { up with now := 160 })

theorem wit_ColdResets :
    (∃ (s : State) (i : Instr) (c : Nat) (p : _) (off : _), (i, c) ∈ [(Instr.powerOnReset, 1), (.brownOutReset, 2), (.pinReset, 3)] ∧ regKey p off ≠ regKey 0 0x180) ∧
    (∃ (s : State) (i : Instr) (c : Nat) (n : _), (i, c) ∈ [(Instr.powerOnReset, 1), (.brownOutReset, 2), (.pinReset, 3)] ∧ n < 8) :=
  ⟨⟨st home, .powerOnReset, 1, 3, 0x80, by decide⟩,
   ⟨st home, .pinReset, 3, 7, by decide⟩⟩

theorem wit_ColdResetRelease :
    (∃ (s : State), s.dev.scu.up = true) ∧
    (∃ (s : State), s.dev.scu.up = false) :=
  ⟨⟨st up, by decide⟩,
   ⟨st {}, by decide⟩⟩

theorem wit_BlockResets :
    (∃ (s : State) (key : BitVec 16), scuRuns s.dev ∧ key ≠ 0xB10C) ∧
    (∃ (s : State), scuRuns s.dev ∧ s.dev.scu.rst = .none ∧ admits s.dev 5 1 = true) ∧
    (∃ (s : State), scuRuns s.dev ∧ s.dev.scu.rst = .none ∧ wdogRuns s.dev = true ∧ fld s.dev fWdogTmoMs * 1000000 ≤ s.dev.now - s.dev.scu.wdogStart) ∧
    (∃ (s : State) (u : BitVec 4), scuRuns s.dev ∧ s.dev.scu.rst = .none ∧ islandOk u = true ∧ u ≠ 9 ∧ u ≠ 13 ∧ fbit s.dev fDozing u.toNat = false ∧ inReset s.dev u.toNat = false ∧ fld s.dev fPwrState ≠ 3) ∧
    (∃ (s : State), scuRuns s.dev ∧ s.dev.scu.rst = .none ∧ ((∃ p ∈ s.dev.dtc.pilots, p.reset = true ∧ p.since + 640 ≤ s.dev.now))) ∧
    (∃ (s : State) (u : BitVec 4), scuRuns s.dev ∧ s.dev.scu.rst ≠ .none ∧ s.dev.scu.goingOff = false ∧ islandOk u = true) ∧
    (∃ (s : State) (u : BitVec 4), scuRuns s.dev ∧ ((∀ p ∈ s.dev.dtc.pilots, p.reset = true → s.dev.now < p.since + 640)) ∧ islandOk u = true) ∧
    (∃ (s : State), scuRuns s.dev ∧ admits s.dev 5 1 = false) ∧
    (∃ (s : State), scuRuns s.dev ∧ (wdogRuns s.dev = false ∨ s.dev.now - s.dev.scu.wdogStart < fld s.dev fWdogTmoMs * 1000000)) ∧
    (∃ (s : State) (u : BitVec 4), scuRuns s.dev ∧ (u = 9 ∨ u = 13 ∨ (islandOk u = true ∧ fbit s.dev fDozing u.toNat = true))) :=
  ⟨⟨st up, 5, by simp only [scuRuns]; decide⟩,
   ⟨st (inScu (fun s => { s with sec := 1, cfg := { s.cfg with secBase := 1 } })), by simp only [scuRuns]; decide⟩,
   ⟨st (fs { up with now := 10000000000 } [(fWdogEn, 1)]), by simp only [scuRuns]; decide⟩,
   ⟨st up, 4, by simp only [scuRuns]; decide⟩,
   ⟨st (pilotReset { up with now := 640 }), by simp only [scuRuns]; decide⟩,
   ⟨st (inScu (fun s => { s with rst := .drain }) pilotReset), 4, by simp only [scuRuns]; decide⟩,
   ⟨st (pilotReset { up with now := 639 }), 4, by simp only [scuRuns]; decide⟩,
   ⟨st (inScu (fun s => { s with sec := 0 })), by simp only [scuRuns]; decide⟩,
   ⟨st up, by simp only [scuRuns]; decide⟩,
   ⟨st up, 9, by simp only [scuRuns]; decide⟩⟩

theorem wit_Watchdog :
    (∃ (s : State), scuRuns s.dev ∧ wdogRuns s.dev = true ∧ s.dev.scu.wdogWarned = false ∧ fld s.dev fWdogTmoMs * 500000 ≤ s.dev.now - s.dev.scu.wdogStart) ∧
    (∃ (s : State), scuRuns s.dev ∧ (wdogRuns s.dev = false ∨ s.dev.scu.wdogWarned = true ∨ s.dev.now - s.dev.scu.wdogStart < fld s.dev fWdogTmoMs * 500000)) ∧
    (∃ (s : State) (p : BitVec 3), scuRuns s.dev ∧ isTranslator s.dev p.toNat = false ∧ pilotRuns s.dev p.toNat = true ∧ s.dev.scu.imgVerdict = true ∧ inReset s.dev 4 = false) ∧
    (∃ (s : State) (p : BitVec 3), scuRuns s.dev ∧ (isTranslator s.dev p.toNat = true ∨ pilotRuns s.dev p.toNat = false)) :=
  ⟨⟨st (fs { up with now := 10000000000 } [(fWdogEn, 1)]), by simp only [scuRuns]; decide⟩,
   ⟨st up, by simp only [scuRuns]; decide⟩,
   ⟨st (inScu (fun s => { s with imgVerdict := true })), 0, by simp only [scuRuns]; decide⟩,
   ⟨st (halted up), 0, by simp only [scuRuns]; decide⟩⟩

theorem wit_IdleRequest :
    (∃ (s : State), scuRuns s.dev ∧ s.dev.scu.rst ≠ .ask) ∧
    (∃ (s : State) (q : _), scuRuns s.dev ∧ s.dev.scu.rst = .ask ∧ q < 56 ∧ q < s.dev.quays.length ∧ quayRuns s.dev q = true) ∧
    (∃ (s : State), scuRuns s.dev ∧ s.dev.scu.rst = .ask ∧ s.dev.scu.goingOff = false) :=
  ⟨⟨st up, by simp only [scuRuns]; decide⟩,
   ⟨st (fs (inScu (fun s => { s with rst := .ask }) (modQuay up 55 fun q => { q with queue := [desc0 55] })) [(fQptState 55, 1)]), 55, by simp only [scuRuns]; decide⟩,
   ⟨st (inScu (fun s => { s with rst := .ask }) (cmds [cmd0])), by simp only [scuRuns]; decide⟩⟩

theorem wit_IdleComplete :
    (∃ (s : State), scuRuns s.dev ∧ s.dev.scu.rst ≠ .idle) ∧
    (∃ (s : State), scuRuns s.dev ∧ s.dev.scu.rst = .idle ∧ allIdle s.dev = true) ∧
    (∃ (s : State), scuRuns s.dev ∧ s.dev.scu.rst = .idle ∧ allIdle s.dev = false ∧ s.dev.scu.rstStart + 1000 * fld s.dev fIdleTmoUs ≤ s.dev.now) ∧
    (∃ (s : State), scuRuns s.dev ∧ s.dev.scu.rst = .idle ∧ allIdle s.dev = false ∧ s.dev.now < s.dev.scu.rstStart + 1000 * fld s.dev fIdleTmoUs) :=
  ⟨⟨st up, by simp only [scuRuns]; decide⟩,
   ⟨st (inScu (fun s => { s with rst := .idle })), by simp only [scuRuns]; decide⟩,
   ⟨st (inScu (fun s => { s with rst := .idle }) { up with lbu := { up.lbu with nextLsn := 5 }, now := 10000000000 }), by simp only [scuRuns]; decide⟩,
   ⟨st (inScu (fun s => { s with rst := .idle }) { up with lbu := { up.lbu with nextLsn := 5 }, now := 1 }), by simp only [scuRuns]; decide⟩⟩

theorem wit_MemoryDrainDone :
    (∃ (s : State), scuRuns s.dev ∧ s.dev.scu.rst ≠ .drain) ∧
    (∃ (s : State), scuRuns s.dev ∧ s.dev.scu.rst = .drain ∧ s.dev.scu.rstStart + 10000 < s.dev.now) ∧
    (∃ (s : State), scuRuns s.dev ∧ s.dev.scu.rst = .drain ∧ s.dev.now ≤ s.dev.scu.rstStart + 10000 ∧ s.dev.scu.goingOff = false ∧ s.dev.scu.cfgVerified = true) ∧
    (∃ (s : State), scuRuns s.dev ∧ s.dev.scu.rst = .drain ∧ s.dev.now ≤ s.dev.scu.rstStart + 10000 ∧ s.dev.scu.goingOff = false ∧ s.dev.scu.cfgVerified = false) ∧
    (∃ (s : State) (m : _), scuRuns s.dev ∧ s.dev.scu.rst = .drain ∧ s.dev.now ≤ s.dev.scu.rstStart + 10000 ∧ s.dev.scu.goingOff = false ∧ m < 2) ∧
    (∃ (s : State) (off : _), scuRuns s.dev ∧ s.dev.scu.rst = .drain ∧ s.dev.now ≤ s.dev.scu.rstStart + 10000 ∧ s.dev.scu.goingOff = false ∧ off < 0x1000 ∧ off ≠ 0x1A0 ∧ off ≠ 0x1C0) ∧
    (∃ (s : State) (p : _) (off : _), scuRuns s.dev ∧ s.dev.scu.rst = .drain ∧ s.dev.now ≤ s.dev.scu.rstStart + 10000 ∧ s.dev.scu.goingOff = false ∧ off < 0x1000 ∧ off ≠ 0x048 ∧ p ∉ [0, 4, 7, 8, 9]) ∧
    (∃ (s : State), scuRuns s.dev ∧ s.dev.scu.rst = .drain ∧ s.dev.now ≤ s.dev.scu.rstStart + 10000 ∧ s.dev.scu.goingOff = true ∧ s.dev.scu.targetLater = none) :=
  ⟨⟨st up, by simp only [scuRuns]; decide⟩,
   ⟨st (inScu (fun s => { s with rst := .drain }) { up with now := 10001 }), by simp only [scuRuns]; decide⟩,
   ⟨st (inScu (fun s => { s with rst := .drain, cfgVerified := true }) { home with now := 10000 }), by simp only [scuRuns]; decide⟩,
   ⟨st (inScu (fun s => { s with rst := .drain }) { home with now := 10000 }), by simp only [scuRuns]; decide⟩,
   ⟨st (inScu (fun s => { s with rst := .drain }) (fs { home with now := 10000 } [(fLbuMirror 1, 2)])), 1, by simp only [scuRuns]; decide⟩,
   ⟨st (inScu (fun s => { s with rst := .drain }) { home with now := 10000 }), 0x300, by simp only [scuRuns]; decide⟩,
   ⟨st (inScu (fun s => { s with rst := .drain }) (fs home [(fBtcSnoops, 5)])), 2, 0x80, by simp only [scuRuns]; decide⟩,
   ⟨st (inScu (fun s => { s with rst := .drain, goingOff := true }) (fs home [(fPwrState, 5)])), by simp only [scuRuns]; decide⟩⟩

theorem wit_PilotLockup :
    (∃ (s : State) (p : BitVec 3), scuRuns s.dev ∧ s.dev.dtc.pilots.length = 8 ∧ s.dev.scu.pilotRel.length = 8 ∧ (pilotRuns s.dev p.toNat = false ∨ s.dev.scu.imgVerdict = false ∨ inReset s.dev 4 = true ∨ fbit s.dev fDozing 4 = true)) ∧
    (∃ (s : State) (p : BitVec 3), scuRuns s.dev ∧ s.dev.dtc.pilots.length = 8 ∧ s.dev.scu.pilotRel.length = 8 ∧ pilotRuns s.dev p.toNat = true ∧ s.dev.scu.imgVerdict = true ∧ inReset s.dev 4 = false ∧ fbit s.dev fDozing 4 = false ∧ fld s.dev fPwrState ≠ 3) ∧
    (∃ (s : State) (p : BitVec 3), scuRuns s.dev ∧ s.dev.dtc.pilots.length = 8 ∧ s.dev.scu.pilotRel.length = 8 ∧ ((at' {} s.dev.dtc.pilots p.toNat).reset = false ∨ fbit s.dev fPilotOut p.toNat = true)) ∧
    (∃ (s : State) (p : BitVec 3), scuRuns s.dev ∧ s.dev.dtc.pilots.length = 8 ∧ s.dev.scu.pilotRel.length = 8 ∧ (at' {} s.dev.dtc.pilots p.toNat).reset = true ∧ fbit s.dev fPilotOut p.toNat = false) :=
  ⟨⟨st (halted up), 0, by simp only [scuRuns]; decide⟩,
   ⟨st (inScu (fun s => { s with imgVerdict := true })), 7, by simp only [scuRuns]; decide⟩,
   ⟨st up, 7, by simp only [scuRuns]; decide⟩,
   ⟨st pilotReset, 2, by simp only [scuRuns]; decide⟩⟩

theorem wit_IslandRelease :
    (∃ (s : State) (u : BitVec 4), islandOk u = false) ∧
    (∃ (s : State) (u : BitVec 4), scuRuns s.dev ∧ islandOk u = true ∧ mayRelease s.dev u.toNat = false) ∧
    (∃ (s : State) (u : BitVec 4) (q : _), scuRuns s.dev ∧ islandOk u = true ∧ mayRelease s.dev u.toNat = true ∧ (u ≠ 10 ∨ s.dev.scu.load ≠ .image) ∧ s.dev.hpu.held = [] ∧ s.dev.hms.held = [] ∧ s.dev.dtc.dapHeld = [] ∧ s.dev.fsa.held = [] ∧ u = 9 ∧ q < 56) ∧
    (∃ (s : State) (u : BitVec 4) (q : _), scuRuns s.dev ∧ islandOk u = true ∧ mayRelease s.dev u.toNat = true ∧ (u ≠ 10 ∨ s.dev.scu.load ≠ .image) ∧ s.dev.hpu.held = [] ∧ s.dev.hms.held = [] ∧ s.dev.dtc.dapHeld = [] ∧ s.dev.fsa.held = [] ∧ u = 8 ∧ s.dev.scu.imgVerdict = true ∧ q < 16 ∧ q < s.dev.seqs.length) :=
  ⟨⟨st up, 0, by decide⟩,
   ⟨st up, 2, by simp only [scuRuns]; decide⟩,
   ⟨st (relD 13), 9, 55, by simp only [scuRuns]; decide⟩,
   ⟨st (inScu (fun s => { s with imgVerdict := true }) (relD 12)), 8, 15, by simp only [scuRuns]; decide⟩⟩

theorem wit_ReleaseOrder : ∃ (d : Dev) (u : Nat), mayRelease d u = true :=
  ⟨relD 13, 9, by decide⟩

theorem wit_Configuration :
    (∃ (s : State), scuRuns s.dev ∧ (s.dev.scu.load ≠ .config ∨ s.dev.scu.cfgDone = true)) ∧
    (∃ (s : State), scuRuns s.dev ∧ (s.dev.scu.load ≠ .config ∨ s.dev.scu.cfgDone = false)) ∧
    (∃ (s : State), scuRuns s.dev ∧ s.dev.scu.load = .config ∧ s.dev.scu.cfgDone = false ∧ s.dev.scu.cfgChunks.length < 2048) ∧
    (∃ (s : State), scuRuns s.dev ∧ s.dev.scu.load = .config ∧ s.dev.scu.cfgDone = false ∧ 2048 ≤ s.dev.scu.cfgChunks.length) ∧
    (∃ (s : State), scuRuns s.dev ∧ s.dev.scu.load = .config ∧ s.dev.scu.cfgDone = true ∧ parseConfig s.dev.scu.cfgChunks = none) ∧
    (∃ (s : State) (c : _), scuRuns s.dev ∧ s.dev.scu.load = .config ∧ s.dev.scu.cfgDone = true ∧ parseConfig s.dev.scu.cfgChunks = some c ∧ c.logFormat = false) :=
  ⟨⟨st up, by simp only [scuRuns]; decide⟩,
   ⟨st up, by simp only [scuRuns]; decide⟩,
   ⟨st (inScu (fun s => { s with load := .config })), by simp only [scuRuns]; decide⟩,
   ⟨st (inScu (fun s => { s with load := .config, cfgChunks := List.replicate 2048 0 })), by simp only [scuRuns]; decide⟩,
   ⟨st (inScu (fun s => { s with load := .config, cfgDone := true })), by simp only [scuRuns]; decide⟩,
   ⟨st (inScu (fun s => { s with load := .config, cfgDone := true, cfgChunks := goodCfg })), (parseConfig goodCfg).getD {}, by simp only [scuRuns]; decide⟩⟩

theorem wit_ImageLoad :
    (∃ (s : State), scuRuns s.dev ∧ s.dev.scu.load ≠ .image) ∧
    (∃ (s : State), scuRuns s.dev ∧ s.dev.scu.load = .image ∧ s.dev.scu.fromHarbour = false ∧ s.dev.scu.imgDone = false ∧ s.dev.scu.imgCount < 524288 ∧ mirrorSt s.dev 0 ≠ 1 ∧ mirrorSt s.dev 1 ≠ 1) ∧
    (∃ (s : State), scuRuns s.dev ∧ s.dev.scu.load = .image ∧ s.dev.scu.fromHarbour = false ∧ s.dev.scu.imgDone = false ∧ 524288 ≤ s.dev.scu.imgCount) ∧
    (∃ (s : State), scuRuns s.dev ∧ s.dev.scu.load = .image ∧ s.dev.scu.fromHarbour = false ∧ s.dev.scu.imgDone = true ∧ s.dev.scu.imgVerdict = false ∧ (inReset s.dev 10 = true ∨ s.dev.scu.formatDue = true)) ∧
    (∃ (s : State), scuRuns s.dev ∧ s.dev.scu.load = .image ∧ s.dev.scu.fromHarbour = false ∧ s.dev.scu.imgDone = true ∧ s.dev.scu.imgVerdict = false ∧ inReset s.dev 10 = false ∧ s.dev.scu.formatDue = false ∧ anchorOk s.dev = false) ∧
    (∃ (s : State), scuRuns s.dev ∧ s.dev.scu.load = .image ∧ s.dev.scu.fromHarbour = false ∧ s.dev.scu.imgDone = true ∧ s.dev.scu.imgVerdict = false ∧ inReset s.dev 10 = false ∧ s.dev.scu.formatDue = false ∧ anchorOk s.dev = true ∧ epochsOk s.dev = false) ∧
    (∃ (s : State), scuRuns s.dev ∧ s.dev.scu.load = .image ∧ s.dev.scu.fromHarbour = false ∧ s.dev.scu.imgDone = true ∧ s.dev.scu.imgVerdict = false ∧ inReset s.dev 10 = false ∧ s.dev.scu.formatDue = false ∧ anchorOk s.dev = true ∧ epochsOk s.dev = true) ∧
    (∃ (s : State) (h : _), scuRuns s.dev ∧ s.dev.scu.load = .image ∧ s.dev.scu.fromHarbour = true ∧ s.dev.scu.imgVerdict = false ∧ s.dev.scu.imgCopy = some h ∧ inReset s.dev 10 = true) :=
  ⟨⟨st up, by simp only [scuRuns]; decide⟩,
   ⟨st (imgD id), by simp only [scuRuns]; decide⟩,
   ⟨st (imgD fun s => { s with imgCount := 524288 }), by simp only [scuRuns]; decide⟩,
   ⟨st (fs (imgD fun s => { s with imgDone := true, formatDue := true }) [(fInReset, 2 ^ 10)]), by simp only [scuRuns]; decide⟩,
   ⟨st (imgD (fun s => { s with imgDone := true }) { up with lbu := { up.lbu with anchor := (5, 0) } }), by simp only [scuRuns]; decide⟩,
   ⟨st (imgD (fun s => { s with imgDone := true }) { anch with lbu := { anch.lbu with journal := [accUnit 0 0, accUnit 1 1] } }), by exact ⟨⟨by decide, by decide⟩, by decide, by decide, by decide, by decide, by decide, by decide, by decide, epochs_differ rfl⟩⟩,
   ⟨st (imgD (fun s => { s with imgDone := true }) anch), by simp only [scuRuns]; decide⟩,
   ⟨st (fs (imgD fun s => { s with fromHarbour := true, imgCopy := some 7 }) [(fInReset, 2 ^ 10)]), 7, by simp only [scuRuns]; decide⟩⟩

theorem wit_LogFormat :
    (∃ (s : State), scuRuns s.dev ∧ (s.dev.scu.formatDue = false ∨ s.dev.scu.load ≠ .image ∨ inReset s.dev 10 = true)) ∧
    (∃ (s : State), scuRuns s.dev ∧ s.dev.scu.formatDue = true ∧ s.dev.scu.load = .image ∧ inReset s.dev 10 = false ∧ s.dev.scu.imgVerdict = true) :=
  ⟨⟨st up, by simp only [scuRuns]; decide⟩,
   ⟨st (imgD fun s => { s with formatDue := true, imgVerdict := true }), by simp only [scuRuns]; decide⟩⟩

theorem wit_LoadEnd :
    (∃ (s : State), scuRuns s.dev ∧ s.dev.scu.load = .checked ∧ fld s.dev fInReset = 0 ∧ s.dev.scu.rst = .none) ∧
    (∃ (s : State), scuRuns s.dev ∧ (s.dev.scu.load ≠ .checked ∨ fld s.dev fInReset ≠ 0 ∨ s.dev.scu.rst ≠ .none)) ∧
    (∃ (s : State) (reason : BitVec 8), scuRuns s.dev ∧ fld s.dev fLoadState = 1 ∧ 1 ≤ reason.toNat ∧ reason.toNat ≤ 8) ∧
    (∃ (s : State) (reason : BitVec 8), scuRuns s.dev ∧ (fld s.dev fLoadState ≠ 1 ∨ reason = 0 ∨ 8 < reason.toNat)) ∧
    (∃ (s : State), scuRuns s.dev ∧ (s.dev.scu.load = .config ∨ (s.dev.scu.load = .image ∧ s.dev.scu.fromHarbour = false ∧ s.dev.scu.imgVerdict = false)) ∧ s.dev.scu.loadStart + 100000000 ≤ s.dev.now) ∧
    (∃ (s : State), scuRuns s.dev ∧ (s.dev.scu.load = .config ∨ (s.dev.scu.load = .image ∧ s.dev.scu.fromHarbour = false ∧ s.dev.scu.imgVerdict = false)) ∧ s.dev.now < s.dev.scu.loadStart + 100000000) ∧
    (∃ (s : State), scuRuns s.dev ∧ fld s.dev fLoadState ≠ 4) ∧
    (∃ (s : State), scuRuns s.dev ∧ fld s.dev fLoadState = 4) :=
  ⟨⟨st (inScu (fun s => { s with load := .checked })), by simp only [scuRuns]; decide⟩,
   ⟨st up, by simp only [scuRuns]; decide⟩,
   ⟨st (loading1 up), 8, by simp only [scuRuns]; decide⟩,
   ⟨st up, 9, by simp only [scuRuns]; decide⟩,
   ⟨st (imgD id { up with now := 100000000 }), by simp only [scuRuns]; decide⟩,
   ⟨st (imgD id { up with now := 99999999 }), by simp only [scuRuns]; decide⟩,
   ⟨st up, by simp only [scuRuns]; decide⟩,
   ⟨st (fs up [(fLoadState, 4)]), by simp only [scuRuns]; decide⟩⟩

theorem wit_PowerTargets :
    (∃ (s : State), scuRuns s.dev ∧ mayChange s.dev ∧ fld s.dev fDtcHalted = 0) ∧
    (∃ (s : State) (i : _), scuRuns s.dev ∧ mayChange s.dev ∧ fld s.dev fDtcHalted ≠ 0 ∧ i ∈ [Instr.targetRetain, .targetOff]) ∧
    (∃ (s : State) (x : _), scuRuns s.dev ∧ (fld s.dev fPwrState = 5 ∨ fld s.dev fPwrState ≠ 4 ∧ s.dev.scu.rst ≠ .none) ∧ x ∈ targetRows) ∧
    (∃ (s : State), scuRuns s.dev ∧ fld s.dev fPwrState = 3 ∧ s.dev.scu.rst = .none ∧ fld s.dev fLoadState = 3) ∧
    (∃ (s : State) (x : _), scuRuns s.dev ∧ fld s.dev fPwrState = 4 ∧ x ∈ targetRows ∧ x.2 ≠ 0) :=
  ⟨⟨st up, by simp only [scuRuns, mayChange]; decide⟩,
   ⟨st (halted up), Instr.targetOff, by simp only [scuRuns, mayChange]; decide⟩,
   ⟨st (fs up [(fPwrState, 5)]), (Instr.targetOff, 3), by simp only [scuRuns]; decide⟩,
   ⟨st (fs up [(fPwrState, 3), (fDozing, 0x14)]), by simp only [scuRuns]; decide⟩,
   ⟨st (fs up [(fPwrState, 4)]), (Instr.targetOff, 3), by simp only [scuRuns]; decide⟩⟩

theorem wit_Retain :
    (∃ (s : State) (u : BitVec 4), scuRuns s.dev ∧ s.dev.scu.retainReq = true ∧ fld s.dev fPwrState = 5 ∧ s.dev.scu.targetLater = none ∧ ((∀ c ∈ s.dev.cmds, c.isComplete = true ∨ (c.phase = .waiting ∧ c.waitsMet = false))) ∧ ((∀ q ∈ s.dev.quays, q.out = [] ∧ q.offered = none)) ∧ ((∀ u ∈ retainUnits, atRest s.dev u = true))) ∧
    (∃ (s : State), scuRuns s.dev ∧ s.dev.scu.retainReq = true ∧ fld s.dev fPwrState = 5 ∧ s.dev.scu.targetLater = none ∧ s.dev.scu.retainStart + fld s.dev fRetainTmoMs * 1000000 ≤ s.dev.now) ∧
    (∃ (s : State), scuRuns s.dev ∧ s.dev.scu.retainReq = false) ∧
    (∃ (s : State) (u : BitVec 4), scuRuns s.dev ∧ ((∃ q ∈ s.dev.quays, q.out ≠ []) ∨ (∃ u ∈ retainUnits, atRest s.dev u = false))) ∧
    (∃ (s : State) (u : BitVec 4), scuRuns s.dev ∧ islandOk u = false) ∧
    (∃ (s : State) (u : BitVec 4), scuRuns s.dev ∧ islandOk u = true ∧ (u = 1 ∨ u = 13 ∨ fld s.dev fPwrState ≠ 3)) ∧
    (∃ (s : State) (u : BitVec 4), scuRuns s.dev ∧ islandOk u = true ∧ u ≠ 1 ∧ u ≠ 13 ∧ fld s.dev fPwrState = 3) :=
  ⟨⟨st (fs (inScu (fun s => { s with retainReq := true })) [(fPwrState, 5)]), 1, by simp only [scuRuns]; decide⟩,
   ⟨st (fs (inScu (fun s => { s with retainReq := true }) { up with now := 10000000000000 }) [(fPwrState, 5)]), by simp only [scuRuns]; decide⟩,
   ⟨st up, by simp only [scuRuns]; decide⟩,
   ⟨st (outAt 0 up), 1, by simp only [scuRuns]; decide⟩,
   ⟨st up, 15, by simp only [scuRuns]; decide⟩,
   ⟨st up, 14, by simp only [scuRuns]; decide⟩,
   ⟨st (fs up [(fPwrState, 3), (fDozing, 0x14)]), 4, by simp only [scuRuns]; decide⟩⟩

theorem wit_Doze :
    (∃ (s : State) (u : BitVec 4), scuRuns s.dev ∧ islandOk u = false) ∧
    (∃ (s : State) (u : BitVec 4) (v : _), scuRuns s.dev ∧ islandOk u = true ∧ mayDoze u.toNat = true ∧ fbit s.dev fDozeEn u.toNat = true ∧ fld s.dev fPwrState ≤ 1 ∧ inReset s.dev u.toNat = false ∧ unitIdle s.dev u.toNat = true ∧ v < 16 ∧ v ≠ u.toNat) ∧
    (∃ (s : State) (u : BitVec 4), scuRuns s.dev ∧ islandOk u = true ∧ (mayDoze u.toNat = false ∨ fbit s.dev fDozeEn u.toNat = false ∨ 1 < fld s.dev fPwrState ∨ unitIdle s.dev u.toNat = false)) ∧
    (∃ (s : State) (u : BitVec 4) (v : _), scuRuns s.dev ∧ islandOk u = true ∧ v < 16 ∧ v ≠ u.toNat) :=
  ⟨⟨st up, 15, by simp only [scuRuns]; decide⟩,
   ⟨st (fs up [(fDozeEn, 2 ^ 14)]), 14, 3, by simp only [scuRuns]; decide⟩,
   ⟨st up, 14, by simp only [scuRuns]; decide⟩,
   ⟨st up, 14, 3, by simp only [scuRuns]; decide⟩⟩

/-- The block in Operator by its base state. -/
def oper (d : Dev := up) : Dev := { d with scu := { d.scu with sec := 1, cfg := { d.scu.cfg with secBase := 1 } } }
def tok0 (e : Nat) : Token := { grant := 2, actions := 0x3F, id := 9, expiry := e }
/-- rt_in_data of that token for the unit of serial 0. -/
def tokData (e : Nat) : BitVec 256 := BitVec.ofNat 256 (e * 2 ^ 64 + 9 * 2 ^ 128 + 2 * 2 ^ 160 + 0x3F * 2 ^ 176)
def holdTok (e : Nat) (d : Dev := up) : Dev := { d with scu := { d.scu with tokens := (List.replicate 8 none).set 7 (some (tok0 e)), sec := 2, cfg := { d.scu.cfg with secMax := 2 } } }
def bkpt (d : Dev) : Dev := fs d [(fDtcBpEn 3, 1), (fDtcBpAddr 3, 0x40), (fDtcBpMask 3, 5), (fDtcBpGroup 3, 1)]
def trec : TraceRec :=
  { rtype := 2, secrecy := 0, unaligned := false, replayed := false, perStation := false, lap := 0, quay := 0, station := 0, count := 1,
    time := 5, tags := 0, addr := 0 }
def markD (r : TraceRec) (d : Dev := up) : Dev := { d with dtc := { d.dtc with markers := [r] } }
def instrD (d : Dev := up) : Dev := modPilot d 7 fun p => { p with instrQ := [{ trec with rtype := 3 }] }
def cntD (set h : Nat) (d : Dev := home) : Dev := fs d [(fDtcCntSet, set), (fDtcCntHandle, h)]
def sealR : CtxRec := { ctxR with secrecy := .sealed }
def qDev (c : CtxRec := ctxR) : Dev := fs (home up c) [(fDtcQSel, hCtx)]

theorem wit_SecurityTokens :
    (∃ (s : State) (data : BitVec 256), awake s.dev 13 = true ∧ s.dev.scu.tokens.length = 8 ∧ parseToken data = none) ∧
    (∃ (s : State) (data : BitVec 256) (k : _) (serial : _), awake s.dev 13 = true ∧ s.dev.scu.tokens.length = 8 ∧ parseToken data = some (k, serial) ∧ (serial ≠ s.dev.scu.cfg.unitSerial ∨ (k.expiry ≠ 0 ∧ k.expiry ≤ s.dev.tide % 2 ^ 64))) ∧
    (∃ (s : State) (data : BitVec 256) (k : _) (serial : _), awake s.dev 13 = true ∧ s.dev.scu.tokens.length = 8 ∧ parseToken data = some (k, serial) ∧ serial = s.dev.scu.cfg.unitSerial ∧ (k.expiry = 0 ∨ s.dev.tide % 2 ^ 64 < k.expiry)) ∧
    (∃ (s : State) (slot : BitVec 3), awake s.dev 13 = true ∧ s.dev.scu.tokens.length = 8 ∧ s.dev.scu.tokens.getD slot.toNat none = none) ∧
    (∃ (s : State) (slot : BitVec 3) (k : _), awake s.dev 13 = true ∧ s.dev.scu.tokens.length = 8 ∧ s.dev.scu.tokens.getD slot.toNat none = some k ∧ (k.expiry = 0 ∨ s.dev.tide % 2 ^ 64 < k.expiry)) ∧
    (∃ (s : State) (slot : BitVec 3) (k : _), awake s.dev 13 = true ∧ s.dev.scu.tokens.length = 8 ∧ s.dev.scu.tokens.getD slot.toNat none = some k ∧ k.expiry ≠ 0 ∧ k.expiry ≤ s.dev.tide % 2 ^ 64) ∧
    (∃ (s : State) (key : BitVec 16), awake s.dev 13 = true ∧ s.dev.scu.tokens.length = 8 ∧ key ≠ 0x10C4) :=
  ⟨⟨st up, 0, by decide⟩,
   ⟨st { up with tide := 50 }, tokData 50, tok0 50, 0, by decide⟩,
   ⟨st { up with tide := 50 }, tokData 51, tok0 51, 0, by decide⟩,
   ⟨st up, 7, by decide⟩,
   ⟨st { holdTok 51 with tide := 50 }, 7, tok0 51, by decide⟩,
   ⟨st { bkpt (halted (holdTok 50)) with tide := 50 }, 7, tok0 50, by decide⟩,
   ⟨st (halted (holdTok 50)), 0, by decide⟩⟩

theorem wit_SecurityState : ∃ (ts : List (Option Token)) (k : _), some k ∈ ts :=
  ⟨[none, some (tok0 5)], tok0 5, by decide⟩

theorem wit_DebugAccess :
    (∃ (s : State) (addr : BitVec 20) (p : Nat) (off : Nat), p = addr.toNat / 0x1000 ∧ off = addr.toNat % 0x1000 ∧ inReset s.dev 14 = true) ∧
    (∃ (s : State) (addr : BitVec 20) (p : Nat) (off : Nat), p = addr.toNat / 0x1000 ∧ off = addr.toNat % 0x1000 ∧ awake s.dev 14 = true ∧ dapReadOk s.dev p off = false) ∧
    (∃ (s : State) (addr : BitVec 20) (v : BitVec 64) (p : Nat) (off : Nat), p = addr.toNat / 0x1000 ∧ off = addr.toNat % 0x1000 ∧ awake s.dev 14 = true ∧ dapWriteOk s.dev p off v = false) ∧
    (∃ (s : State) (addr : BitVec 20) (v : BitVec 64) (p : Nat) (off : Nat), p = addr.toNat / 0x1000 ∧ off = addr.toNat % 0x1000 ∧ awake s.dev 14 = true ∧ s.dev.scu.sec = 0 ∧ ¬ (p = 0 ∧ off = 0x208 ∧ v.toNat / 2 ^ 48 = 0x10C4 ∧ v.toNat % 16 = 1)) ∧
    (∃ (s : State) (addr : BitVec 20) (p : Nat) (off : Nat), p = addr.toNat / 0x1000 ∧ off = addr.toNat % 0x1000 ∧ awake s.dev 14 = true ∧ dapReadOk s.dev p off = true ∧ off % 8 = 0 ∧ served s.dev p = true) ∧
    (∃ (s : State) (addr : BitVec 20) (v : BitVec 64) (p : Nat) (off : Nat), p = addr.toNat / 0x1000 ∧ off = addr.toNat % 0x1000 ∧ awake s.dev 14 = true ∧ dapWriteOk s.dev p off v = true ∧ off % 8 = 0 ∧ settingsReg p off = true ∧ served s.dev p = true) :=
  ⟨⟨st {}, 0x1080, ((0x1080) : BitVec 20).toNat / 0x1000, ((0x1080) : BitVec 20).toNat % 0x1000, by decide⟩,
   ⟨st up, 0x3080, ((0x3080) : BitVec 20).toNat / 0x1000, ((0x3080) : BitVec 20).toNat % 0x1000, by decide⟩,
   ⟨st (fs up [(fErrValid 10, 1)]), 0x3080, 5, ((0x3080) : BitVec 20).toNat / 0x1000, ((0x3080) : BitVec 20).toNat % 0x1000, by decide⟩,
   ⟨st { up with scu := { up.scu with sec := 0 } }, 0x208, 5, ((0x208) : BitVec 20).toNat / 0x1000, ((0x208) : BitVec 20).toNat % 0x1000, by decide⟩,
   ⟨st up, 0x200, ((0x200) : BitVec 20).toNat / 0x1000, ((0x200) : BitVec 20).toNat % 0x1000, by decide⟩,
   ⟨st (holdTok 0), 0x3080, 5, ((0x3080) : BitVec 20).toNat / 0x1000, ((0x3080) : BitVec 20).toNat % 0x1000, by decide⟩⟩

theorem wit_HaltPilots :
    (∃ (s : State), awake s.dev 14 = true ∧ admits s.dev 0 1 = false) ∧
    (∃ (s : State) (p : _), awake s.dev 14 = true ∧ admits s.dev 0 1 = true ∧ inReset s.dev 4 = false ∧ p < 8) ∧
    (∃ (s : State) (m : BitVec 8), awake s.dev 14 = true ∧ admits s.dev 0 1 = true ∧ inReset s.dev 4 = false ∧ ((∃ p, p < 8 ∧ m.getLsbD p = true ∧ pilotRuns s.dev p = true))) ∧
    (∃ (s : State), awake s.dev 14 = true ∧ admits s.dev 0 1 = true ∧ inReset s.dev 4 = false ∧ fld s.dev fPwrState = 5) ∧
    (∃ (s : State) (p : _), awake s.dev 14 = true ∧ admits s.dev 0 1 = true ∧ s.dev.dtc.pilots.length = 8 ∧ p < 8) ∧
    (∃ (s : State), awake s.dev 14 = true) ∧
    (∃ (s : State) (m : BitVec 8), awake s.dev 14 = true ∧ ((∃ p, p < 8 ∧ m.getLsbD p = true ∧ fbit s.dev fDtcHalted p = true))) :=
  ⟨⟨st { up with scu := { up.scu with sec := 0 } }, by decide⟩,
   ⟨st (oper), 7, by decide⟩,
   ⟨st (oper), 0x81, by decide⟩,
   ⟨st (oper (fs up [(fPwrState, 5)])), by decide⟩,
   ⟨st (halted (oper)), 0, by decide⟩,
   ⟨st up, by decide⟩,
   ⟨st (halted up), 0x81, by decide⟩⟩

theorem wit_Breakpoints :
    (∃ (s : State) (p : BitVec 3) (addr : BitVec 57), awake s.dev 14 = true ∧ (pilotRuns s.dev p.toNat = false ∨ inReset s.dev 4 = true ∨ (∀ n, n < 4 → ¬ (flag s.dev (fDtcBpEn n) = true ∧ fld s.dev (fDtcBpAddr n) = addr.toNat ∧ fbit s.dev (fDtcBpMask n) p.toNat = true)))) ∧
    (∃ (s : State) (p : BitVec 3) (addr : BitVec 57) (n : _) (q : _), awake s.dev 14 = true ∧ pilotRuns s.dev p.toNat = true ∧ inReset s.dev 4 = false ∧ bkptAt s.dev p.toNat addr.toNat = some n ∧ q < 8 ∧ q ≠ p.toNat) :=
  ⟨⟨st up, 0, 0x40, by decide⟩,
   ⟨st (bkpt up), 0, 0x40, 3, 2, by decide⟩⟩

theorem wit_PilotWords :
    (∃ (s : State) (v : BitVec 64) (p : Nat) (sp : Nat) (i : Nat), awake s.dev 14 = true ∧ s.dev.dtc.pilots.length = 8 ∧ p = v.toNat / 2 ^ 61 ∧ sp = v.toNat / 2 ^ 60 % 2 ∧ i = v.toNat % 2 ^ 15 ∧ admits s.dev 0 1 = false) ∧
    (∃ (s : State) (v : BitVec 64) (p : Nat) (sp : Nat) (i : Nat), awake s.dev 14 = true ∧ s.dev.dtc.pilots.length = 8 ∧ p = v.toNat / 2 ^ 61 ∧ sp = v.toNat / 2 ^ 60 % 2 ∧ i = v.toNat % 2 ^ 15 ∧ admits s.dev 0 1 = true ∧ (fbit s.dev fDtcHalted p = false ∨ (sp = 0 ∧ 32 < i))) ∧
    (∃ (s : State) (v : BitVec 64) (p : Nat) (sp : Nat) (i : Nat), awake s.dev 14 = true ∧ s.dev.dtc.pilots.length = 8 ∧ p = v.toNat / 2 ^ 61 ∧ sp = v.toNat / 2 ^ 60 % 2 ∧ i = v.toNat % 2 ^ 15 ∧ admits s.dev 0 1 = true ∧ fbit s.dev fDtcHalted p = true ∧ (sp = 1 ∨ i ≤ 32)) ∧
    (∃ (s : State), awake s.dev 14 = true ∧ s.dev.dtc.pilots.length = 8 ∧ pdbgCheck s.dev ≠ 0) ∧
    (∃ (s : State) (p : Nat) (sp : Nat) (i : Nat) (p' : _) (sp' : _) (i' : _), awake s.dev 14 = true ∧ s.dev.dtc.pilots.length = 8 ∧ pdbgCheck s.dev = 0 ∧ p = fld s.dev fDtcPdPilot ∧ sp = fld s.dev fDtcPdSpace ∧ i = fld s.dev fDtcPdIndex ∧ (p', sp', i') ≠ (p, sp, i)) :=
  ⟨⟨st { up with scu := { up.scu with sec := 0 } }, 5, ((5) : BitVec 64).toNat / 2 ^ 61, ((5) : BitVec 64).toNat / 2 ^ 60 % 2, ((5) : BitVec 64).toNat % 2 ^ 15, by decide⟩,
   ⟨st (oper), 5, ((5) : BitVec 64).toNat / 2 ^ 61, ((5) : BitVec 64).toNat / 2 ^ 60 % 2, ((5) : BitVec 64).toNat % 2 ^ 15, by decide⟩,
   ⟨st (halted (oper)), 32, ((32) : BitVec 64).toNat / 2 ^ 61, ((32) : BitVec 64).toNat / 2 ^ 60 % 2, ((32) : BitVec 64).toNat % 2 ^ 15, by decide⟩,
   ⟨st (oper), by decide⟩,
   ⟨st (halted (oper)), fld ((st (halted (oper))) : State).dev fDtcPdPilot, fld ((st (halted (oper))) : State).dev fDtcPdSpace, fld ((st (halted (oper))) : State).dev fDtcPdIndex, 8, 0, 0, by decide⟩⟩

theorem wit_TraceRecords :
    (∃ (s : State) (q : BitVec 6), 56 ≤ q.toNat) ∧
    (∃ (s : State) (q : BitVec 6), awake s.dev 14 = true ∧ flag s.dev (fQuiesced 10) = true ∧ q.toNat < 56) ∧
    (∃ (s : State), awake s.dev 14 = true ∧ s.dev.dtc.markers = []) ∧
    (∃ (s : State) (q : BitVec 6), awake s.dev 14 = true ∧ q.toNat < 56 ∧ traceTurn s.dev ≠ some q.toNat) ∧
    (∃ (s : State) (r : _) (rest : _), awake s.dev 14 = true ∧ flag s.dev (fQuiesced 10) = false ∧ s.dev.dtc.markers = r :: rest ∧ (flag s.dev fDtcMode = false ∨ (r.rtype ≠ 3 ∧ sramUsed s.dev < 65535))) ∧
    (∃ (s : State) (r : _) (rest : _), awake s.dev 14 = true ∧ flag s.dev (fQuiesced 10) = false ∧ s.dev.dtc.markers = r :: rest ∧ flag s.dev fDtcMode = true ∧ r.rtype ≠ 3 ∧ sramUsed s.dev = 65535) ∧
    (∃ (s : State) (r : _) (rest : _), awake s.dev 14 = true ∧ flag s.dev (fQuiesced 10) = false ∧ s.dev.dtc.markers = r :: rest ∧ flag s.dev fDtcMode = true ∧ r.rtype ≠ 3 ∧ 65535 < sramUsed s.dev) ∧
    (∃ (s : State) (q : BitVec 6) (r : _) (rest : _), awake s.dev 14 = true ∧ flag s.dev (fQuiesced 10) = false ∧ q.toNat < s.dev.quays.length ∧ traceTurn s.dev = some q.toNat ∧ (quayAt s.dev q.toNat).traceQ = r :: rest ∧ (quayAt s.dev q.toNat).traceLost = 0 ∧ flag s.dev fDtcMode = false ∧ q.toNat < 56) ∧
    (∃ (s : State) (p : BitVec 3) (r : _) (rest : _), awake s.dev 14 = true ∧ flag s.dev (fQuiesced 10) = false ∧ (at' {} s.dev.dtc.pilots p.toNat).instrQ = r :: rest ∧ p.toNat < s.dev.dtc.pilots.length ∧ r.rtype ≠ 4 ∧ cmdTraceWaits s.dev = true) ∧
    (∃ (s : State) (p : BitVec 3) (r : _) (rest : _), awake s.dev 14 = true ∧ flag s.dev (fQuiesced 10) = false ∧ (at' {} s.dev.dtc.pilots p.toNat).instrQ = r :: rest ∧ p.toNat < s.dev.dtc.pilots.length ∧ r.rtype ≠ 4 ∧ cmdTraceWaits s.dev = false ∧ (at' {} s.dev.dtc.pilots p.toNat).instrLost = 0 ∧ flag s.dev fDtcMode = false) :=
  ⟨⟨st up, 56, by decide⟩,
   ⟨st (fs (markD trec) [(fQuiesced 10, 1)]), 55, by decide⟩,
   ⟨st up, by decide⟩,
   ⟨st up, 55, by decide⟩,
   ⟨st (markD trec), trec, ([] : List TraceRec), by decide⟩,
   ⟨st (fs (markD trec) [(fDtcMode, 1), (fDtcWr, 65535)]), trec, ([] : List TraceRec), by decide⟩,
   ⟨st (fs (markD trec) [(fDtcMode, 1), (fDtcLap, 1)]), trec, ([] : List TraceRec), by decide⟩,
   ⟨st (modQuay up 55 fun q => { q with traceQ := [trec] }), 55, trec, ([] : List TraceRec), by decide⟩,
   ⟨st (markD trec instrD), 7, ({ trec with rtype := 3 } : TraceRec), ([] : List TraceRec), by decide⟩,
   ⟨st (instrD), 7, ({ trec with rtype := 3 } : TraceRec), ([] : List TraceRec), by decide⟩⟩

theorem wit_Counters :
    (∃ (s : State) (cs : Nat) (h : Nat) (b : Nat) (inst : Nat), awake s.dev 14 = true ∧ cs = fld s.dev fDtcCntSet ∧ h = fld s.dev fDtcCntHandle ∧ b = berthIdx h ∧ inst = instOf cs (fld s.dev fDtcCntInst) ∧ flag s.dev (fQuiesced 10) = true) ∧
    (∃ (s : State) (cs : Nat) (h : Nat) (b : Nat) (inst : Nat), awake s.dev 14 = true ∧ cs = fld s.dev fDtcCntSet ∧ h = fld s.dev fDtcCntHandle ∧ b = berthIdx h ∧ inst = instOf cs (fld s.dev fDtcCntInst) ∧ flag s.dev (fQuiesced 10) = false ∧ cs ≠ 3 ∧ admits s.dev 4 0 = true) ∧
    (∃ (s : State) (cs : Nat) (h : Nat) (b : Nat) (inst : Nat), awake s.dev 14 = true ∧ cs = fld s.dev fDtcCntSet ∧ h = fld s.dev fDtcCntHandle ∧ b = berthIdx h ∧ inst = instOf cs (fld s.dev fDtcCntInst) ∧ flag s.dev (fQuiesced 10) = false ∧ cs ≠ 3 ∧ admits s.dev 4 0 = false) ∧
    (∃ (s : State) (cs : Nat) (h : Nat) (b : Nat) (inst : Nat), awake s.dev 14 = true ∧ cs = fld s.dev fDtcCntSet ∧ h = fld s.dev fDtcCntHandle ∧ b = berthIdx h ∧ inst = instOf cs (fld s.dev fDtcCntInst) ∧ flag s.dev (fQuiesced 10) = false ∧ cs = 3 ∧ berthOk s.dev h = false) ∧
    (∃ (s : State) (cs : Nat) (h : Nat) (b : Nat) (inst : Nat), awake s.dev 14 = true ∧ cs = fld s.dev fDtcCntSet ∧ h = fld s.dev fDtcCntHandle ∧ b = berthIdx h ∧ inst = instOf cs (fld s.dev fDtcCntInst) ∧ flag s.dev (fQuiesced 10) = false ∧ cs = 3 ∧ berthOk s.dev h = true ∧ (ctxAt s.dev (berthAt s.dev b).ctxIdx).secrecy = .sealed) ∧
    (∃ (s : State) (cs : Nat) (h : Nat) (b : Nat) (inst : Nat), awake s.dev 14 = true ∧ cs = fld s.dev fDtcCntSet ∧ h = fld s.dev fDtcCntHandle ∧ b = berthIdx h ∧ inst = instOf cs (fld s.dev fDtcCntInst) ∧ flag s.dev (fQuiesced 10) = false ∧ cs = 3 ∧ berthOk s.dev h = true ∧ queryAdmitted s.dev (ctxAt s.dev (berthAt s.dev b).ctxIdx).secrecy = true) ∧
    (∃ (s : State) (cs : Nat) (h : Nat) (b : Nat) (inst : Nat), awake s.dev 14 = true ∧ cs = fld s.dev fDtcCntSet ∧ h = fld s.dev fDtcCntHandle ∧ b = berthIdx h ∧ inst = instOf cs (fld s.dev fDtcCntInst) ∧ (fld s.dev fDtcCntPeriod = 0 ∨ s.dev.now < s.dev.dtc.lastPeriodic + 1000 * fld s.dev fDtcCntPeriod)) ∧
    (∃ (s : State) (cs : Nat) (h : Nat) (b : Nat) (inst : Nat), awake s.dev 14 = true ∧ cs = fld s.dev fDtcCntSet ∧ h = fld s.dev fDtcCntHandle ∧ b = berthIdx h ∧ inst = instOf cs (fld s.dev fDtcCntInst) ∧ fld s.dev fDtcCntPeriod ≠ 0 ∧ flag s.dev (fQuiesced 10) = false ∧ s.dev.dtc.lastPeriodic + 1000 * fld s.dev fDtcCntPeriod ≤ s.dev.now) ∧
    (∃ (s : State) (cs : Nat) (h : Nat) (b : Nat) (inst : Nat) (n : _), awake s.dev 14 = true ∧ cs = fld s.dev fDtcCntSet ∧ h = fld s.dev fDtcCntHandle ∧ b = berthIdx h ∧ inst = instOf cs (fld s.dev fDtcCntInst) ∧ cs ≠ 3 ∧ n < 16) ∧
    (∃ (s : State) (cs : Nat) (h : Nat) (b : Nat) (inst : Nat) (k : _), awake s.dev 14 = true ∧ cs = fld s.dev fDtcCntSet ∧ h = fld s.dev fDtcCntHandle ∧ b = berthIdx h ∧ inst = instOf cs (fld s.dev fDtcCntInst) ∧ cs ≠ 3 ∧ (k < cntKey cs inst 0 ∨ cntKey cs inst 15 < k)) ∧
    (∃ (s : State) (cs : Nat) (h : Nat) (b : Nat) (inst : Nat) (k : _), awake s.dev 14 = true ∧ cs = fld s.dev fDtcCntSet ∧ h = fld s.dev fDtcCntHandle ∧ b = berthIdx h ∧ inst = instOf cs (fld s.dev fDtcCntInst) ∧ cs = 3 ∧ k ≠ b) :=
  ⟨⟨st (fs up [(fQuiesced 10, 1)]), fld ((st (fs up [(fQuiesced 10, 1)])) : State).dev fDtcCntSet, fld ((st (fs up [(fQuiesced 10, 1)])) : State).dev fDtcCntHandle, berthIdx ((fld ((st (fs up [(fQuiesced 10, 1)])) : State).dev fDtcCntHandle) : Nat), instOf ((fld ((st (fs up [(fQuiesced 10, 1)])) : State).dev fDtcCntSet) : Nat) (fld ((st (fs up [(fQuiesced 10, 1)])) : State).dev fDtcCntInst), by decide⟩,
   ⟨st (holdTok 0 (cntD 0 0)), fld ((st (holdTok 0 (cntD 0 0))) : State).dev fDtcCntSet, fld ((st (holdTok 0 (cntD 0 0))) : State).dev fDtcCntHandle, berthIdx ((fld ((st (holdTok 0 (cntD 0 0))) : State).dev fDtcCntHandle) : Nat), instOf ((fld ((st (holdTok 0 (cntD 0 0))) : State).dev fDtcCntSet) : Nat) (fld ((st (holdTok 0 (cntD 0 0))) : State).dev fDtcCntInst), by decide⟩,
   ⟨st { cntD 0 0 with scu := { up.scu with sec := 1, cfg := { up.scu.cfg with secBase := 0 } } }, fld ((st { cntD 0 0 with scu := { up.scu with sec := 1, cfg := { up.scu.cfg with secBase := 0 } } }) : State).dev fDtcCntSet, fld ((st { cntD 0 0 with scu := { up.scu with sec := 1, cfg := { up.scu.cfg with secBase := 0 } } }) : State).dev fDtcCntHandle, berthIdx ((fld ((st { cntD 0 0 with scu := { up.scu with sec := 1, cfg := { up.scu.cfg with secBase := 0 } } }) : State).dev fDtcCntHandle) : Nat), instOf ((fld ((st { cntD 0 0 with scu := { up.scu with sec := 1, cfg := { up.scu.cfg with secBase := 0 } } }) : State).dev fDtcCntSet) : Nat) (fld ((st { cntD 0 0 with scu := { up.scu with sec := 1, cfg := { up.scu.cfg with secBase := 0 } } }) : State).dev fDtcCntInst), by decide⟩,
   ⟨st (cntD 3 5), fld ((st (cntD 3 5)) : State).dev fDtcCntSet, fld ((st (cntD 3 5)) : State).dev fDtcCntHandle, berthIdx ((fld ((st (cntD 3 5)) : State).dev fDtcCntHandle) : Nat), instOf ((fld ((st (cntD 3 5)) : State).dev fDtcCntSet) : Nat) (fld ((st (cntD 3 5)) : State).dev fDtcCntInst), by decide⟩,
   ⟨st (cntD 3 hBer (home up sealR)), fld ((st (cntD 3 hBer (home up sealR))) : State).dev fDtcCntSet, fld ((st (cntD 3 hBer (home up sealR))) : State).dev fDtcCntHandle, berthIdx ((fld ((st (cntD 3 hBer (home up sealR))) : State).dev fDtcCntHandle) : Nat), instOf ((fld ((st (cntD 3 hBer (home up sealR))) : State).dev fDtcCntSet) : Nat) (fld ((st (cntD 3 hBer (home up sealR))) : State).dev fDtcCntInst), by decide⟩,
   ⟨st (cntD 3 hBer), fld ((st (cntD 3 hBer)) : State).dev fDtcCntSet, fld ((st (cntD 3 hBer)) : State).dev fDtcCntHandle, berthIdx ((fld ((st (cntD 3 hBer)) : State).dev fDtcCntHandle) : Nat), instOf ((fld ((st (cntD 3 hBer)) : State).dev fDtcCntSet) : Nat) (fld ((st (cntD 3 hBer)) : State).dev fDtcCntInst), by decide⟩,
   ⟨st up, fld ((st up) : State).dev fDtcCntSet, fld ((st up) : State).dev fDtcCntHandle, berthIdx ((fld ((st up) : State).dev fDtcCntHandle) : Nat), instOf ((fld ((st up) : State).dev fDtcCntSet) : Nat) (fld ((st up) : State).dev fDtcCntInst), by decide⟩,
   ⟨st (fs { up with now := 1000 } [(fDtcCntPeriod, 1)]), fld ((st (fs { up with now := 1000 } [(fDtcCntPeriod, 1)])) : State).dev fDtcCntSet, fld ((st (fs { up with now := 1000 } [(fDtcCntPeriod, 1)])) : State).dev fDtcCntHandle, berthIdx ((fld ((st (fs { up with now := 1000 } [(fDtcCntPeriod, 1)])) : State).dev fDtcCntHandle) : Nat), instOf ((fld ((st (fs { up with now := 1000 } [(fDtcCntPeriod, 1)])) : State).dev fDtcCntSet) : Nat) (fld ((st (fs { up with now := 1000 } [(fDtcCntPeriod, 1)])) : State).dev fDtcCntInst), by decide⟩,
   ⟨st (cntD 2 0), fld ((st (cntD 2 0)) : State).dev fDtcCntSet, fld ((st (cntD 2 0)) : State).dev fDtcCntHandle, berthIdx ((fld ((st (cntD 2 0)) : State).dev fDtcCntHandle) : Nat), instOf ((fld ((st (cntD 2 0)) : State).dev fDtcCntSet) : Nat) (fld ((st (cntD 2 0)) : State).dev fDtcCntInst), 15, by decide⟩,
   ⟨st (cntD 2 0), fld ((st (cntD 2 0)) : State).dev fDtcCntSet, fld ((st (cntD 2 0)) : State).dev fDtcCntHandle, berthIdx ((fld ((st (cntD 2 0)) : State).dev fDtcCntHandle) : Nat), instOf ((fld ((st (cntD 2 0)) : State).dev fDtcCntSet) : Nat) (fld ((st (cntD 2 0)) : State).dev fDtcCntInst), 0, by decide⟩,
   ⟨st (cntD 3 hBer), fld ((st (cntD 3 hBer)) : State).dev fDtcCntSet, fld ((st (cntD 3 hBer)) : State).dev fDtcCntHandle, berthIdx ((fld ((st (cntD 3 hBer)) : State).dev fDtcCntHandle) : Nat), instOf ((fld ((st (cntD 3 hBer)) : State).dev fDtcCntSet) : Nat) (fld ((st (cntD 3 hBer)) : State).dev fDtcCntInst), 6, by decide⟩⟩

theorem wit_ContextQuery :
    (∃ (s : State) (h : Nat), awake s.dev 14 = true ∧ h = fld s.dev fDtcQSel ∧ flag s.dev fDtcQBusy = true) ∧
    (∃ (s : State) (h : Nat), awake s.dev 14 = true ∧ h = fld s.dev fDtcQSel ∧ flag s.dev fDtcQBusy = false ∧ flag s.dev (fQuiesced 10) = true) ∧
    (∃ (s : State) (h : Nat), awake s.dev 14 = true ∧ h = fld s.dev fDtcQSel ∧ flag s.dev fDtcQBusy = false ∧ flag s.dev (fQuiesced 10) = false ∧ ctxOk s.dev h = false) ∧
    (∃ (s : State) (h : Nat), awake s.dev 14 = true ∧ h = fld s.dev fDtcQSel ∧ flag s.dev fDtcQBusy = false ∧ flag s.dev (fQuiesced 10) = false ∧ ctxOk s.dev h = true ∧ queryAdmitted s.dev (ctxAt s.dev (ctxIdx h)).secrecy = false) ∧
    (∃ (s : State) (r : MemResp) (h : Nat), awake s.dev 14 = true ∧ h = fld s.dev fDtcQSel ∧ flag s.dev fDtcQBusy = false ∧ flag s.dev (fQuiesced 10) = false ∧ ctxOk s.dev h = true ∧ queryAdmitted s.dev (ctxAt s.dev (ctxIdx h)).secrecy = true ∧ onChip s.dev (rCtx (ctxIdx h)) = false ∧ r ≠ .ok) ∧
    (∃ (s : State) (r : MemResp) (h : Nat) (n : _), awake s.dev 14 = true ∧ h = fld s.dev fDtcQSel ∧ flag s.dev fDtcQBusy = false ∧ flag s.dev (fQuiesced 10) = false ∧ ctxOk s.dev h = true ∧ queryAdmitted s.dev (ctxAt s.dev (ctxIdx h)).secrecy = true ∧ (onChip s.dev (rCtx (ctxIdx h)) = true ∨ r = .ok) ∧ n < 8) :=
  ⟨⟨st (fs up [(fDtcQBusy, 1)]), fld ((st (fs up [(fDtcQBusy, 1)])) : State).dev fDtcQSel, by decide⟩,
   ⟨st (fs up [(fQuiesced 10, 1)]), fld ((st (fs up [(fQuiesced 10, 1)])) : State).dev fDtcQSel, by decide⟩,
   ⟨st up, fld ((st up) : State).dev fDtcQSel, by decide⟩,
   ⟨st (qDev sealR), fld ((st (qDev sealR)) : State).dev fDtcQSel, by decide⟩,
   ⟨st { qDev with btc := { qDev.btc with hotCtx := [] } }, .poison, fld ((st { qDev with btc := { qDev.btc with hotCtx := [] } }) : State).dev fDtcQSel, by decide⟩,
   ⟨st (qDev), .poison, fld ((st (qDev)) : State).dev fDtcQSel, 7, by decide⟩⟩

/-- The state a command leaves, where it completes. -/
def nx (o : Host.Outcome State Fault Refusal) : State := match o with | .next t => t | _ => st up
def pend1 : State := { st up with pending := [.irqSourceRise 0, .pendingMove] }

theorem wit_StepTakesFront : ∃ (s : State) (c : Instr) (r : List Instr), s.pending = c :: r :=
  ⟨pend1, .irqSourceRise 0, [.pendingMove], by decide⟩

theorem wit_IdleTick :
    (∃ (s : State), s.pending = [] ∧ s.dev.mmg.cmd = none) ∧
    (∃ (s : State) (op : _) (m : _) (p : _) (off : _), s.pending = [] ∧ s.dev.mmg.cmd = some (op, m) ∧ p ≠ 0 ∧ p ≠ 8 ∧ off < 0x1000) ∧
    (∃ (s : State), s.pending = [] ∧ s.dev.scu.up = true ∧ s.dev.fsa.slew = 0 ∧ s.dev.fsa.holdUntil ≤ s.dev.now) ∧
    (∃ (s : State), s.pending = [] ∧ s.dev.scu.up = false) :=
  ⟨⟨st up, by decide⟩,
   ⟨st { up with mmg := { up.mmg with cmd := some (1, 5) } }, 1, 5, 7, 0x80, by decide⟩,
   ⟨st up, by decide⟩,
   ⟨st {}, by decide⟩⟩

theorem wit_QueueKept : ∃ (i : Instr) (s : State) (t : State), exec i s = .next t :=
  ⟨.pendingMove, pend1, nx (exec .pendingMove pend1), by exact rfl⟩

theorem wit_Completes :
    (∃ (i : Instr) (s : State), i.wellFormed = true) ∧
    (∃ (i : Instr) (s : State), i.wellFormed = false) :=
  ⟨⟨.pendingMove, st up, by decide⟩,
   ⟨.islandRelease 0, st up, by decide⟩⟩

theorem wit_ColdResetHolds : ∃ (i : Instr) (s : State) (t : State), s.dev.scu.up = false ∧ actsInReset i = false ∧ exec i s = .next t :=
  ⟨.pendingMove, st {}, nx (exec .pendingMove (st {})), by exact ⟨rfl, rfl, rfl⟩⟩

theorem wit_StepKeepsForm : ∃ (s : State) (t : State), s.dev.wf = true ∧ step s = .next t :=
  ⟨pend1, nx (step pend1), by exact ⟨by decide, rfl⟩⟩

theorem wit_CoherenceFrame : ∃ (i : Instr) (s : State) (t : State), cohRow i = true ∧ exec i s = .next t ∧ cohWriter i = false :=
  ⟨.rds 8 0x40 .send, st up, nx (exec (.rds 8 0x40 .send) (st up)), by exact ⟨rfl, rfl, rfl⟩⟩

theorem wit_InterruptFrame : ∃ (i : Instr) (s : State) (t : State) (p : _) (off : _), irqRow i = true ∧ exec i s = .next t ∧ p ≠ 0 ∧ off < 0x1000 :=
  ⟨.irqSourceRise 0, st up, nx (exec (.irqSourceRise 0) (st up)), 3, 0x80, by exact ⟨rfl, rfl, by decide, by decide⟩⟩

theorem wit_FaultQueueFrame : ∃ (i : Instr) (s : State) (t : State) (p : _) (off : _), fqRow i = true ∧ exec i s = .next t ∧ p ≠ 0 ∧ off < 0x1000 :=
  ⟨.pendingMove, st up, nx (exec .pendingMove (st up)), 3, 0x80, by exact ⟨rfl, rfl, by decide, by decide⟩⟩

theorem wit_SecurityFrame : ∃ (i : Instr) (s : State) (t : State), secRow i = true ∧ exec i s = .next t :=
  ⟨.lock 0x10C4, st up, nx (exec (.lock 0x10C4) (st up)), by exact ⟨rfl, rfl⟩⟩

theorem wit_TraceFrame : ∃ (i : Instr) (s : State) (t : State), traceRow i = true ∧ exec i s = .next t :=
  ⟨.sample, st up, nx (exec .sample (st up)), by exact ⟨rfl, rfl⟩⟩

theorem wit_PowerFrame : ∃ (i : Instr) (s : State) (t : State) (p : _) (off : _), powerRow i = true ∧ exec i s = .next t ∧ p ≠ 0 ∧ off < 0x1000 :=
  ⟨.targetTrim, st up, nx (exec .targetTrim (st up)), 3, 0x80, by exact ⟨rfl, rfl, by decide, by decide⟩⟩

theorem wit_ChecksSeeByteErrors : ∃ (l : List Nat) (r : List Nat) (a : Nat) (b : Nat), ((∀ x ∈ l ++ r, x < 256)) ∧ a < 256 ∧ b < 256 ∧ a ≠ b :=
  ⟨[1], [2], 255, 0, by decide⟩

theorem wit_PacingFrame : ∃ (i : Instr) (s : State) (t : State), paceRow i = true ∧ exec i s = .next t :=
  ⟨.telemetryLost, st up, nx (exec .telemetryLost (st up)), by exact ⟨rfl, rfl⟩⟩

theorem wit_TideFrame : ∃ (i : Instr) (s : State) (t : State), tideRow i = true ∧ exec i s = .next t :=
  ⟨.tideLost, st up, nx (exec .tideLost (st up)), by exact ⟨rfl, rfl⟩⟩

theorem wit_ArrivalCases :
    (∃ (n : Nat) (g : Nat) (c : Nat) (x : Nat) (v : Nat) (e : Nat), 0 < n ∧ n < 2 ^ 16 ∧ g < 2 ^ 32 ∧ c < n ∧ x < n ∧ v < 2 ^ 32 ∧ e = (v + 2 ^ 32 - g) % 2 ^ 32 ∧ e = 0 ∧ c + 1 < n) ∧
    (∃ (n : Nat) (g : Nat) (c : Nat) (x : Nat) (v : Nat) (e : Nat), 0 < n ∧ n < 2 ^ 16 ∧ g < 2 ^ 32 ∧ c < n ∧ x < n ∧ v < 2 ^ 32 ∧ e = (v + 2 ^ 32 - g) % 2 ^ 32 ∧ e = 0 ∧ c + 1 = n) ∧
    (∃ (n : Nat) (g : Nat) (c : Nat) (x : Nat) (v : Nat) (e : Nat), 0 < n ∧ n < 2 ^ 16 ∧ g < 2 ^ 32 ∧ c < n ∧ x < n ∧ v < 2 ^ 32 ∧ e = (v + 2 ^ 32 - g) % 2 ^ 32 ∧ e = 1 ∧ x + 1 < n) ∧
    (∃ (n : Nat) (g : Nat) (c : Nat) (x : Nat) (v : Nat) (e : Nat), 0 < n ∧ n < 2 ^ 16 ∧ g < 2 ^ 32 ∧ c < n ∧ x < n ∧ v < 2 ^ 32 ∧ e = (v + 2 ^ 32 - g) % 2 ^ 32 ∧ e = 1 ∧ x + 1 = n) ∧
    (∃ (n : Nat) (g : Nat) (c : Nat) (x : Nat) (v : Nat) (e : Nat), 0 < n ∧ n < 2 ^ 16 ∧ g < 2 ^ 32 ∧ c < n ∧ x < n ∧ v < 2 ^ 32 ∧ e = (v + 2 ^ 32 - g) % 2 ^ 32 ∧ 2 ≤ e ∧ e < 2 ^ 31) ∧
    (∃ (n : Nat) (g : Nat) (c : Nat) (x : Nat) (v : Nat) (e : Nat), 0 < n ∧ n < 2 ^ 16 ∧ g < 2 ^ 32 ∧ c < n ∧ x < n ∧ v < 2 ^ 32 ∧ e = (v + 2 ^ 32 - g) % 2 ^ 32 ∧ 2 ^ 31 ≤ e) :=
  ⟨⟨3, 4294967295, 1, 2, 4294967295, (((4294967295) : Nat) + 2 ^ 32 - ((4294967295) : Nat)) % 2 ^ 32, by decide⟩,
   ⟨2, 4294967295, 1, 1, 4294967295, (((4294967295) : Nat) + 2 ^ 32 - ((4294967295) : Nat)) % 2 ^ 32, by decide⟩,
   ⟨2, 4294967295, 1, 0, 0, (((0) : Nat) + 2 ^ 32 - ((4294967295) : Nat)) % 2 ^ 32, by decide⟩,
   ⟨2, 4294967295, 1, 1, 0, (((0) : Nat) + 2 ^ 32 - ((4294967295) : Nat)) % 2 ^ 32, by decide⟩,
   ⟨2, 4294967295, 1, 1, 2147483646, (((2147483646) : Nat) + 2 ^ 32 - ((4294967295) : Nat)) % 2 ^ 32, by decide⟩,
   ⟨2, 4294967295, 1, 1, 2147483647, (((2147483647) : Nat) + 2 ^ 32 - ((4294967295) : Nat)) % 2 ^ 32, by decide⟩⟩

theorem wit_ArriveSignal : ∃ (r : BolRec), r.kind = .barrier :=
  ⟨{ bol0 with kind := .barrier, param := 3 }, by decide⟩



theorem wit_PoolRowsComplete :
    (∃ (s : State) (k : CmdId) (x : Cmd) (p : Nat) (cnt : Nat) (va : Nat) (slot : Nat) (nowait : Bool), awake s.dev 7 = true ∧ atIssueOf s.dev k x ∧ x.spec.op = .alloc p nowait cnt va slot ∧ flag s.dev (fQreq 6) = false ∧ ctxLive s.dev x.ctx = true ∧ (poolAt s.dev p).waiters.contains k = false ∧ countOf s.dev x ≠ 0 ∧ allocCause s.dev x (countOf s.dev x) = 0 ∧ servable s.dev p (countOf s.dev x) = true) ∧
    (∃ (s : State) (k : CmdId) (x : Cmd) (p : Nat) (cnt : Nat) (va : Nat) (nowait : Bool) (w : List MemResp) (a : AllocOpen), awake s.dev 7 = true ∧ cmdAt s.dev k = some x ∧ hot s.dev (berthRecs s.dev x.berth) ∧ x.status = none ∧ x.completeLsn = none ∧ x.spec.sigs = [] ∧ x.spec.op = .alloc p nowait cnt va 0 ∧ s.dev.lev.allocs = [a] ∧ a.cmd = k ∧ va + 4 * a.ix.length ≤ 2 ^ 57 ∧ (poolAt s.dev a.pool).waiters = [] ∧ ((∀ r ∈ w, r = .ok ∨ r = .poison)) ∧ (outWrites 0 (outAddrs va 0 a.ix.length [])).length ≤ w.length) ∧
    (∃ (s : State) (k : CmdId) (x : Cmd) (p : Nat) (cnt : Nat) (va : Nat) (ix : List W32), awake s.dev 7 = true ∧ atIssueOf s.dev k x ∧ x.spec.op = .free p cnt va ∧ x.spec.sigs = [] ∧ flag s.dev (fQreq 6) = false ∧ ctxLive s.dev x.ctx = true ∧ countOf s.dev x ≠ 0 ∧ freeCause s.dev x (countOf s.dev x) = 0 ∧ va + 4 * countOf s.dev x ≤ 2 ^ 57 ∧ ix.length = countOf s.dev x ∧ (poolAt s.dev p).waiters = [] ∧ badIndex (poolAt s.dev p) (ix.map (·.toNat)) = none) ∧
    (∃ (s : State) (p : Nat) (b : Nat), awake s.dev 7 = true ∧ flag s.dev fLevPoolBusy = false ∧ flag s.dev (fQuiesced 6) = false ∧ p = fld s.dev fLevPoolIndex ∧ (poolAt s.dev p).st = .free ∧ 0 < fld s.dev fLevPoolBlocks ∧ fld s.dev fLevPoolBlocks ≤ 2 ^ 24 ∧ ctxLive s.dev (fld s.dev fLevPoolOwner) = true ∧ firstFit (areaBlocks s.dev) (fld s.dev fLevPoolBlocks) 0 (areaUsed s.dev) = some b) ∧
    (∃ (s : State) (p : Nat), awake s.dev 7 = true ∧ flag s.dev fLevPoolBusy = false ∧ flag s.dev (fQuiesced 6) = false ∧ p = fld s.dev fLevPoolIndex ∧ (poolAt s.dev p).st = .live ∧ (poolAt s.dev p).held = [] ∧ (poolAt s.dev p).waiters = []) :=
  ⟨⟨st (poolDev pool0 [allocC 5 false]), k0, allocC 5 false, 4, 5, 0x100, 0, false, by simp only [atIssueOf, hot]; decide⟩,
   ⟨st { poolDev pool0 [allocC 1 false] with lev := { pools := [(4, pool0)], allocs := [⟨k0, 4, [3]⟩] } }, k0, allocC 1 false, 4, 1, 0x100, false, [MemResp.ok], (⟨k0, 4, [3]⟩ : AllocOpen), by simp only [hot]; decide⟩,
   ⟨st (poolDev pool0 [freeC]), k0, freeC, 4, 2, 0x200, ([0, 3] : List W32), by simp only [atIssueOf, hot]; decide⟩,
   ⟨st (poolSel home), 4, 0, by decide⟩,
   ⟨st (poolSel (poolDev { pool0 with held := [] } [])), 4, by decide⟩⟩

theorem wit_EnumRowsComplete :
    (∃ (s : State) (l : BitVec 6), awake s.dev 12 = true ∧ s.dev.fsa.links.length = 48 ∧ l.toNat < 48 ∧ isRoot s.dev = true ∧ flag s.dev fFsaEnumBusy = false ∧ s.dev.fsa.censusOn = false ∧ flag s.dev (fQuiesced 9) = false ∧ linkUsable s.dev l.toNat = true ∧ (linkAt s.dev l.toNat).st ≠ .foreign ∧ ((∀ j, j < l.toNat → linkUsable s.dev j = false))) ∧
    (∃ (s : State) (l : BitVec 6) (a : Nat) (p : Packet) (epoch : BitVec 16) (root : W32) (base : W32) (next : W32) (hops : W32), awake s.dev 12 = true ∧ s.dev.fsa.links.length = 48 ∧ l.toNat < 48 ∧ nextIn s.dev l.toNat = some (a, p) ∧ p.body = .enumTok epoch root base next hops ∧ linkUsable s.dev l.toNat = true ∧ (s.dev.fsa.rootId = 0 ∨ root.toNat = s.dev.fsa.rootId) ∧ s.dev.fsa.epoch ≠ some epoch.toNat ∧ flag s.dev fFsaPinned = false) ∧
    (∃ (s : State) (l : BitVec 6) (a : Nat) (p : Packet) (ans : EnumAns) (next : W32) (id : W32), awake s.dev 12 = true ∧ s.dev.fsa.links.length = 48 ∧ l.toNat < 48 ∧ nextIn s.dev l.toNat = some (a, p) ∧ p.body = .enumReply ans next id ∧ isRoot s.dev = false ∧ s.dev.fsa.tokenAt = some l.toNat) ∧
    (∃ (s : State) (l : BitVec 6) (a : Nat) (p : Packet) (id : W32), awake s.dev 12 = true ∧ s.dev.fsa.links.length = 48 ∧ l.toNat < 48 ∧ nextIn s.dev l.toNat = some (a, p) ∧ p.body = .census (.newId [] id) ∧ isRoot s.dev = false) ∧
    (∃ (s : State) (l : BitVec 6) (a : Nat) (p : Packet) (dst : W32) (pr : BitVec 6) (al : BitVec 6), awake s.dev 12 = true ∧ s.dev.fsa.links.length = 48 ∧ l.toNat < 48 ∧ nextIn s.dev l.toNat = some (a, p) ∧ p.body = .route [] dst pr al false ∧ dst.toNat ≠ fld s.dev fFsaId ∧ pr.toNat < 48) ∧
    (∃ (s : State) (l : BitVec 6) (a : Nat) (p : Packet), awake s.dev 12 = true ∧ s.dev.fsa.links.length = 48 ∧ l.toNat < 48 ∧ nextIn s.dev l.toNat = some (a, p) ∧ p.body = .isolate []) ∧
    (∃ (s : State) (l : BitVec 6), awake s.dev 12 = true ∧ s.dev.fsa.links.length = 48 ∧ l.toNat < 48 ∧ (linkAt s.dev l.toNat).up = false) ∧
    (∃ (s : State) (l : BitVec 6), awake s.dev 12 = true ∧ s.dev.fsa.links.length = 48 ∧ l.toNat < 48 ∧ (linkAt s.dev l.toNat).up = true ∧ isRoot s.dev = false) ∧
    (∃ (s : State) (l : BitVec 6) (sel : BitVec 16), awake s.dev 12 = true ∧ s.dev.fsa.links.length = 48 ∧ l.toNat < 48 ∧ (sel.extractLsb' 0 6) = l ∧ (sel.extractLsb' 6 6).toNat < 48) :=
  ⟨⟨st (own0 [(fFsaRoot, 1)] (fd { links := [{}, { up := true }] ++ List.replicate 46 {} })), 1, by decide⟩,
   ⟨st (fd (elink (tok 5))), 0, 50, pktL (tok 5), (3 : BitVec 16), (5 : W32), (5 : W32), (9 : W32), (1 : W32), by decide⟩,
   ⟨st (own0 [] (fd { elink (.enumReply .done 12 77) with tokenAt := some 0, tokenLeft := [1, 0], epoch := some 3 })), 0, 50, pktL (.enumReply .done 12 77), EnumAns.done, (12 : W32), (77 : W32), by decide⟩,
   ⟨st (own0 [] (fd (elink (.census (.newId [] 8))))), 0, 50, pktL (.census (.newId [] 8)), (8 : W32), by decide⟩,
   ⟨st (own0 [] (fd (elink (.route [] 77 0 63 false)))), 0, 50, pktL (.route [] 77 0 63 false), (77 : W32), (0 : BitVec 6), (63 : BitVec 6), by decide⟩,
   ⟨st (own0 [] (fd (elink (.isolate [])))), 0, 50, pktL (.isolate []), by decide⟩,
   ⟨st up, 0, by decide⟩,
   ⟨st (fd { links := lnks lUp }), 0, by decide⟩,
   ⟨st up, 1, 0x1041, by decide⟩⟩

theorem wit_LoadRowsComplete :
    (∃ (s : State), scuRuns s.dev ∧ s.dev.scu.load = .config ∧ s.dev.scu.cfgDone = false ∧ s.dev.scu.cfgChunks.length < 2048) ∧
    (∃ (s : State) (c : _), scuRuns s.dev ∧ s.dev.scu.load = .config ∧ s.dev.scu.cfgDone = true ∧ parseConfig s.dev.scu.cfgChunks = some c) ∧
    (∃ (s : State), scuRuns s.dev ∧ s.dev.scu.load = .config ∧ s.dev.scu.loadStart + 100000000 ≤ s.dev.now) ∧
    (∃ (s : State), scuRuns s.dev ∧ s.dev.scu.load = .image ∧ s.dev.scu.imgVerdict = false ∧ s.dev.scu.fromHarbour = false ∧ s.dev.scu.imgDone = false ∧ s.dev.scu.imgCount < 524288) ∧
    (∃ (s : State), scuRuns s.dev ∧ s.dev.scu.load = .image ∧ s.dev.scu.imgVerdict = false ∧ inReset s.dev 10 = true ∧ s.dev.scu.fromHarbour = false ∧ s.dev.scu.imgDone = true) ∧
    (∃ (s : State) (h : _), scuRuns s.dev ∧ s.dev.scu.load = .image ∧ s.dev.scu.imgVerdict = false ∧ inReset s.dev 10 = true ∧ s.dev.scu.fromHarbour = true ∧ s.dev.scu.imgCopy = some h) ∧
    (∃ (s : State), scuRuns s.dev ∧ s.dev.scu.load = .image ∧ s.dev.scu.formatDue = true ∧ inReset s.dev 10 = false) ∧
    (∃ (s : State), scuRuns s.dev ∧ s.dev.scu.load = .checked ∧ fld s.dev fInReset = 0 ∧ s.dev.scu.rst = .none) ∧
    (∃ (s : State) (reason : BitVec 8), scuRuns s.dev ∧ fld s.dev fLoadState = 1 ∧ 1 ≤ reason.toNat ∧ reason.toNat ≤ 8) ∧
    (∃ (s : State), scuRuns s.dev ∧ fld s.dev fLoadState = 4) :=
  ⟨⟨st (inScu (fun s => { s with load := .config })), by simp only [scuRuns]; decide⟩,
   ⟨st (inScu (fun s => { s with load := .config, cfgDone := true, cfgChunks := goodCfg })), (parseConfig goodCfg).getD {}, by simp only [scuRuns]; decide⟩,
   ⟨st (inScu (fun s => { s with load := .config }) { up with now := 100000000 }), by simp only [scuRuns]; decide⟩,
   ⟨st (imgD id), by simp only [scuRuns]; decide⟩,
   ⟨st (fs (imgD fun s => { s with imgDone := true }) [(fInReset, 2 ^ 10)]), by simp only [scuRuns]; decide⟩,
   ⟨st (fs (imgD fun s => { s with fromHarbour := true, imgCopy := some 7 }) [(fInReset, 2 ^ 10)]), (7 : BitVec 256), by simp only [scuRuns]; decide⟩,
   ⟨st (imgD fun s => { s with formatDue := true }), by simp only [scuRuns]; decide⟩,
   ⟨st (inScu (fun s => { s with load := .checked })), by simp only [scuRuns]; decide⟩,
   ⟨st (loading1 up), 8, by simp only [scuRuns]; decide⟩,
   ⟨st (fs up [(fLoadState, 4)]), by simp only [scuRuns]; decide⟩⟩

end Sys2Proof.Tests
end

/-!
PROOFS. Fetching a manifest ring (05 R80 to R83, R87, R88, R94, R381): the four rules of `Obligations.RingFetch`, over what a fetch
and its manifest are in the states the rules name and over what the home agent's own work may change.
-/

namespace Sys2Proof.Machine.RingFetch

/-! ### Counters, events and requests -/

@[simp] theorem memReq_memOut (d : Dev) (r : MemReq) : (memReq d r).memOut = d.memOut ++ [r] := Eq.symm rfl

theorem fld_incSat_same (d : Dev) {f : Fld} (n : Nat) (h : f.ok = true) :
    fld (incSat d f n) f = min (fld d f + n) (fldSize f.hi f.lo - 1) := by
  have hpos := fldSize_pos f.hi f.lo
  rw [incSat, fld_setFld_same d _ h, Nat.mod_eq_of_lt (by omega)]

theorem testBit_nset_same (m i : Nat) : (nset m i).testBit i = true := by
  unfold nset
  split
  · rwa [← nbit_eq_testBit]
  · rename_i h
    rw [nbit_eq_testBit] at h
    rw [Nat.add_comm, Nat.testBit_two_pow_add_eq]
    simpa using h

theorem fbit_setBit_same (d : Dev) {f : Fld} {i : Nat} (h : f.ok = true) (hi : f.lo + i ≤ f.hi) :
    fbit (setBit d f i) f i = true := by
  have hw : i < f.hi + 1 - f.lo := by omega
  rw [fbit, setBit, fld_setFld_same _ _ h, nbit_eq_testBit, fldSize, Nat.testBit_mod_two_pow, testBit_nset_same]
  simpa using hw

theorem raiseEvent_implemented (d : Dev) {p e : Nat} (h : e < pageIrqN p) : raiseEvent d p e = setBit d (fIrqRaw p) e :=
  if_pos h

theorem fbit_raiseEvent_retry (d : Dev) : fbit (raiseEvent d 3 1) (fIrqRaw 3) 1 = true := by
  rw [raiseEvent_implemented d (by decide)]
  exact fbit_setBit_same d (by decide) (by decide)

theorem fld_retries_raiseEvent (d : Dev) : fld (raiseEvent d 3 1) fMfuRetries = fld d fMfuRetries := by
  rw [raiseEvent_implemented d (by decide)]
  exact fld_setFld_apart d _ (by decide) (by decide)

/-! ### What the home agent's own work may change (R267, R269) -/

/-- Lines, directory and arbiter, and registers; nothing else. -/
def homeOnly (d e : Dev) : Prop := ∃ c r, e = { d with coh := c, regs := r }

theorem homeOnly_btc {d e : Dev} (h : homeOnly d e) : e.btc = d.btc := by obtain ⟨c, r, rfl⟩ := h; rfl
theorem homeOnly_mfu {d e : Dev} (h : homeOnly d e) : e.mfu = d.mfu := by obtain ⟨c, r, rfl⟩ := h; rfl

theorem homeOnly_refl (d : Dev) : homeOnly d d := ⟨d.coh, d.regs, rfl⟩

theorem homeOnly_trans {a b c : Dev} (h1 : homeOnly a b) (h2 : homeOnly b c) : homeOnly a c := by
  obtain ⟨c1, r1, rfl⟩ := h1
  obtain ⟨c2, r2, rfl⟩ := h2
  exact ⟨c2, r2, rfl⟩

theorem homeOnly_foldl {α : Type} {f : Dev → α → Dev} (hf : ∀ d x, homeOnly d (f d x)) (l : List α) (d : Dev) :
    homeOnly d (l.foldl f d) := by
  induction l generalizing d with
  | nil => exact homeOnly_refl d
  | cons x r ih => exact homeOnly_trans (hf d x) (ih (f d x))

theorem homeOnly_modCoh (d : Dev) (f : Coh → Coh) : homeOnly d (modCoh d f) := ⟨f d.coh, d.regs, rfl⟩

theorem homeOnly_setBusy (d : Dev) (l : Nat) (b : Option Busy) : homeOnly d (setBusy d l b) := homeOnly_modCoh d _

theorem homeOnly_sendSnoops (d : Dev) (l : Nat) (ss : List (Nat × CohEv)) : homeOnly d (sendSnoops d l ss) :=
  homeOnly_foldl (fun _ _ => ⟨_, _, rfl⟩) ss d

theorem homeOnly_serveHome (d : Dev) (l : Nat) (wr step : Bool) : homeOnly d (serveHome d l wr step) := by
  simp only [serveHome]
  split
  · split
    · exact homeOnly_setBusy d l _
    · exact homeOnly_refl d
  · exact homeOnly_trans (homeOnly_setBusy d l _) (homeOnly_sendSnoops _ l _)

theorem homeOnly_pumpHome (d : Dev) : homeOnly d (pumpHome d) := by
  unfold pumpHome
  split
  · exact homeOnly_trans (homeOnly_modCoh d _) (homeOnly_serveHome _ _ _ _)
  · exact homeOnly_refl d

theorem homeOnly_endBusy (d : Dev) (l : Nat) : homeOnly d (endBusy d l) :=
  homeOnly_trans (homeOnly_setBusy d l none) (homeOnly_pumpHome _)

theorem homeOnly_homeEnd (d : Dev) (ls : List Nat) : homeOnly d (homeEnd d ls) := by
  refine homeOnly_foldl (fun d l => ?_) ls d
  split
  · split
    · exact homeOnly_endBusy d l
    · exact homeOnly_refl d
  · exact homeOnly_refl d

theorem homeOnly_recallCopies (d : Dev) (ls : List Nat) : homeOnly d (recallCopies d ls) := by
  refine homeOnly_foldl (fun d l => ?_) ls d
  split
  · exact homeOnly_refl d
  · split
    · exact homeOnly_serveHome d l _ _
    · split
      · exact homeOnly_refl d
      · exact homeOnly_modCoh d _

/-- A home step whose lines are all open to it runs at once. -/
theorem homeStep_open {d : Dev} {ls : List (Bool × Nat)} (f : Dev → Dev) (h : linesOpen d ls) :
    homeStep d ls f = f (homeEnd d (ls.map (·.2))) :=
  if_pos (List.all_eq_true.2 h)

/-! ### Records marked as used (R63) -/

@[simp] theorem touch_scu (d : Dev) (r : RecId) : (touch d r).scu = d.scu := by cases r <;> rfl
@[simp] theorem touch_mfu (d : Dev) (r : RecId) : (touch d r).mfu = d.mfu := by cases r <;> rfl
@[simp] theorem touch_coh (d : Dev) (r : RecId) : (touch d r).coh = d.coh := by cases r <;> rfl
@[simp] theorem touch_toMfu (d : Dev) (r : RecId) : (touch d r).btc.toMfu = d.btc.toMfu := by cases r <;> rfl

/-- Whether a line is open to a home step is a matter of the home agent's state alone. -/
theorem homeOpen_congr {d e : Dev} (h : e.coh = d.coh) (wr : Bool) (l : Nat) : homeOpen e wr l = homeOpen d wr l := by
  simp only [homeOpen, dirOf, h]

theorem linesOpen_congr {d e : Dev} (h : e.coh = d.coh) {ls : List (Bool × Nat)} (hl : linesOpen d ls) : linesOpen e ls :=
  fun x hx => (homeOpen_congr h x.1 x.2).trans (hl x hx)

theorem berthLine_congr {d e : Dev} (h : e.scu = d.scu) (i n : Nat) : berthLine e i n = berthLine d i n := by
  simp only [berthLine, h]

/-! ### A fetch and its manifest, each the only one -/

theorem fetchAt_single {d : Dev} {b : Nat} {f : Fetch} (hf : d.mfu.fetches = [f]) (hb : f.berth = b) : fetchAt d b = some f := by
  simp [fetchAt, hf, hb]

theorem inFetch_single {d : Dev} {b : Nat} {m : Manifest} (hm : d.mfu.mans = [m]) (hb : m.berthIdx = b) (hs : m.st = .staging) :
    inFetch d b = some m := by
  simp [inFetch, hm, hb, hs]

theorem modFetch_single {d : Dev} {b : Nat} {f : Fetch} (g : Fetch → Fetch) (hf : d.mfu.fetches = [f]) (hb : f.berth = b) :
    modFetch d b g = modMfu d fun x => { x with fetches := [g f] } := by
  simp [modFetch, modMfu, hf, hb]

theorem modMan_single {d : Dev} {b : Nat} {m : Manifest} (g : Manifest → Manifest) (hm : d.mfu.mans = [m]) (hb : m.berthIdx = b) :
    modMan d b m.headIdx g = modMfu d fun x => { x with mans := [g m] } := by
  simp [modMan, modMfu, hm, hb]

/-! ### Staging (R82, R87) -/

/-- Nothing is staged while the first line of the fetch has not come. -/
theorem absorb_asked {d : Dev} {b i : Nat} {f : Fetch} {rest : List (Nat × LineSt)} (n : Nat) (hf : fetchAt d b = some f)
    (hl : f.lines = (i, .asked) :: rest) : absorb n d b = d := by
  cases n with
  | zero => rfl
  | succ n => cases hh : f.halting <;> simp [absorb, hf, hl, hh]

/-- A checked line at the front joins the manifest in fetch. -/
theorem absorb_checked {d : Dev} {b i : Nat} {f : Fetch} {m : Manifest} {l : Line} {code : W64} {rest : List (Nat × LineSt)}
    (n : Nat) (hf : fetchAt d b = some f) (hh : f.halting = false) (hl : f.lines = (i, .checked l code) :: rest)
    (hm : inFetch d b = some m) : absorb (n + 1) d b = absorb n (stageLine d b m l) b := by
  simp [absorb, hf, hl, hh, hm]

/-- A window with lines not yet handed on has not ended. -/
theorem afterWindow_linesLeft {d : Dev} {b : Nat} {f : Fetch} (hf : fetchAt d b = some f) (hl : f.lines ≠ []) :
    afterWindow d b = d := by
  simp [afterWindow, hf, hl]

theorem pumpFetch_asked {d : Dev} {b i : Nat} {f : Fetch} {rest : List (Nat × LineSt)} (hf : fetchAt d b = some f)
    (hl : f.lines = (i, .asked) :: rest) : pumpFetch d b = d := by
  simp only [pumpFetch, hf, absorb_asked _ hf hl]
  exact afterWindow_linesLeft hf (by simp [hl])

/-- A line that does not complete its manifest is staged and leaves the fetch. -/
theorem stageLine_incomplete {d : Dev} {b : Nat} {f : Fetch} {m : Manifest} (l : Line) (hf : d.mfu.fetches = [f])
    (hfb : f.berth = b) (hm : d.mfu.mans = [m]) (hmb : m.berthIdx = b) (hlt : m.lines.length < m.lineCount) :
    stageLine d b m l = modMfu d fun x =>
      { x with mans := [{ m with lines := m.lines ++ [clearCrc l] }], fetches := [{ f with lines := f.lines.drop 1 }] } := by
  have hc : ¬ m.lineCount + 1 ≤ (m.lines ++ [clearCrc l]).length := by simp; omega
  simp only [stageLine, if_neg hc, modMan_single _ hm hmb, popLine]
  rw [modFetch_single (f := f) _ (by simpa using hf) hfb]
  rfl

/-! ### FETCH_WINDOW (R82, R83) -/

/-- The ring read of line `i` of a berth, under its context's keys. -/
def ringReadOf (d : Dev) (b hint i : Nat) : MemReq :=
  let r := berthAt d b
  let c := ctxAt d r.ctxIdx
  .ringRead c.asid c.keyid c.pid hint (ringAddr r i)

/-- The fetch after lines have been asked for, `n` being the next. -/
def asked (f : Fetch) (n : Nat) (is : List Nat) : Fetch :=
  { f with next := n, lines := f.lines ++ is.map fun i => (i, .asked) }

theorem ringReadOf_congr {d e : Dev} (h : e.btc = d.btc) : ringReadOf e = ringReadOf d := by
  funext b hint i
  simp only [ringReadOf, berthAt, ctxAt, h]

theorem askLine_noStash {d : Dev} {b : Nat} {f : Fetch} (hint i : Nat) (hf : d.mfu.fetches = [f]) (hb : f.berth = b)
    (hs : d.mfu.stash = []) :
    askLine b hint d i =
      modMfu (memReq d (ringReadOf d b hint i)) fun x => { x with fetches := [asked f (idxAdd i 1) [i]] } := by
  simp only [askLine, hs, takeFirst]
  exact modFetch_single (d := memReq d _) _ hf hb

/-- With no line in the stash every line is asked for from memory. -/
theorem askLines_noStash {b : Nat} (hint : Nat) (is : List Nat) {d : Dev} {f : Fetch} (hf : d.mfu.fetches = [f])
    (hb : f.berth = b) (hs : d.mfu.stash = []) :
    ∃ n, is.foldl (askLine b hint) d =
      { d with memOut := d.memOut ++ is.map (ringReadOf d b hint), mfu := { d.mfu with fetches := [asked f n is] } } := by
  induction is generalizing d f with
  | nil => exact ⟨f.next, by simp [asked, ← hf]⟩
  | cons i is ih =>
    have step := askLine_noStash hint i hf hb hs
    have hf' : (askLine b hint d i).mfu.fetches = [asked f (idxAdd i 1) [i]] := by rw [step]; rfl
    have hs' : (askLine b hint d i).mfu.stash = [] := by rw [step]; exact hs
    have hr : ringReadOf (askLine b hint d i) = ringReadOf d := ringReadOf_congr (by rw [step]; rfl)
    obtain ⟨n, hn⟩ := ih hf' hb hs'
    refine ⟨n, ?_⟩
    rw [List.foldl_cons, hn, hr, step]
    simp [asked, modMfu, memReq]

theorem trimStash_empty {d : Dev} (lim : Nat) (hs : d.mfu.stash = []) : trimStash d lim = d := by
  simp [trimStash, hs]

/-- With an empty stash a window starts by taking over the settings alone (R94). -/
theorem startWindow_noStash {d : Dev} {b : Nat} {f : Fetch} (hf : d.mfu.fetches = [f]) (hb : f.berth = b)
    (hs : d.mfu.stash = []) :
    startWindow d b = modMfu d fun x =>
      { x with fetches := [{ f with defHint := fld d fMfuDefHint }], stashEn := flag d fMfuStashEn
               stashMax := fld d fMfuStashMax } := by
  simp only [startWindow, modFetch_single _ hf hb]
  exact trimStash_empty _ hs

/-- Ring indices of the next window. -/
def windowIdx (f : Fetch) : List Nat := (List.range (min 64 (idxSub f.upTo f.next))).map (idxAdd f.next)

/-- Ring reads of the next window: with the doorbell's hint, or DEF_HINT (R83). -/
def windowReads (d : Dev) (f : Fetch) : List MemReq :=
  (windowIdx f).map (ringReadOf d f.berth (if f.hint = 0 then fld d fMfuDefHint else f.hint))

/-- A window asks for its lines, and the fetch waits for the first of them. -/
theorem nextWindow_noStash {d : Dev} {f : Fetch} (hf : d.mfu.fetches = [f]) (hs : d.mfu.stash = []) :
    ∃ m g, nextWindow d f = { d with memOut := d.memOut ++ windowReads d f, mfu := m } ∧
      m.fetches = [g] ∧ g.berth = f.berth ∧ g.lines = f.lines ++ (windowIdx f).map fun i => (i, .asked) := by
  have start := startWindow_noStash hf rfl hs
  obtain ⟨n, hn⟩ := askLines_noStash (d := startWindow d f.berth) (b := f.berth) (f := { f with defHint := fld d fMfuDefHint })
    (if f.hint = 0 then fld (startWindow d f.berth) fMfuDefHint else f.hint) (windowIdx f) (by rw [start]; rfl) rfl
    (by rw [start]; exact hs)
  have hw : nextWindow d f = _ := hn
  rw [start] at hw
  exact ⟨_, _, hw, rfl, rfl, rfl⟩

theorem windowIdx_cons {f : Fetch} (h : 0 < idxSub f.upTo f.next) : ∃ i is, windowIdx f = i :: is := by
  obtain ⟨k, hk⟩ : ∃ k, min 64 (idxSub f.upTo f.next) = k + 1 := ⟨min 64 (idxSub f.upTo f.next) - 1, by omega⟩
  exact ⟨_, _, by rw [windowIdx, hk, List.range_succ_eq_map, List.map_cons]⟩

theorem fetchWindow_asks {d : Dev} {f : Fetch} (hf : d.mfu.fetches = [f]) (hl : f.lines = []) (hh : f.halting = false)
    (hi : f.idleSent = false) (hs : d.mfu.stash = []) (hq : flag d (fQreq 3) = false) (hn : 0 < idxSub f.upTo f.next) :
    ∃ m, fetchWindow d f.berth = { d with memOut := d.memOut ++ windowReads d f, mfu := m } := by
  obtain ⟨m, g, hw, hg, hgb, hgl⟩ := nextWindow_noStash hf hs
  obtain ⟨i, is, hi'⟩ := windowIdx_cons hn
  rw [hl, hi'] at hgl
  have hrun : fetchWindow d f.berth = pumpFetch (nextWindow d f) f.berth := by
    simp [fetchWindow, fetchAt_single hf rfl, hh, hi, hl, hq]
  refine ⟨m, ?_⟩
  rw [hrun, hw]
  exact pumpFetch_asked (fetchAt_single hg hgb) hgl

theorem fetchWindow_asksRingLines : Rule.FetchWindow := by
  rintro s b f r c hawake hf hb hl hh hi hs rfl rfl
  have hexec : exec (.fetchWindow b) s = .next { s with dev := fetchWindow s.dev b.toNat } :=
    onUnit_awake (fun d => fetchWindow d b.toNat) hawake
  refine ⟨fun hq => ?_, fun hq hn => ?_⟩
  · have held : fetchWindow s.dev b.toNat = s.dev := by simp [fetchWindow, fetchAt_single hf hb, hh, hi, hl, hq]
    rw [hexec, held]
  · obtain ⟨m, hw⟩ := fetchWindow_asks hf hl hh hi hs hq hn
    rw [windowReads, windowIdx, List.map_map, hb] at hw
    rw [hw] at hexec
    exact ⟨_, hexec, rfl, rfl, rfl⟩

/-! ### LINE_RESPONSE (R87, R88) -/

/-- Of two lines at the front, checked and not yet come, the first is staged and the second waited for. -/
theorem pumpFetch_checked {d : Dev} {b i j : Nat} {f : Fetch} {m : Manifest} {l : Line} {code : W64} {rest : List (Nat × LineSt)}
    (hf : d.mfu.fetches = [f]) (hfb : f.berth = b) (hh : f.halting = false)
    (hl : f.lines = (i, .checked l code) :: (j, .asked) :: rest) (hm : d.mfu.mans = [m]) (hmb : m.berthIdx = b)
    (hst : m.st = .staging) (hlt : m.lines.length < m.lineCount) :
    pumpFetch d b = modMfu d fun x =>
      { x with mans := [{ m with lines := m.lines ++ [clearCrc l] }], fetches := [{ f with lines := f.lines.drop 1 }] } := by
  have hat := fetchAt_single hf hfb
  have hstage := stageLine_incomplete l hf hfb hm hmb hlt
  have hat' : fetchAt (stageLine d b m l) b = some { f with lines := f.lines.drop 1 } := by
    rw [hstage]
    exact fetchAt_single rfl hfb
  simp only [pumpFetch, hat, absorb_checked _ hat hh hl (inFetch_single hm hmb hst)]
  rw [absorb_asked (i := j) (rest := rest) _ hat' (by simp [hl]), afterWindow_linesLeft hat' (by simp [hl]), hstage]

/-- An answer without a response error: its line is checked, or asked for once more. -/
theorem lineResponse_asked {d : Dev} {b i : Nat} {f : Fetch} {rest : List (Nat × LineSt)} (l : Line) (hf : fetchAt d b = some f)
    (hl : f.lines = (i, .asked) :: rest) :
    lineResponse d b i .ok l =
      if lineCrcOk l then pumpFetch (setLineSt d b i (.checked l (Config.lineCode l))) b
      else memReq (raiseEvent (incSat (setLineSt d b i .retried) fMfuRetries) 3 1) (ringReadOf d b f.readHint i) := by
  cases hc : lineCrcOk l <;> simp [lineResponse, hf, hl, judgeLine, hc, memErr, ringReadOf]

/-- The lines of a fetch with line `i` in a new state. -/
def withLineSt (f : Fetch) (i : Nat) (st : LineSt) : Fetch :=
  { f with lines := f.lines.map fun x => if x.1 = i then (i, st) else x }

theorem setLineSt_single {d : Dev} {b : Nat} {f : Fetch} (i : Nat) (st : LineSt) (hf : d.mfu.fetches = [f]) (hb : f.berth = b) :
    setLineSt d b i st = modMfu d fun x => { x with fetches := [withLineSt f i st] } :=
  modFetch_single _ hf hb

theorem lineResponse_stagesOrRetries : Rule.LineResponse := by
  rintro s b i j line f m rest r c rfl rfl hawake hf hb hh hl hij hm hmb hst hlt
  have hexec : exec (.lineResponse b i .ok line) s = .next { s with dev := lineResponse s.dev b.toNat i.toNat .ok line } :=
    onUnit_awake (fun d => lineResponse d b.toNat i.toNat .ok line) hawake
  have hji : j.toNat ≠ i.toNat := fun h => hij (BitVec.eq_of_toNat_eq h.symm)
  rw [lineResponse_asked line (fetchAt_single hf hb) hl] at hexec
  refine ⟨fun hc => ?_, fun hc => ?_⟩
  · have hl' : (withLineSt f i.toNat (.checked line (Config.lineCode line))).lines =
        (i.toNat, .checked line (Config.lineCode line)) :: (j.toNat, .asked) ::
          rest.map fun x => if x.1 = i.toNat then (i.toNat, .checked line (Config.lineCode line)) else x := by
      simp [withLineSt, hl, hji]
    have hpump := pumpFetch_checked (d := setLineSt s.dev b.toNat i.toNat (.checked line (Config.lineCode line)))
      (f := withLineSt f i.toNat (.checked line (Config.lineCode line))) (by rw [setLineSt_single _ _ hf hb]; rfl)
      hb hh hl' hm hmb hst hlt
    rw [hexec, if_pos hc, hpump, setLineSt_single _ _ hf hb, List.map_drop]
    rfl
  · rw [if_neg (by simp [hc]), setLineSt_single _ _ hf hb] at hexec
    refine ⟨_, hexec, ?_, ?_, ?_, ?_⟩
    · rw [fld_memReq, fld_retries_raiseEvent, fld_incSat_same _ _ (by decide)]
      rfl
    · rw [fbit_memReq, fbit_raiseEvent_retry]
    · simp
    · simp only [memReq_memOut, raiseEvent_memOut, incSat_memOut, modMfu_memOut]
      rfl

/-! ### IDLE_CHECK (R80, R381) -/

@[simp] theorem idleCheck_mfu (d : Dev) (b f r : Nat) :
    (idleCheck d b f r).mfu = { d.mfu with idle := d.mfu.idle.filter fun e => e.1 ≠ b } := by
  simp only [idleCheck]
  repeat' split
  all_goals rfl

/-- The home's answer to a berth's IDLE_CHECK: the berth record becomes `x` and a message leaves for the MFU. -/
def idleAnswer (d : Dev) (b : Nat) (x : BerthRec) (msg : MfuMsg) : Dev :=
  modBtc (putBerth (modMfu d fun m => { m with idle := m.idle.filter fun e => e.1 ≠ b }) b x) fun t =>
    { t with toMfu := t.toMfu ++ [msg] }

theorem idleAnswer_btc (d : Dev) (b : Nat) (x : BerthRec) (msg : MfuMsg) :
    berthAt (idleAnswer d b x msg) b = x ∧ (idleAnswer d b x msg).btc.toMfu = d.btc.toMfu ++ [msg] :=
  ⟨berthAt_putBerth_same _ _ _, rfl⟩

/-- With the berth HALTED, or no line beyond f, the fetch is closed. -/
theorem idleCheck_closes {d : Dev} {b f : Nat} (r : Nat) {x : BerthRec} (hx : x = berthAt d b)
    (h : x.state = .halted ∨ (x.state = .live ∧ x.prod = f)) :
    idleCheck d b f r = idleAnswer d b { x with cons := r, fopen := false, rung := false } (.close b) := by
  subst hx
  rcases h with hhalted | ⟨hlive, hprod⟩
  · simp [idleCheck, idleAnswer, hhalted]
  · simp [idleCheck, idleAnswer, hlive, hprod]

/-- With lines beyond f on a berth that is LIVE the fetch goes on. -/
theorem idleCheck_continues {d : Dev} {b f : Nat} (r : Nat) {x : BerthRec} (hx : x = berthAt d b) (hlive : x.state = .live)
    (hprod : x.prod ≠ f) : idleCheck d b f r = idleAnswer d b { x with cons := f, rung := false } (.cont b x.prod) := by
  subst hx
  simp [idleCheck, idleAnswer, hlive, hprod]

/-- The home step of the first IDLE_CHECK, with its records on chip and its lines open, answers over a block that differs from the
present one in the home agent's state, registers and the order of use alone. -/
theorem execIdleCheck_runs {s : State} {b : BitVec 22} {f r : Nat} (hawake : awake s.dev 2 = true)
    (hi : s.dev.mfu.idle = [(b.toNat, f, r)]) (hhot : hot s.dev (berthRecs s.dev b.toNat))
    (hopen : linesOpen s.dev [(true, berthLine s.dev b.toNat 0), (true, berthLine s.dev b.toNat 1)]) :
    ∃ e : Dev, exec (.idleCheck b) s = .next { s with dev := idleCheck e b.toNat f r } ∧ e.mfu = s.dev.mfu ∧
      berthAt e b.toNat = berthAt s.dev b.toNat ∧ e.btc.toMfu = s.dev.btc.toMfu := by
  have hexec : exec (.idleCheck b) s = execIdleCheck b s := rfl
  rw [hexec, execIdleCheck, onUnit_awake _ hawake]
  simp only [hi, ne_eq, not_true_eq_false, if_false, withRecs_hot _ hhot]
  let d := (berthRecs s.dev b.toNat).foldl touch s.dev
  have hl : ∀ n, berthLine d b.toNat n = berthLine s.dev b.toNat n := fun n => berthLine_congr (by simp [d, berthRecs]) _ _
  have hd : linesOpen d [(true, berthLine d b.toNat 0), (true, berthLine d b.toNat 1)] := by
    rw [hl, hl]
    exact linesOpen_congr (by simp [d, berthRecs]) hopen
  have hhome := homeOnly_homeEnd d ([(true, berthLine d b.toNat 0), (true, berthLine d b.toNat 1)].map (·.2))
  rw [homeStep_open _ hd]
  refine ⟨_, rfl, ?_, ?_, ?_⟩
  · rw [homeOnly_mfu hhome]
    simp [d, berthRecs]
  · rw [berthAt, homeOnly_btc hhome]
    change berthAt d b.toNat = _
    simp [d, berthRecs]
  · rw [homeOnly_btc hhome]
    simp [d, berthRecs]

theorem idleCheck_closesOrContinues : Rule.IdleCheck := by
  intro s b f r x hawake hi hhot hopen hx
  obtain ⟨e, hexec, hmfu, hberth, hto⟩ := execIdleCheck_runs hawake hi hhot hopen
  rw [← hberth] at hx
  refine ⟨_, hexec, ?_, fun h => ?_, fun h hp => ?_⟩
  · simp [hmfu, hi]
  · rw [← hto, idleCheck_closes r hx h]
    exact idleAnswer_btc _ _ _ _
  · rw [← hto, idleCheck_continues r hx h hp]
    exact idleAnswer_btc _ _ _ _

/-! ### FETCH_REPLY (R81, R94) -/

/-- Manifests given up leave the manifest table; the copies of their lines are the home agent's own work. -/
theorem homeOnly_dropMans (d : Dev) (gone : Manifest → Bool) :
    homeOnly (modMfu d fun m => { m with mans := m.mans.filter fun x => !gone x }) (dropMans d gone) :=
  homeOnly_recallCopies _ _

/-- The end of a fetch takes the fetch and its incomplete manifest from the MFU; all else is the home agent's own work. -/
theorem homeOnly_closeFetch (d : Dev) (b : Nat) :
    homeOnly (modMfu d fun m => { m with
      fetches := m.fetches.filter fun f => f.berth ≠ b
      mans := m.mans.filter fun x => !(x.berthIdx = b && x.st = .staging) }) (closeFetch d b) :=
  homeOnly_dropMans (modMfu d fun m => { m with fetches := m.fetches.filter fun f => f.berth ≠ b }) _

theorem fetchReply_closesOrContinues : Rule.FetchReply := by
  intro s b prod rest hawake
  have hexec : exec .fetchReply s = execFetchReply s := rfl
  rw [execFetchReply, onUnit_awake _ hawake] at hexec
  refine ⟨fun hq => ?_, fun hq hto => ?_, fun hq hto => ?_⟩
  · rw [hexec, if_pos hq]
  · simp only [hq, hto, Bool.false_eq_true, if_false] at hexec
    have hclose := homeOnly_closeFetch (modBtc s.dev fun x => { x with toMfu := rest }) b
    exact ⟨_, hexec, rfl, homeOnly_btc hclose, homeOnly_mfu hclose⟩
  · simp only [hq, hto, Bool.false_eq_true, if_false] at hexec
    exact hexec

/-- Settles O12: a fetch asks for its lines, stages what comes, and is closed or continued by the home's answer. -/
theorem ringFetch : Obligations.RingFetch :=
  ⟨fetchWindow_asksRingLines, lineResponse_stagesOrRetries, idleCheck_closesOrContinues, fetchReply_closesOrContinues⟩

end Sys2Proof.Machine.RingFetch

/-!
PROOFS. Translation and its cache (07 R117, R118). `Obligations.Translation` fails in its rule for XC_LOOKUP, in the clause of a sight that a
check refuses. The rejection halts a berth that is LIVE (05 R89), and a berth that halts has its manifests not yet asked for discarded (R381),
a later one behind a rejected one too (14 R248); so every sight it has queued goes, where the clause keeps all but the one looked up. The
clause requires its manifest to be the only one of the block, but not the other queued sights to be of other berths.
-/

namespace Sys2Proof.Machine.Translation

/-! ### What the BTC alone decides -/

theorem berthAt_congr {d e : Dev} (h : e.btc = d.btc) (i : Nat) : berthAt e i = berthAt d i := by
  simp only [berthAt, h]

theorem domainOf_congr {d e : Dev} (h : e.btc = d.btc) (c : Nat) : domainOf e c = domainOf d c := by
  unfold domainOf ctxAt
  rw [h]

/-! ### A berth that halts has no sight left (R381) -/

/-- No sight of the berth waits at the PLX. -/
def sightless (d : Dev) (b : Nat) : Prop := ∀ x ∈ d.plx.sights, x.1 ≠ b

theorem haltFetch_sightless (d : Dev) (b : Nat) : sightless (haltFetch d b) b := by
  have hfilter : ∀ l : List (Nat × Nat), ∀ x ∈ l.filter (fun s => s.1 ≠ b), x.1 ≠ b := fun l x hx => by
    simpa using (List.mem_filter.1 hx).2
  unfold haltFetch sightless
  dsimp only
  split
  · exact hfilter _
  · split <;> exact hfilter _

theorem haltBerth_sightless {d : Dev} {b : Nat} (h : (berthAt d b).state = .live) : sightless (haltBerth d b) b := by
  unfold haltBerth
  simp only [h, decide_true, Bool.true_or, if_true]
  exact haltFetch_sightless _ _

/-- Fixing a fault opens or counts a record of the SCU and leaves the berths. -/
theorem berthAt_fixFault (d : Dev) (b : Nat) (mk : Nat → FaultRec) (i : Nat) : berthAt (fixFault d b mk).1 i = berthAt d i := by
  unfold fixFault
  split <;> rfl

/-! ### A rejection takes the berth's sights with it (R88, R89) -/

theorem rejectManifest_sightless {d : Dev} {b : Nat} (h : (berthAt d b).state = .live) (head : Nat) (id : W64)
    (cause unit addr line argA argB : Nat) : sightless (rejectManifest d b head id cause unit addr line argA argB) b := by
  simp only [sightless, rejectManifest, incSat_plx, raiseEvent_plx]
  exact haltBerth_sightless (by rw [berthAt_fixFault, h])

/-- A sight that its own checks or the entry's outcome refuse is counted, and its manifest rejected (R117). -/
theorem serveSight_refused_sightless {d : Dev} {e : XcEntry} {m : Manifest} {x : Nat × Nat} (hit : Bool)
    (hx : sightBreach m.lines e.refused = some x) (hlive : (berthAt d m.berthIdx).state = .live) :
    sightless (serveSight d e hit m) m.berthIdx := by
  have hbtc : (incSat (useEntry d e.num) fPlxRefused).btc = d.btc := by simp [useEntry]
  simp only [serveSight, hx]
  exact rejectManifest_sightless (by rw [berthAt_congr hbtc, hlive]) _ _ _ _ _ _ _ _

/-- The lookup of a sight whose manifest waits for it and whose key has an entry on chip. -/
theorem xcLookup_hit {d : Dev} {b h : Nat} {m : Manifest} {e : XcEntry}
    (hfind : (d.mfu.mans.find? fun m => m.berthIdx = b && m.headIdx = h && m.st = .looking) = some m)
    (hhit : findEntry d.plx.entries (fun e => e.onChip && e.matches d m.hash (domainOf d m.ctx)) = some e) :
    xcLookup d b h = serveSight d e true m := by
  simp only [xcLookup, hfind, hhit]

/-- In every state that the second clause of the rule names, with the manifest's berth LIVE, the lookup leaves no sight of that berth. -/
theorem xcLookup_refused_sightless {s : State} {b h : Nat} {rest : List (Nat × Nat)} {m : Manifest} {e : XcEntry} {x : Nat × Nat}
    (hawake : awake s.dev 4 = true) (hsights : s.dev.plx.sights = (b, h) :: rest) (hmans : s.dev.mfu.mans = [m])
    (hb : m.berthIdx = b) (hh : m.headIdx = h) (hst : m.st = .looking)
    (hhit : findEntry s.dev.plx.entries (fun e => e.onChip && e.matches s.dev m.hash (domainOf s.dev m.ctx)) = some e)
    (hx : sightBreach m.lines e.refused = some x) (hlive : (berthAt s.dev b).state = .live) :
    ∃ d, exec .xcLookup s = .next { s with dev := d } ∧ sightless d b := by
  let d := modPlx s.dev fun p => { p with sights := rest }
  have hfind : (d.mfu.mans.find? fun m => m.berthIdx = b && m.headIdx = h && m.st = .looking) = some m := by
    simp [d, hmans, hb, hh, hst]
  have hentry : findEntry d.plx.entries (fun e => e.onChip && e.matches d m.hash (domainOf d m.ctx)) = some e := hhit
  refine ⟨serveSight d e true m, ?_, ?_⟩
  · rw [exec_xcLookup, execXcLookup, onUnit_awake _ hawake]
    simp only [hsights]
    rw [xcLookup_hit hfind hentry]
  · subst hb
    exact serveSight_refused_sightless true hx hlive

/-! ### A block whose only manifest is refused at its sight -/

/-- A manifest without lines that waits for its lookup. -/
def lookingMan : Manifest := { berth := 0, berthIdx := 5, ctx := 0, headIdx := 0, lineCount := 0, id := 0, st := .looking }

/-- The SCU up, no island held, berth 5 LIVE with that manifest, and nothing in the PLX. -/
def liveBerthDev : Dev :=
  setFld { scu := { up := true }, btc := { berth := [(5, { state := .live })] }, mfu := { mans := [lookingMan] } } fInReset 0

/-- The entry of the manifest's key, on chip; its outcome is rule 3 at line 1. -/
def refusedEntry : XcEntry :=
  { num := 0, hash := 0, domain := domainOf liveBerthDev 0, epoch := curEpoch liveBerthDev, catVer := curCatVer liveBerthDev, lines := 0,
    refused := some (3, 1), checked := false, inUse := 0, onChip := true, harbour := true, lastUse := 0 }

/-- Two sights of the berth wait; the first is that of the manifest. -/
def twoSights : State := ⟨modPlx liveBerthDev fun _ => { sights := [(5, 0), (5, 1)], entries := [refusedEntry] }, []⟩

theorem refusedEntry_matches : refusedEntry.matches twoSights.dev lookingMan.hash (domainOf twoSights.dev lookingMan.ctx) = true := by
  have hdomain : domainOf twoSights.dev lookingMan.ctx = domainOf liveBerthDev 0 :=
    domainOf_congr (modPlx_btc liveBerthDev _) 0
  simp only [XcEntry.matches, hdomain, Bool.and_eq_true, decide_eq_true_eq]
  exact ⟨⟨⟨rfl, rfl⟩, rfl⟩, rfl⟩

theorem twoSights_hit :
    findEntry twoSights.dev.plx.entries
      (fun e => e.onChip && e.matches twoSights.dev lookingMan.hash (domainOf twoSights.dev lookingMan.ctx)) = some refusedEntry := by
  have hentries : twoSights.dev.plx.entries = [refusedEntry] := rfl
  have hchip : refusedEntry.onChip = true := rfl
  simp [findEntry, hentries, hchip, refusedEntry_matches]

/-- Refutes O13: with a second sight of the same LIVE berth in the queue, the XC_LOOKUP of a sight that a check refuses takes that one from
the queue too, where the rule has the rest of the queue as it was. -/
theorem not_translation : ¬ Obligations.Translation := by
  rintro ⟨hlookup, -⟩
  have hawake : awake twoSights.dev 4 = true := by decide
  have hbreach : sightBreach lookingMan.lines refusedEntry.refused = some (3, 1) := by decide
  obtain ⟨-, hrefused, -⟩ := hlookup twoSights 5 0 [(5, 1)] lookingMan hawake rfl rfl rfl rfl rfl
  obtain ⟨t, hexec, hsights, -⟩ := hrefused refusedEntry twoSights_hit (3, 1) hbreach
  obtain ⟨d, hexec', hnone⟩ := xcLookup_refused_sightless hawake rfl rfl rfl rfl rfl twoSights_hit hbreach rfl
  obtain rfl : t = { twoSights with dev := d } := Host.Outcome.next.inj (hexec.symm.trans hexec')
  exact hnone (5, 1) (by rw [hsights]; exact List.mem_singleton_self _) rfl

end Sys2Proof.Machine.Translation
